-- ==== Sys2Proof/Word.lean ====
section
/-!
DEFINITION. The word types of the Cladar 5120 and their plainest arithmetic: the 24-bit native word (R8),
the 48-bit line time (R4), a pin-referred instant in sixteenths of a tick (R35), bytes and host words.
-/
namespace Sys2Proof

/-- The native word, 24 bits (00_scope.md, conventions). -/
abbrev Word := BitVec 24

/-- One byte. -/
abbrev Byte := BitVec 8

/-- A host register, 32 bits (R276). -/
abbrev Word32 := BitVec 32

/-- Line time, a 48-bit count of ticks that wraps (R4). -/
abbrev Time := BitVec 48

/-- A pin-referred instant: a line time in [51:4] and sixteenths of a tick in [3:0] (R35). -/
abbrev T16 := BitVec 52

/-- The control-store word of the microengine (R120). -/
abbrev MicroWord := BitVec 128

/-- The Pewter instruction word (R203). -/
abbrev PewterWord := BitVec 16

end Sys2Proof
end

