-- ==== Sys2Proof/Syntax.lean ====
section
/-!
DEFINITION. The commands of the block: one constructor of `Instr` per row of spec/opcode_table.json, with the
operands that the spec's rules give the row, and the plain-data operand records they carry.
-/
namespace Sys2Proof

/-- Who reads or writes a parameter: each is a requester of its own for R6 and for every capture (00_scope.md R6,
10_mailbox_interface.md R290, 13_memory_and_security.md R366). -/
inductive Requester where
  | host
  | supervisor
  | block (b : Fin 32)
  | debug
deriving DecidableEq, Repr

/-- The fields of a 32-byte submission entry after its OPCODE (R282), which the row itself names. -/
structure Entry where
  ring : Fin 16
  seq : BitVec 16
  flags : Byte
  rsv : Word32
  a0 : Word
  a1 : Word
  a2 : Word
  a3 : Word
  a4 : Word
  a5 : Word
  a6 : Word
  a7 : Word
deriving DecidableEq, Repr

/-- What the host's memory answers a buffer read with: its bytes, or a failed DMA read with its cause (R279,
H_DMA_STAT.CAUSE). A buffer in ring memory (FLAGS.BUF_DEV) is read from the state instead. -/
inductive Buf where
  | data (bytes : List Byte)
  | fail (cause : BitVec 4)
deriving DecidableEq, Repr

/-- What a fetch of a submission entry brings (R281, R283). -/
inductive Fetched where
  | entry (opcode : Byte) (e : Entry)
  | fail (ring : Fin 16) (cause : BitVec 4)
deriving DecidableEq, Repr

/-- The two PWM carrier kinds (05_pwm_and_trips.md): the carrier of a block and the gang up-counter of a region. -/
inductive Carrier where
  | block (b : Fin 32)
  | gang (r : Fin 4)
deriving DecidableEq, Repr

/-- A scope of the fault chapter (R304): a cell, a block, a region, or the chip. -/
inductive Scope where
  | cell (c : Fin 512)
  | block (b : Fin 32)
  | region (r : Fin 4)
  | chip
deriving DecidableEq, Repr

/-- Compare unit A or B of a cell (R86). -/
inductive CmpUnit where
  | a | b
deriving DecidableEq, Repr

/-- A port of the Electrum link (09_electrum_link.md). -/
inductive Port where
  | a | b
deriving DecidableEq, Repr

/-- A trip source of a carrier (05_pwm_and_trips.md R157). -/
inductive TripSource where
  | comparator (w : Fin 64)
  | pin (k : Fin 4)
  | software
  | safeReq
deriving DecidableEq, Repr

/-- The memories with check bits (R348), as SCRUB_WORD and the fault classes name them (R299). -/
inductive MemId where
  | controlStore | paramRam | regionRam | ringMem | supervisorRam | pewterStore | secureBank
deriving DecidableEq, Repr

/-- What the scrubber finds in a word (R353, R354). -/
inductive ScrubFinding where
  | clean | corrected | uncorrectable
deriving DecidableEq, Repr

/-- The tamper inputs and the mesh (R365). -/
inductive TamperCause where
  | input (n : Fin 4)
  | mesh
deriving DecidableEq, Repr

/-- A ball whose filtered input can change: a TIO, or a ZIO that can take a TIO's place (R395). -/
inductive Ball where
  | tio (n : Fin 512)
  | zio (z : Fin 16)
deriving DecidableEq, Repr

/-- The header fields of a firmware image and the outcome of its checks (R359). -/
structure ImageInfo where
  version : Word32
  patch : BitVec 16
  rollback : Nat
  lcMask : BitVec 8
  tooLarge : Bool
  signed : Bool
  decrypts : Bool
deriving DecidableEq, Repr

/-- What the boot flow finds outside the device (R334, R335, R364, R393): HOST_SEL low for SPI, the current image of the
boot flash, whether the secure bank passes its integrity check, and the supply class of each VIOB bank. -/
structure BootFind where
  spi : Bool
  current : Option ImageInfo
  bankIntact : Bool
  vio : BitVec 32
deriving DecidableEq, Repr

/-- A power-fail trigger (R346, R383). -/
inductive PowerCause where
  | pfwN | vcore | vmem
deriving DecidableEq, Repr

/-- An access of the debug port (R366). -/
inductive DebugAccess where
  | readParam (pa : Word)
  | writeParam (pa : Word) (v : Word)
  | readStore (b : Fin 32) (a : Fin 4096)
  | writeStore (b : Fin 32) (a : Fin 4096) (v : MicroWord)
deriving DecidableEq, Repr

/-- The commands: one constructor per row of the command table. -/
inductive Instr where
  -- host commands (R292): the entry the supervisor applies, with what a DMA read of its buffer brings
  | openSession (e : Entry)
  | closeSession (e : Entry)
  | echoWord (e : Entry)
  | waitUntil (e : Entry)
  | readParam (e : Entry)
  | writeParam (e : Entry)
  | modifyParam (e : Entry)
  | writeParams (e : Entry)
  | readBlock (e : Entry)
  | writeBlock (e : Entry) (buf : Buf)
  | armTime (e : Entry)
  | armAngle (e : Entry)
  | cancelEvent (e : Entry)
  | replaceEvent (e : Entry)
  | readEvent (e : Entry)
  | startDomain (e : Entry)
  | stopDomain (e : Entry)
  | resyncDomain (e : Entry)
  | setVirtualSpeed (e : Entry)
  | loadWindow (e : Entry) (buf : Buf)
  | verifyWindow (e : Entry) (buf : Buf)
  | invokeRoutine (e : Entry)
  | loadPewter (e : Entry) (buf : Buf)
  | injectPewter (e : Entry)
  | loadLut (e : Entry) (buf : Buf)
  | readFault (e : Entry)
  | acknowledgeFault (e : Entry)
  | releaseScope (e : Entry)
  | releaseFaultPin (e : Entry)
  | setCalendar (e : Entry)
  | bindWearCounter (e : Entry)
  | commitLifetime (e : Entry)
  | exportLifetime (e : Entry)
  | requestModeRun (e : Entry)
  | requestModeConfigure (e : Entry)
  | requestModeService (e : Entry)
  | advanceLifecycle (e : Entry) (buf : Buf)
  | stageFirmware (e : Entry) (buf : Buf)
  | verifyFirmware (e : Entry)
  | activateFirmware (e : Entry)
  | abortStaging (e : Entry)
  -- the host interface (R271 to R298)
  | submissionFetch (f : Fetched)
  | doorbell (ring : Fin 16) (tail : BitVec 16)
  | eqDoorbell (ring : Fin 16) (head : BitVec 32)
  | sqCfgEn (ring : Fin 16) (v : Word32)
  | eqCfgEn (ring : Fin 16) (v : Word32)
  | hostRegisterWrite (addr : BitVec 16) (size : Nat) (v : Word32)
  | vlogClear (v : Word32)
  | hLtLoRead
  | imageReady (v : Word32)
  | spiWrite (addr : Word) (bytes : List Byte)
  | spiRead (addr : Word) (len : Nat)
  | readStatus
  | hotReset
  | recordPost
  | irqHoldoffExpiry (ring : Fin 16)
  | heartbeat
  | hostTimeout
  | supervisorDivergence (ramError : Bool)
  | supervisorRestartDone
  | supLockstep
  -- timebase and clocks (R24 to R32, R47)
  | ltPresetHi (req : Requester) (v : Word)
  | ltLoRead (req : Requester)
  | domSnapCapture (req : Requester) (v : Word)
  | pllSwitch (req : Requester) (v : Word)
  | activeLockLoss
  | standbyLock (gain : Bool)
  | referenceLost
  | referenceReturn
  | coreClockLost
  -- cells (R81 to R112)
  | inputEdge (ball : Ball) (level : Bool) (t : T16)
  | capture (cell : Fin 512) (rise : Bool) (t : T16)
  | capLoRead (req : Requester) (cell : Fin 512)
  | cellEnSet (req : Requester) (cell : Fin 512) (v : Word)
  | cellEnClear (req : Requester) (cell : Fin 512) (v : Word)
  | force (req : Requester) (cell : Fin 512) (v : Word)
  | cmpHiWrite (req : Requester) (cell : Fin 512) (unit : CmpUnit) (v : Word)
  | compareMatch (cell : Fin 512) (unit : CmpUnit)
  | readbackMismatch (cell : Fin 512) (ball : Bool)
  -- angle domains (R50 to R80, R106)
  | toothEdge (trk : Fin 16) (rise : Bool) (t : T16)
  | missDeadline (d : Fin 16)
  | gapTooth (d : Fin 16)
  | standstillDeadline (d : Fin 16)
  | toothUpdate (d : Fin 16)
  | virtualTooth (d : Fin 16)
  | virtualStop (d : Fin 16)
  | domCtrlEn (req : Requester) (d : Fin 16) (v : Word)
  | domCtrlResync (req : Requester) (d : Fin 16) (v : Word)
  | indexSet (req : Requester) (d : Fin 16) (v : Word)
  | vgCtrlRun (req : Requester) (d : Fin 16) (v : Word)
  | standstillTime (req : Requester) (d : Fin 16) (v : Word)
  | angleRead (req : Requester) (d : Fin 16)
  | liveAngleCompare (region : Fin 4) (entry : Fin 64)
  -- block sequencers (R113 to R146)
  | blkTimerExpiry (b : Fin 32)
  | routineDispatch (b : Fin 32)
  | microword (b : Fin 32)
  | commit (b : Fin 32)
  | routineWatchdog (b : Fin 32)
  | laneRebuildDone (b : Fin 32)
  | custEnClear (req : Requester) (b : Fin 32) (v : Word)
  -- PWM (R147 to R168)
  | periodStart (c : Carrier)
  | pwmEdge (cell : Fin 512)
  | ctrig (c : Carrier) (k : Fin 4)
  | tripSourceActive (c : Carrier) (src : TripSource)
  | bpwmCtrlEn (req : Requester) (c : Carrier) (v : Word)
  | tripClr (req : Requester) (c : Carrier) (v : Word)
  | tripSw (req : Requester) (c : Carrier) (v : Word)
  | updlock (req : Requester) (c : Carrier) (v : Word)
  -- position channels (R169 to R197)
  | quadEdge (ch : Fin 64) (ab : BitVec 2) (t : T16)
  | stepEdge (ch : Fin 64) (dir : Bool) (t : T16)
  | pulseRefEdge (ch : Fin 64) (t : T16)
  | sincosSample (ch : Fin 64) (a b : BitVec 14) (t : Time)
  | serialReading (ch : Fin 64)
  | countEvent (ch : Fin 64)
  | indexEvent (ch : Fin 64) (t : T16)
  | channelStandstill (ch : Fin 64)
  | emuOutputCount (ch : Fin 64)
  | chCtrlEn (req : Requester) (ch : Fin 64) (v : Word)
  | cmpEn (req : Requester) (ch : Fin 64) (v : Word)
  | emuEn (req : Requester) (ch : Fin 64) (v : Word)
  | clrFault (req : Requester) (ch : Fin 64) (v : Word)
  | indexArm (req : Requester) (ch : Fin 64) (v : Word)
  | posHi (req : Requester) (ch : Fin 64) (v : Word)
  | pcmpHi (req : Requester) (ch : Fin 64) (v : Word)
  | spdTimeout (req : Requester) (ch : Fin 64) (v : Word)
  | posLoRead (req : Requester) (ch : Fin 64)
  | idxLatchLoRead (req : Requester) (ch : Fin 64)
  -- Pewter engines (R198 to R217)
  | pewterHoldStep (pe : Fin 32)
  | peNop (pe : Fin 32)
  | peSet (pe : Fin 32)
  | peMov (pe : Fin 32)
  | peJmp (pe : Fin 32)
  | peWait (pe : Fin 32)
  | peIn (pe : Fin 32)
  | pePush (pe : Fin 32)
  | peOut (pe : Fin 32)
  | pePull (pe : Fin 32)
  | peIrq (pe : Fin 32)
  | lutStep (pe : Fin 32)
  | restart (req : Requester) (pe : Fin 32) (v : Word)
  | peCtrlEn (req : Requester) (pe : Fin 32) (v : Word)
  | peInject (req : Requester) (pe : Fin 32) (v : Word)
  | peTxdata (req : Requester) (pe : Fin 32) (v : Word)
  | peRxdataRead (req : Requester) (pe : Fin 32)
  | peProg (req : Requester) (pe : Fin 32) (v : Word)
  | peLut (req : Requester) (pe : Fin 32) (v : Word)
  -- converters and comparators (R218 to R243)
  | sqSwtrig (req : Requester) (region : Fin 4) (v : Word)
  | sqListData (req : Requester) (region : Fin 4) (v : Word)
  | sqCtrlEn (req : Requester) (region : Fin 4) (v : Word)
  | adcCtrlEn (req : Requester) (adc : Fin 32) (v : Word)
  | conversionStart (region : Fin 4)
  | conversionResult (adc : Fin 32) (vp vn : Int)
  | adcLastRead (req : Requester) (adc : Fin 32)
  | rawZoneChange (w : Fin 64) (uV : Int)
  | filterSample (w : Fin 64) (uV : Int)
  | settlingEnd (w : Fin 64)
  | wcCtrlEn (req : Requester) (w : Fin 64) (v : Word)
  | wcThrWrite (req : Requester) (w : Fin 64) (hi : Bool) (v : Word)
  -- Electrum link (R244 to R270)
  | frameOriginate
  | frameArrival (port : Port) (bytes : List Byte) (t : T16)
  | frameMissed (port : Port)
  | laneLockLoss (port : Port)
  | backupTakeover
  | candidateOriginate
  | elcCtrlEn (req : Requester) (v : Word)
  | elcMbxTxHi (req : Requester) (v : Word)
  -- faults (R299 to R324)
  | faultDetected (cls : Byte) (index : Fin 512) (detail : Word)
  | quietPeriodEnd (scope : Scope)
  | pinWidthExpiry
  | safeReqN
  | safeReqNRise
  -- modes, boot, power (R325 to R347)
  | pwrOkRise (find : BootFind)
  | bootDone
  | bootStop (cause : BitVec 8)
  | pwrOkFall
  | powerFail (cause : PowerCause)
  | powerFailRecovery
  | debugHalt
  | debugResume
  -- memory and security (R348 to R369)
  | debugCertificate (bytes : List Byte)
  | extest
  | intest
  | bypass
  | idcode
  | samplePreload
  | scrubWord (mem : MemId) (inst : Fin 32) (find : ScrubFinding)
  | tamper (cause : TamperCause)
  | secureBankRebuild
  -- lifetime records, calendar and monitors (R370 to R388)
  | calendarSecond
  | lifetimeCommitEnd (ok : Bool)
  | historyWrite
  | wearClr (req : Requester) (v : Word)
  | temperatureSample (m : Fin 24) (reading : Int)
  | voltageSample (m : Fin 24) (reading : Int)
  | calibrationPass (region : Fin 4) (reading : Int)
  -- bank Z (R389 to R411)
  | ledgerSample (exc : Fin 8) (vz current : Nat) (limiting : Bool)
  | excCtrl (req : Requester) (v : Word)
  | zioCfgEn (req : Requester) (z : Fin 16) (v : Word)
  -- rows at the table's end
  | laneLockGained (port : Port)
  | vbatLoss
  | busMasterEnable
  | msixUnmask (vec : Option (Fin 32))
  | hostRingMemWrite (off : BitVec 21) (bytes : List Byte)
  | hCmdLatMaxRead
  | debugPortAccess (acc : DebugAccess)
  | illegalWord (pe : Fin 32)
deriving DecidableEq, Repr

end Sys2Proof
end

