-- ==== Sys2Proof/Decode.lean ====
section
/-!
DEFINITION. The command a table word spells. The command table gives its rows no bits, so no word spells one.
-/
namespace Sys2Proof

/-- The rows of spec/opcode_table.json carry no bits: no word of any width spells a command. -/
def decodeTableWord (_nbits _w : Nat) : Option Instr := none

end Sys2Proof
end

