-- ==== Sys2Proof/Machine/Bits.lean ====
section
/-!
DEFINITION. Bit fields of native words, and the modular comparison of line time (00_scope.md R5), which every rule
of the spec about instants uses.
-/
namespace Sys2Proof.Machine

/-- Field [hi:lo] of a word as a number. -/
def fld {n : Nat} (w : BitVec n) (hi lo : Nat) : Nat := (w.toNat >>> lo) % 2 ^ (hi - lo + 1)

/-- Bit `i` of a word. -/
def bit {n : Nat} (w : BitVec n) (i : Nat) : Bool := w.getLsbD i

/-- The word with field [hi:lo] replaced. -/
def setFld {n : Nat} (w : BitVec n) (hi lo v : Nat) : BitVec n :=
  let m : BitVec n := BitVec.ofNat n ((2 ^ (hi - lo + 1) - 1) <<< lo)
  (w &&& ~~~m) ||| (BitVec.ofNat n (v <<< lo) &&& m)

/-- A Boolean as a field of one bit at place `i`. -/
def bitAt (b : Bool) (i : Nat) : Nat := if b then 2 ^ i else 0

/-- A native word from a number, its low 24 bits. -/
def word (n : Nat) : Word := BitVec.ofNat 24 n

/-- The 24-bit two's complement of an integer. -/
def wordOfInt (i : Int) : Word := BitVec.ofInt 24 i

/-- R6: the low native word of a time. -/
def loWord (t : Time) : Word := t.extractLsb' 0 24

/-- R6: the high native word of a time. -/
def hiWord (t : Time) : Word := t.extractLsb' 24 24

/-- R6, R37: a time from its two native words. -/
def mkTime (hi lo : Word) : Time := hi ++ lo

/-- R5: `a` lies after `b`. -/
def after (a b : Time) : Bool := 1 ≤ (a - b).toNat && (a - b).toNat ≤ 2 ^ 47 - 1

/-- R5: `a` is `b` or lies after it. -/
def atOrAfter (a b : Time) : Bool := a == b || after a b

/-- R5: `a` lies before `b`; a difference of exactly 2^47 counts as lying in the past. -/
def before (a b : Time) : Bool := a != b && !after a b

/-- The later of two times in the sense of R5. -/
def laterOf (a b : Time) : Time := if after a b then a else b

/-- The whole tick of a pin-referred instant. -/
def tickPart (t : T16) : Time := t.extractLsb' 4 48

/-- The sixteenths of a pin-referred instant. -/
def fracPart (t : T16) : BitVec 4 := t.extractLsb' 0 4

/-- A pin-referred instant from its tick and sixteenths. -/
def mk16 (t : Time) (f : BitVec 4) : T16 := t ++ f

/-- An instant `n` whole ticks later. -/
def addTicks (t : T16) (n : Nat) : T16 := t + BitVec.ofNat 52 (16 * n)

/-- R5 over sixteenths: `a` lies after `b`. -/
def after16 (a b : T16) : Bool := 1 ≤ (a - b).toNat && (a - b).toNat ≤ 2 ^ 51 - 1

/-- R5 over sixteenths: `a` is `b` or lies after it. -/
def atOrAfter16 (a b : T16) : Bool := a == b || after16 a b

/-- R37: the angle word of a tooth index and a micro-tick. -/
def angleWord (idx micro : Nat) : Word := BitVec.ofNat 24 ((idx % 4096) * 4096 + micro % 4096)

/-- A saturating count in `bits` bits. -/
def satAdd (bits old inc : Nat) : Nat := min (2 ^ bits - 1) (old + inc)

end Sys2Proof.Machine
end

