-- ==== Sys2Proof/Machine/Flags.lean ====
section
/-!
DEFINITION. The arithmetic unit of the microengine and its flags (04_microengine.md R124).
-/
namespace Sys2Proof.Machine

/-- The flags Z, N, C and V. -/
structure AluFlags where
  z : Bool
  n : Bool
  c : Bool
  v : Bool
deriving DecidableEq, Repr

/-- R124: the defined ALU codes. -/
def aluDefined (op : Nat) : Bool :=
  decide (op ≤ 0x0D ∨ 0x10 ≤ op ∧ op ≤ 0x16 ∨ 0x18 ≤ op ∧ op ≤ 0x1A ∨ 0x1C ≤ op ∧ op ≤ 0x23)

/-- R124: signed saturation to 24 bits. -/
def satWord (x : Int) : Word := wordOfInt (max (-0x800000) (min 0x7FFFFF x))

/-- R124: leading zeros of a word, 0 to 24. -/
def leadingZeros (a : Word) : Nat := ((List.range 24).takeWhile (fun i => !bit a (23 - i))).length

/-- R124: the result of an op on sources A and B with the carry. -/
def aluResult (op : Nat) (a b : Word) (c : Bool) : Word :=
  let k := fld b 4 0
  match op with
  | 0x01 => a
  | 0x02 => a + b
  | 0x03 => a + b + word (bitAt c 0)
  | 0x04 => a - b
  | 0x05 => a - b - word (bitAt (!c) 0)
  | 0x06 => 0 - a
  | 0x07 => a - b
  | 0x08 => a &&& b
  | 0x09 => a ||| b
  | 0x0A => a ^^^ b
  | 0x0B => a &&& ~~~b
  | 0x0C => ~~~a
  | 0x0D => a &&& b
  | 0x10 => a <<< k
  | 0x11 => a >>> k
  | 0x12 => a.sshiftRight k
  | 0x13 => a.rotateLeft (k % 24)
  | 0x14 => a ||| word (2 ^ k)
  | 0x15 => a &&& ~~~(word (2 ^ k))
  | 0x16 => a
  | 0x18 => a * b
  | 0x19 => word ((a.toNat * b.toNat) / 2 ^ 24)
  | 0x1A => wordOfInt ((a.toInt * b.toInt) / 2 ^ 24)
  | 0x1C => if a.toInt ≤ b.toInt then a else b
  | 0x1D => if b.toInt ≤ a.toInt then a else b
  | 0x1E => if a.toNat ≤ b.toNat then a else b
  | 0x1F => if b.toNat ≤ a.toNat then a else b
  | 0x20 => satWord (if a.toInt < 0 then -a.toInt else a.toInt)
  | 0x21 => satWord (a.toInt + b.toInt)
  | 0x22 => satWord (a.toInt - b.toInt)
  | 0x23 => word (leadingZeros a)
  | _ => 0

/-- R124: the carry out of A + B with a carry in. -/
def addCarry (a b : Word) (c : Bool) : Bool := decide (2 ^ 24 ≤ a.toNat + b.toNat + bitAt c 0)

/-- R124: no borrow of A − B with a borrow in. -/
def noBorrow (a b : Word) (borrow : Bool) : Bool := decide (b.toNat + bitAt borrow 0 ≤ a.toNat)

/-- R124: signed overflow: the exact result differs from the word that holds it. -/
def overflows (exact : Int) : Bool := decide (exact < -0x800000 ∨ 0x7FFFFF < exact)

/-- R124: the flags after an op. NOP changes none; ADD, ADC, SUB, SBC and CMP set C and V; BTST takes Z from its bit. -/
def aluFlags (op : Nat) (a b : Word) (f : AluFlags) : AluFlags :=
  let r := aluResult op a b f.c
  let zn : AluFlags := { f with z := decide (r = 0), n := bit r 23 }
  match op with
  | 0x00 => f
  | 0x02 => { zn with c := addCarry a b false, v := overflows (a.toInt + b.toInt) }
  | 0x03 => { zn with c := addCarry a b f.c, v := overflows (a.toInt + b.toInt + bitAt f.c 0) }
  | 0x04 => { zn with c := noBorrow a b false, v := overflows (a.toInt - b.toInt) }
  | 0x05 => { zn with c := noBorrow a b (!f.c), v := overflows (a.toInt - b.toInt - bitAt (!f.c) 0) }
  | 0x07 => { zn with c := noBorrow a b false, v := overflows (a.toInt - b.toInt) }
  | 0x16 => { zn with z := !bit a (fld b 4 0) }
  | _ => zn

end Sys2Proof.Machine
end

