-- ==== Sys2Proof/Config.lean ====
section
/-!
DEFINITION. What one device fixes (its grade, serial number, firmware) and the free values: constants without a body
for what the spec leaves open. No proof can see a value of an opaque constant (log entries 6, 9, 19 to 22).
-/
namespace Sys2Proof.Config

/-- R1: the device is a CLD5120-EB; else a CLD5120-IB. Either grade is allowed (log entry 9). -/
opaque gradeEB : Bool

/-- R277, H_SERIAL: the unique device number (log entry 9). -/
opaque serial : BitVec 64

/-- R277, H_FW_VERSION: the Ulueth version (log entry 9). -/
opaque fwVersion : BitVec 32

/-- R140, R144: the Ronarna microcode that an image of a firmware version and a patch level writes to words 0x000 to 0xBFF,
with the replacement words of the patch (log entry 6). -/
opaque microcode : BitVec 32 → BitVec 16 → Nat → BitVec 128

/-- R144: the trap pairs, address and target, of a firmware version and a patch level (log entry 6). -/
opaque patchTraps : BitVec 32 → BitVec 16 → List (BitVec 12 × BitVec 12)

/-- A value the spec leaves open, one for each count of the model's free-value counter (log entry 15). -/
opaque freeValue : Nat → BitVec 128

/-- R174: whether the count of a sine and cosine sample is the one above its exact floor, which the one count that the rule
allows covers (log entry 19). -/
opaque sincosUp : Int → Int → Nat → Bool

/-- R174: the count of a sample whose corrected codes are both 0, which has no angle (log entry 19). -/
opaque sincosOrigin : Nat → Nat

/-- R257: the rate in 0.01 ppm that the discipline chooses from a measured offset (log entry 20). -/
opaque disciplineRate : Int → Int → Int

/-- R357, R359, R361, R366: whether an image or certificate authenticates under the device's keys (log entry 21). -/
opaque authentic : List (BitVec 8) → BitVec 384 → Bool

/-- R355: the key that authenticates firmware images and Ronarna-signed certificates, by its digest (log entry 21). -/
opaque rootKey : BitVec 384

/-- R359: whether a firmware image decrypts under the image key and its tag checks (log entry 21). -/
opaque decrypts : List (BitVec 8) → Bool

/-- R367: the version and manufacturer fields of IDCODE (log entry 18). -/
opaque idcodeRest : BitVec 15

/-- R380: the tail of a lifetime export under the export key of a rebuild: public key and signature bytes (log entry 21). -/
opaque exportTail : Nat → List (BitVec 8) → List (BitVec 8)

/-- R361, R355: the SHA-384 digest of bytes (log entry 21). -/
opaque sha384 : List (BitVec 8) → BitVec 384

end Sys2Proof.Config
end

