-- ==== Sys2Proof/Machine/Types.lean ====
section
/-!
DEFINITION. The plain-data types that State is made of, first part: memories, requesters' held words, records and
rings (10_mailbox_interface.md), the fault collector (11_faults_and_recovery.md), cells and angle events
(03_timer_cells_and_events.md), trackers and angle domains (02_angle_domains.md).
-/
namespace Sys2Proof.Machine

/-- A memory: (address, word) pairs, addresses strictly rising, no pair equal to what an unlisted address reads as. -/
abbrev Mem (w : Nat) := List (Nat × BitVec w)

/-- An event record before it takes its ring sequence number (R285). -/
structure Rec where
  typ : Byte
  src : BitVec 16
  ts : Time
  a : Word
  b : Word
deriving DecidableEq, Repr

/-- A record that the ring arbiter has placed and that is not yet posted (R19): its event ring, the tick it was
committed in, and its place among records of one tick. -/
structure Placed where
  ring : Fin 16
  tick : Nat
  tier : Nat
  body : Rec
deriving DecidableEq, Repr

/-- What the device has put on the host's bus: DMA writes, interrupt messages and read data (R272, R284, R289, R274). -/
inductive BusMsg where
  | write (addr : BitVec 64) (bytes : List Byte)
  | msix (vec : Fin 32)
  | readData (bytes : List Byte)
  | status (sticky : Byte)
  | unsupportedRequest
  | completerAbort
deriving DecidableEq, Repr

/-- A class H write that may still land in the tick of its boundary (R11): the parameter, the shadow before the
write, and the tick after its commit, in which it reaches the shadow. -/
structure HWrite where
  pa : Nat
  old : Word
  tick : Nat
deriving DecidableEq, Repr

/-- What the device has set in a parameter in a tick (R15): the value before, and the bits set and counts added in it. -/
structure Fresh where
  pa : Nat
  tick : Nat
  old : Word
  add : Word
deriving DecidableEq, Repr

/-- A word captured for a requester, returned by its next read of that parameter (R32, R48, R80, R181, R237). -/
structure Held where
  who : Requester
  pa : Nat
  val : Word
deriving DecidableEq, Repr

/-- A domain snapshot held for a requester (R47). -/
structure DomSnap where
  who : Requester
  tick : Nat
  t : Time
  st0 : Word
  st1 : Word
  angles : Vector Word 16
  cycles : Vector Word 16
deriving DecidableEq, Repr

/-- The clock tree (R24 to R27): which PLL is active, lock of each side, holdover, reference, and CLK_LOSS. -/
structure Clock where
  pll1Active : Bool
  activeLock : Bool
  standbyLock : Bool
  holdover : Bool
  refOk : Bool
  coreLost : Bool
deriving DecidableEq, Repr

/-! ### The host interface -/

/-- READ_BLOCK or WRITE_BLOCK under way (R293, R296): its entry, the words moved, the bytes still to write, and the bytes
read. -/
structure BulkMove where
  writes : Bool
  entry : Entry
  moved : Nat
  left : List Byte
  taken : List Byte
deriving DecidableEq, Repr

/-- A submission ring (R281, R283, R288, R293, R296): the doorbell's TAIL, HEAD, the completion latch DONE with the bulk
command under way, ERROR, a disable still waiting for the ring to be idle, entries dispatched and not yet applied, the
WAIT_UNTIL that holds the ring back, a failed entry fetch that is not yet completed, commands that waited, the tick its status
slot was last written in, and whether the slot is behind. -/
structure SubRing where
  tail : BitVec 16
  head : BitVec 16
  done : BitVec 16
  error : Bool
  disabling : Bool
  fetched : List (Byte × Entry)
  waitFor : Option (Time × Entry)
  bulk : Option BulkMove
  fetchFail : Bool
  parked : List Instr
  slotAt : Option Nat
  slotDue : Bool
deriving DecidableEq, Repr

/-- An event ring (R284, R287 to R289): counts, the sequence of the next record, the spill buffer with each record's
sequence number, drops not yet reported, the discards of a disabled ring, interrupt moderation, and a disable that takes effect in the
next tick. -/
structure EvtRing where
  tail : BitVec 32
  head : BitVec 32
  seq : Byte
  spill : List (Byte × Rec)
  dropped : Nat
  firstDropped : Byte
  disc : BitVec 16
  irqTail : BitVec 32
  sinceIrq : Nat
  oldest : Option Nat
  sumBit : Option (BitVec 32)
  disabling : Bool
deriving DecidableEq, Repr

/-- An entry of the violation log (R298). -/
structure Viol where
  addr : Word32
  info : Word32
  t : Time
deriving DecidableEq, Repr

/-- The transport HOST_SEL chose (R271). -/
inductive Transport where
  | pcie | spi
deriving DecidableEq, Repr

/-- The host interface (R271 to R298): transport, bus mastering, MSI-X masks and pending bits, the plain stored host
registers, sticky SPI bits, session and watchdog, whether no session has been opened since HOST_TIMEOUT (R311), the doorbells whose entries are not done (R294), counts, the violation
log. -/
structure HostIf where
  transport : Transport
  busMaster : Bool
  msixFnMask : Bool
  msixMask : BitVec 32
  msixPend : BitVec 32
  hregs : Mem 32
  hostCtrl : Word32
  heartbeat : Word32
  irqStat : Word32
  sqErr : BitVec 16
  dmaStat : Word32
  dmaErr : BitVec 64
  ltHeld : Option (BitVec 16)
  spiSticky : Byte
  sessionOpen : Bool
  session : Word
  watchdogMs : BitVec 16
  watchdogFrom : Nat
  hostLost : Bool
  vlog : List Viol
  vlogLost : Byte
  supRestarts : BitVec 16
  cmdLatMax : Word
  bells : Vector (List (BitVec 16 × Nat)) 16
  cmdCount : Word32
  recCount : Word32
  bus : List BusMsg
  subs : Vector SubRing 16
  evts : Vector EvtRing 16
  arb : List Placed
deriving DecidableEq, Repr

/-- Why the supervisor is out of service (R319). -/
inductive SupCause where
  | divergence | ramError
deriving DecidableEq, Repr

/-- The supervisor (R297, R319): out of service since a tick for a cause, the tick its latest restart began, or halted
(R345). -/
structure Supervisor where
  out : Option (Nat × SupCause)
  restart : Nat
  halted : Bool
deriving DecidableEq, Repr

/-! ### The fault collector -/

/-- A held open-fault slot (R301 to R303): its DETECTED record with the ring sequence it was posted under, and when it
was acknowledged, closed and latched. -/
structure OpenFault where
  cls : Byte
  home : Scope
  applied : Scope
  level : Nat
  escalated : Bool
  acked : Option Time
  closed : Option Time
  latched : Option Time
  seq : Byte
  body : Rec
deriving DecidableEq, Repr

/-- A scope in fault state (R304, R311, R313): its reaction tick, the tick its quiet period counts from, its latch, and
whether an active condition held when it was last looked at. -/
structure ScopeState where
  scope : Scope
  since : Nat
  quietFrom : Nat
  latched : Bool
  active : Bool
deriving DecidableEq, Repr

/-- A reaction window (R310): the applied scope, the slot of its fault, the level, and its last tick. -/
structure Window where
  scope : Scope
  slot : Nat
  level : Nat
  det : Nat
  last : Nat
deriving DecidableEq, Repr

/-- A detection that a unit has reported and the collector takes in the same step (R301). -/
structure Report where
  cls : Byte
  home : Scope
  detail : Word
  masked : Bool
  tick : Nat
  t : Time
deriving DecidableEq, Repr

/-- The fault collector (R301 to R317), with the scopes that have left their fault state in the present tick (R312), and the chip in the tick of its transition into RUN (R342). -/
structure Collector where
  slots : Vector (Option OpenFault) 64
  scopes : List ScopeState
  windows : List Window
  exits : List (Scope × Nat)
  reports : List Report
  seq : Byte
  lostSince : Nat
  pin : Bool
  pinUntil : Nat
  pinReleased : Bool
  safeReqLow : Bool
  leaving : List Scope
deriving DecidableEq, Repr

/-! ### Cells and angle events -/

/-- What an edge does to the output latch (R82, R94). -/
inductive EdgeAct where
  | none | set | clear | toggle | convert | dispatch (routine : BitVec 8)
deriving DecidableEq, Repr

/-- Who loaded a compare (R85, R86, R89, R101, R189). -/
inductive CmpOwner where
  | param | timedSingle | timedRise | timedFall | channel | routine | angle
deriving DecidableEq, Repr

/-- A compare unit of a cell (R86): the committed value and trim, the edge it will place, and who loaded it. -/
structure Compare where
  value : Time
  trim : BitVec 4
  armed : Bool
  edge : T16
  act : Option EdgeAct
  owner : CmpOwner
  past : Bool
  collide : Bool
  started : Bool
deriving DecidableEq, Repr

/-- A capture: the pin-referred instant and whether it was a rising edge (R92). -/
structure Capture where
  t : T16
  rise : Bool
deriving DecidableEq, Repr

/-- How an armed occurrence still belongs to its entry: as armed, with the entry's words replaced since (R108), or with
the entry freed (R107, R109). -/
inductive OccLink where
  | live | replaced | orphan
deriving DecidableEq, Repr

/-- An armed occurrence in a cell's angle queue (R101), with the words it was armed from. A start or end is matched 2 ticks
before its edge appears (R86); it has fired once the edge has appeared. -/
structure Occ where
  handle : BitVec 12
  pulse : Bool
  act : EdgeAct
  cycle : Word
  startAt : T16
  startFlags : Byte
  startOut : Bool
  startFired : Bool
  endAngle : Word
  endCycle : Word
  endAt : Option T16
  endFlags : Byte
  endOut : Bool
  startLoad : Time
  endLoad : Time
  link : OccLink
deriving DecidableEq, Repr

/-- What an edge that a cell has matched belongs to: a compare in COMPARE or MICROCODE mode with the action it had, whether
it met the other compare (R87) and was stretched; a start or an end of an angle occurrence (R101); a PWM edge (R151 to
R154); or a change of the latch by FORCE or a routine (R82, R127). -/
inductive OutNote where
  | compare (u : CmpUnit) (v : Compare) (a : EdgeAct) (collide stretched : Bool)
  | start (o : Occ)
  | finish (o : Occ)
  | pwm
  | latch
deriving DecidableEq, Repr

/-- An edge on its way through the output pipeline (R86): its cell, the instant it takes at the ball, the level of the
latch from then on, and whether that is a change. -/
structure OutEdge where
  cell : Fin 512
  at_ : T16
  level : Bool
  change : Bool
  note : OutNote
deriving DecidableEq, Repr

/-- A cell (03_timer_cells_and_events.md): the output latch as the ball has it, the instant of the last edge that appeared
(in sixteenths of the tick count), the compares, capture FIFO and the entry each requester popped, angle queue and the
last instant placed from it, measurement, the level the device drove in the last tick and the instant of the last driven
edge, a standing readback mismatch with the driven level and the driven edge it was found at (R91), the tick of the last
match and of the last write grant of the update port, with the place of its requester in the precedence (R17), the last record timestamp of microcode (R129), a reload still
owed after a fault exit (R163), and the PWM working values with the edges still to come (R151 to R154). -/
structure Cell where
  latch : Bool
  edgeAt : Option Nat
  cmpA : Compare
  cmpB : Compare
  fifo : List Capture
  popped : List (Requester × Capture)
  queue : List Occ
  queueLast : Option T16
  measRise : Option T16
  measFall : Option T16
  drv : Option Bool
  drvAt : Option Nat
  rbAt : Option (Bool × Option Nat)
  matchTick : Option Nat
  grantTick : Option (Nat × Nat)
  lastUser : Option Time
  pwmWait : Option Nat
  pwmIdeal : Bool
  pwmRise : Word
  pwmFall : Word
  pwmTrims : Byte
  pwmEdges : List (Nat × Bool)
deriving DecidableEq, Repr

/-- A used entry of an arm table (R94): the four written words, completed occurrences (DONE), those completed under the
present words (R96, R108), and the runs of cycles whose occurrence is not served again (R97), latest first. -/
structure ArmEntry where
  w0 : Word
  w1 : Word
  w2 : Word
  w3 : Word
  doneCnt : BitVec 22
  since : Nat
  served : List (Word × Word)
deriving DecidableEq, Repr

/-! ### Trackers and domains -/

/-- The sync states (R64). -/
inductive SyncState where
  | off | syncing | synced | suspect | lost | stopped
deriving DecidableEq, Repr

/-- How a tooth came about (R53, R54, R57), generated teeth among them (R74); `change` is a state change or an angle of a
channel without a tooth. -/
inductive ToothKind where
  | real | synthetic | gap | generated | change
deriving DecidableEq, Repr

/-- A tooth the tracker side has decided and the leaves do not hold yet (R52, R62, R75, R77), with the state the leaves
take, the state change it makes, and the angle its record gives where that is not the tooth's. -/
structure Tooth where
  kind : ToothKind
  pin : Time
  idx : BitVec 12
  period : Word
  upd : Time
  state : SyncState
  causes : List (SyncState × Byte)
  gapOk : Bool
  noise : Nat
  clamp : Option Nat
  jump : Option Nat
  cycle : Option Word
  micro : Option (BitVec 12)
  ang : Option Word
  rev : Option Nat
deriving DecidableEq, Repr

/-- A reference gap of kind MISSING that is pending (R57): the pin time it is counted from, gap teeth inserted, and
whether its ending edge is checked. -/
structure GapPend where
  tr : Time
  inserted : Nat
  checked : Bool
deriving DecidableEq, Repr

/-- What a tracker has seen and its domain takes in 8 ticks before the update tick (R52, R78): an edge by its pin time, a miss
deadline that has passed (R54), a gap tooth that is due (R57). -/
inductive Intake where
  | edge (t : Time)
  | miss (t : Time)
  | gap (t : Time)
deriving DecidableEq, Repr

/-- What an Electrum-sourced domain takes in 8 ticks before the update tick (R78, R253): a copy of frame `n` that is valid for
it, with its slot, FRESH, DIR and the tick of its last CRC byte, or the tick in which both copies have arrived or been
missed. -/
inductive RmtIn where
  | copy (n : Nat) (v : BitVec 80) (fresh dir : Bool) (t : Time)
  | close (n : Nat) (t : Time)
deriving DecidableEq, Repr

/-- A frame as an Electrum-sourced domain follows it (R253): a copy applied or the frame closed, whether a copy was valid, the
carry-over copy that waits, and whether both copies have come. -/
structure RmtFrame where
  n : Nat
  done : Bool
  valid : Bool
  carry : Option (BitVec 80)
  closed : Bool
deriving DecidableEq, Repr

/-- A domain: the tracker side (what has been decided), the leaf side (what every leaf holds, R50, R62), and the
parts of the other sources (R71 to R74, R253). -/
structure Dom where
  st : SyncState
  before : SyncState
  lastT : Option Time
  base : Bool
  period : Word
  idx : BitVec 12
  started : Bool
  afterStop : Bool
  gap : Option GapPend
  gapSeen : Bool
  gapForce : Bool
  rev : Option Nat
  standFloor : Option Time
  standPast : Bool
  intake : List Intake
  noise : Nat
  synthLast : Bool
  misplaced : Bool
  cntSync : Nat
  cntRec : Nat
  flight : List Tooth
  leafSt : SyncState
  leafIdx : BitVec 12
  leafPin : Time
  leafPeriod : Word
  leafMicro : Option (BitVec 12)
  leafCycle : Word
  jumpTick : Option Nat
  updTick : Option Nat
  chHigh : Option Int
  chHold : Bool
  chExt : Int
  vgNext : Option Time
  vgStop : Option Time
  vgInterval : Nat
  vgStarted : Bool
  rmtFound : Bool
  rmtFrames : Nat
  rmtMissed : Nat
  rmtIn : List RmtIn
  rmtAccs : List RmtFrame
  rmtLast : Option (BitVec 12 × BitVec 32)
  rmtSt : Option SyncState
  rmtCyc : Word
  rmtHold : Bool
  arm : List (BitVec 8 × ArmEntry)
deriving DecidableEq, Repr

/-- A tooth tracker (R48): the last edge taken in. -/
structure Tracker where
  lastEdge : Time
deriving DecidableEq, Repr

/-! ### PWM carriers -/

/-- A carrier (05_pwm_and_trips.md): whether it counts, the tick of its present period start and of the next, an ALIGN
start that is waited for, the trip latch and what set it, a resume that is waited for and the tick its clear was examined,
UPDLOCK as it was in the tick of its latest change, the count that a stop or a HALT keeps, and the trigger compares still to
come. -/
structure CarrierSt where
  running : Bool
  start : Option Nat
  next : Option Nat
  wait : Bool
  trip : Bool
  tripKind : BitVec 4
  tripCnt : Byte
  resumeWait : Bool
  clearTick : Nat
  lockPrev : Bool
  lockAt : Option Nat
  frozen : Option Nat
  ctrigs : List (Nat × Fin 4)
deriving DecidableEq, Repr

/-! ### Block sequencers -/

/-- A pending request (R113, R117, R118): its argument, customer entry where it names one, abandon count, place in
the order of promotion, the host command that waits for it, the tick it was raised in (R116), and whether it arrived while
SEQ_CTRL.CUST_EN was 0 (R114). -/
structure Request where
  arg : Word
  entry : BitVec 6
  abandons : Nat
  promoted : Option Nat
  host : Option Entry
  at_ : Nat
  refused : Bool
deriving DecidableEq, Repr

/-- An effect held in the commit buffer (R132): a cell write, a store, alias, block-parameter write or Pewter op, or a
record. -/
inductive Effect where
  | cell (op : BitVec 5) (cell : Fin 16) (data : Word)
  | pramStore (a : Nat) (data : Word)
  | pramSet (a : Nat) (data : Word)
  | pramClear (a : Nat) (data : Word)
  | regionStore (a : Nat) (data : Word)
  | blockParam (off : Nat) (data : Word)
  | pePop
  | pePush (data : Word)
  | record (typ : Byte) (cell : Fin 16) (ring : Fin 16) (a b : Word) (at_ : Option Time)
deriving DecidableEq, Repr

/-- Where a routine stands (R116, R117, R132, R134): its words, waiting for its commit tick with its end already
reached or not, or its tail. -/
inductive Phase where
  | body
  | commitDue (ends : Bool)
  | tail (words : Nat)
deriving DecidableEq, Repr

/-- The routine a block runs (R116, R121, R125). `waits` is set while a region-RAM load waits for its bank. -/
structure Routine where
  src : Fin 20
  level : Nat
  req : Request
  own : BitVec 16
  pc : BitVec 12
  readyAt : Nat
  firstAt : Nat
  phase : Phase
  again : Bool
  waits : Bool
  u : Vector Word 16
  lc : Word
  mdr : Word
  crd : Word
  tacc : Time
  tres : Word
  tfrac : BitVec 4
  angle : Word
  period : Word
  cycle : Word
  toothT : Time
  z : Bool
  n : Bool
  c : Bool
  v : Bool
  tpast : Bool
  tfut : Bool
  memFwd : Bool
  stack : List (BitVec 12)
  buf : List Effect
deriving DecidableEq, Repr

/-- A block sequencer (R113 to R119, R144). -/
structure Block where
  queues : Vector (List Request) 20
  lastServed : Vector (Fin 20) 4
  promoCount : Nat
  run : Option Routine
  freeAt : Nat
  timerNext : Option Nat
  timerCount : Word
  timerPeriod : Word
  voting : BitVec 3
  rebuildEnd : Option Nat
  rebuildCnt : Byte
  traps : List (BitVec 12 × BitVec 12)
deriving DecidableEq, Repr

/-! ### Position channels -/

/-- A count event or a checked item on its way to the channel state (R177, R185): signed amount, pin-referred instant, update
tick, the index event it also is at a gap end of PULSE_REF (R173), the item it is with its cause where it is bad, and whether
it passes the tracking limit (R175). -/
structure CountEvt where
  amount : Int
  t : T16
  upd : Time
  index : Bool
  item : Option (Option Nat)
  track : Bool
deriving DecidableEq, Repr

/-- SPEED and its flags as a reading shows them (R182 to R184). -/
structure SpeedView where
  speed : Word
  valid : Bool
  standstill : Bool
  reversed : Bool
deriving DecidableEq, Repr

/-- A position channel (R169 to R192). `spd` is the speed as computed, `spdShown` the one that reads, and `spdQueue` those that
will show, with their ticks (R177); `spdFloor` is the earliest tick of a standstill deadline that a write moved, and `stand` a
deadline that has passed while count events before it can still arrive (R183); `base` is the last tick whose edges make no
count event (R186, R192); `recent`, `abLog` and `zLog` hold the count events, the A/B states before the changes, and the edges of Z
of the last ticks, for an index event that comes with a longer path (R179). -/
structure Channel where
  pos : BitVec 48
  posValid : Bool
  posT : Time
  ab : BitVec 2
  abLog : List (T16 × BitVec 2)
  zLog : List (T16 × Bool)
  base : Option Time
  lastPulse : Option T16
  prevIval : Option Nat
  flight : List CountEvt
  recent : List (T16 × Int)
  acc : Int
  speedRef : Option (T16 × Int)
  lastSign : Int
  lastCount : Option Time
  spd : SpeedView
  spdShown : SpeedView
  spdQueue : List (Time × SpeedView)
  spdFloor : Option Time
  stand : Option Time
  fault : Bool
  items : List Bool
  phiPrev : Option Int
  serPrev : Option (BitVec 47)
  serWord0 : Option Word
  serLatch : Option T16
  idxPos : BitVec 48
  idxT : Time
  pcmp : BitVec 48
  pcmpArmed : Bool
  eacc : Int
  emuQueue : List (T16 × Time × Bool)
  emuLast : Option T16
  emuA : Bool
  emuB : Bool
  raw : Word
deriving DecidableEq, Repr

/-! ### Converters and comparators -/

/-- A conversion on its way to its result (R220 to R222): sample tick and instant, the inputs ADC_CFG selected then, and the
trigger it came from: entry, trigger count and ring, LATE and JUMP. -/
structure Sample where
  at_ : Nat
  t : Time
  cfg : Word
  src : Option (Fin 64 × BitVec 18 × Fin 16)
  late : Bool
  jump : Bool
deriving DecidableEq, Repr

/-- A converter (R219 to R223). -/
structure Converter where
  freeAt : Nat
  flight : List Sample
  last : Word
  lastT : Time
  index : BitVec 12
  wraps : BitVec 12
deriving DecidableEq, Repr

/-- A pending trigger of an ADC sequencer (R228): entry, trigger instant as a tick, JUMP. -/
structure Trigger where
  entry : Fin 64
  at_ : Nat
  jump : Bool
deriving DecidableEq, Repr

/-- An ADC sequencer (R224 to R229): pending triggers, trigger counts, the target cycle of each ANGLE entry, the last
entry sampled, and a hold after ADC_SEQ_FAULT (R305). -/
structure Sequencer where
  pend : List Trigger
  counts : Vector (BitVec 18) 64
  target : Vector Word 64
  lastEntry : Fin 64
  lastT : Time
  held : Bool
deriving DecidableEq, Repr

/-- The zones of a window comparator (R230), coded as R236 gives. -/
inductive Zone where
  | inside | above | below
deriving DecidableEq, Repr

/-- A threshold that a write has moved and that still settles (R235): the least and the greatest code it can stand for and
the tick it has settled in. -/
structure Moving where
  least : Nat
  most : Nat
  until_ : Nat
deriving DecidableEq, Repr

/-- A window comparator (R230 to R236): the side of each hysteresis band, the settling of each threshold, filtered zone,
filter samples (newest first), UNRESOLVED, the tick settling ends until SETTLING_END and the tick it ended after it, the trip output
and the tick of its last rise. -/
structure Comparator where
  hiSide : Bool
  loSide : Bool
  hiMove : Option Moving
  loMove : Option Moving
  zone : Zone
  samples : List Zone
  unresolved : Bool
  settleEnd : Option Nat
  settled : Nat
  trip : Bool
  tripT : Time
deriving DecidableEq, Repr

/-! ### Lifetime store, calendar, monitors -/

/-- What a lifetime commit writes to a slot (R376): its number and its snapshot of counters and bindings. -/
structure CommitImg where
  n : Word32
  wear : Vector (BitVec 48) 256
  binds : Vector (BitVec 12) 256
  duty : Vector (BitVec 48) 64
deriving DecidableEq, Repr

/-- A fault-history entry (R379): the 32-byte format of R303 and its tag. -/
structure HistEntry where
  body : Rec
  seq : Byte
  acked : Option Time
  closed : Option Time
  latched : Option Time
  exits : Byte
  boot : Word32
  cal : BitVec 48
  calValid : Bool
deriving DecidableEq, Repr

/-- Calendar, counters and the lifetime store (R370 to R380). `secTick` is the tick in which the calendar fraction was
last 0, `setTick` the tick of the last SET_CALENDAR. -/
structure Life where
  cal : BitVec 48
  secTick : Nat
  setTick : Option Nat
  calValid : Bool
  trim : BitVec 9
  wear : Vector (BitVec 48) 256
  binds : Vector (BitVec 12) 256
  duty : Vector (BitVec 48) 64
  slotA : Option CommitImg
  slotB : Option CommitImg
  lastN : Word32
  valid : Bool
  empty : Bool
  torn : Bool
  writing : Option CommitImg
  writeTick : Nat
  writeIsPowerFail : Bool
  requested : Bool
  hist : List HistEntry
  histQueue : List HistEntry
  histLost : Byte
  rebootAfter : Bool
deriving DecidableEq, Repr

/-- A threshold pair of a monitor (R382): runs of samples beyond its low and high value and inside it by the
hysteresis, and whether it is crossed. -/
structure Thresh where
  loRun : Nat
  hiRun : Nat
  backRun : Nat
  crossed : Bool
deriving DecidableEq, Repr

/-- A monitor (R381, R382, R388). -/
structure Monitor where
  last : Word
  warn : Thresh
  crit : Thresh
deriving DecidableEq, Repr

/-! ### Pewter engines -/

/-- An edge of an engine's input: its direction and the tick in which the engine first sees it (R201). -/
structure InSeen where
  rise : Bool
  at_ : Nat
deriving DecidableEq, Repr

/-- A Pewter engine (R199 to R214): the state of R202, a pending injection with the tick of its write (R211), the divider
of R200, its FIFOs with the newest word last and the receive FIFO's words with the tick of their push, the output bits, the
ones on their way to the balls with the tick they appear and the ones that have appeared (R201), the tick from which a WAIT
has been tried, the recent edges of each input, the oldest first, and the LUT state. -/
structure Pewter where
  pc : BitVec 6
  ir : Option PewterWord
  irInj : Bool
  x : Word
  y : Word
  isr : Word
  osr : Word
  isc : Nat
  osc : Nat
  lastTx : Word
  hold : Nat
  holds : Vector (BitVec 6) 4
  framePush : Bool
  framePull : Bool
  inj : Option (Nat × PewterWord)
  acc : Nat
  nextStep : Option Nat
  rx : List (Nat × Word)
  tx : List Word
  out : BitVec 16
  outs : List (Nat × BitVec 16)
  ball : BitVec 16
  waitFrom : Option Nat
  seen : Vector (List InSeen) 4
  lut : BitVec 4
deriving DecidableEq, Repr

/-! ### Electrum link -/

/-- The states of a port (R245). -/
inductive PortState where
  | down | training | up | looping
deriving DecidableEq, Repr

/-- A port (R245, R256, R257, R263, R265): state, lane lock, valid frames in a row while training, CRC outcomes of the
last 16 frames (true a failure), missed frames in a row, the byte 2 offset of the previous frame in sixteenths, the latest
`m` and REV in sixteenths, the neighbour, the ticks of the last non-looped frames by DIR, the last frame number that
arrived or was missed, and whether crossed cabling holds the port DOWN. -/
structure ElcPort where
  st : PortState
  locked : Bool
  validRun : Nat
  crcRun : List Bool
  missRun : Nat
  offset : Option Int
  m : Option Int
  rev : Option Int
  neighbour : BitVec 5
  lastDir1 : Option Nat
  lastDir0 : Option Nat
  frameNo : Option Nat
  crossed : Bool
deriving DecidableEq, Repr

/-- A frame the node sends: its port, the instant byte 2 leaves the balls, and its 250 bytes (R246, R247). -/
structure SentFrame where
  port : Port
  at_ : T16
  bytes : List Byte
deriving DecidableEq, Repr

/-- A received mailbox message (R267): data, SEQ, owner, VALID. -/
structure MboxMsg where
  data : BitVec 48
  seq : Byte
  owner : BitVec 5
  valid : Bool
deriving DecidableEq, Repr

/-- The role of a node (R261). -/
inductive ElcRole where
  | member | master | backup
deriving DecidableEq, Repr

/-- The Electrum link of the node (R244 to R268): the ports; role, the master followed, whether a frame was accepted, the
number of the last accepted or originated frame and the tick the silence of R261 counts from; MASTER, BACKUP, CENSUS and
FAULT of the last valid frame; alignment; slots, mailbox and tags last seen, with the frame of each slot's last fresh
copy and the mailbox slots as originated; received and sent messages; domain samples of recent frames; frames sent. -/
structure Electrum where
  ports : Vector ElcPort 2
  role : ElcRole
  heard : Bool
  master : BitVec 5
  frameNo : Nat
  quietFrom : Option Nat
  named : BitVec 5
  backup : Option (BitVec 5)
  census : BitVec 32
  faultRx : Bool
  loopAge : Nat
  conflict : Bool
  joined : Bool
  aligned : Bool
  inRun : Nat
  outRun : Nat
  theta : Int
  parent : Option Port
  slots : Vector (BitVec 80) 16
  slotFrame : Vector Nat 16
  tags : Vector (BitVec 16) 16
  mbx : Vector (BitVec 64) 8
  mbxSent : Vector (BitVec 64) 8
  rx : Vector MboxMsg 8
  rxTaken : Vector (Option Byte) 8
  txNext : BitVec 48
  txMsg : Option (BitVec 48)
  txPending : Bool
  txSeq : Byte
  samples : List (Nat × Vector (BitVec 80) 16)
  sent : List SentFrame
deriving DecidableEq, Repr

/-! ### Boot, life cycle, security, boundary scan -/

/-- Where the boot flow stands (R334 to R338): its first five steps run, an image accepted and waiting for BOOT_DONE, a host image waited for, no
usable image, or stopped. -/
inductive BootFlow where
  | early
  | ready (img : ImageInfo)
  | waiting
  | failed
  | stopped
deriving DecidableEq, Repr

/-- The boot flow and its reports (R334 to R339): the tick of the last rise of PWR_OK, the flow, the boot report of
R337, H_BOOT_STAT, the image in use, what was found outside the device at the last rise of PWR_OK, the line time of a
loss of the core clock that the next boot enters in the fault history (R27), the steps that have not ended, each by the tick it
ends in and the phase that follows, and whether line time has started (R28). -/
structure Boot where
  rise : Nat
  flow : BootFlow
  phase : Byte
  result : Byte
  attempts : Byte
  hostWait : Bool
  fallback : Bool
  version : Word32
  patch : BitVec 16
  bootMs : BitVec 16
  source : Bool
  staged : Bool
  bistFail : Bool
  find : BootFind
  clkLost : Option Time
  steps : List (Nat × Byte)
  lineOn : Bool
deriving DecidableEq, Repr

/-- The life-cycle states (R356). -/
inductive LifeCycle where
  | blank | development | production | returned | decommissioned
deriving DecidableEq, Repr

/-- Staged firmware (R344): nothing, written and not verified, verified. -/
inductive StageState where
  | none | written | verified
deriving DecidableEq, Repr

/-- What an accepted ACTIVATE_FIRMWARE or ADVANCE_LIFECYCLE still has to do when its lifetime commit ends (R344,
R358). -/
inductive RebootJob where
  | firmware
  | lifecycle (target : LifeCycle) (keyHash : Option (BitVec 384))
deriving DecidableEq, Repr

/-- The JTAG instructions (R367). -/
inductive Jtag where
  | bypass | idcode | samplePreload | extest | intest
deriving DecidableEq, Repr

/-- Keys, life cycle and the secure bank (R355 to R366), staged firmware in the boot flash, boundary scan, the scrubbers'
places and the memories that have completed a pass (R354). `wipesOff` counts wipes without main power (R365). -/
structure Secure where
  lc : LifeCycle
  keyHash : Option (BitVec 384)
  rollback : Nat
  floor : Nat
  debugOk : Bool
  bankValid : Bool
  bankGen : BitVec 16
  rebuild : Bool
  wipesOff : Nat
  exportKey : Nat
  flash : Mem 8
  stage : StageState
  mark : Bool
  job : Option RebootJob
  jtag : Jtag
  bsr : BitVec 512
  jtagOut : List (BitVec 32)
  scrub : List (MemId × Nat × Nat)
  scrubDone : List (MemId × Nat)
deriving DecidableEq, Repr

/-! ### Bank Z -/

/-- An EXC output (R397, R398): on or off, the tick it was turned on, the ledger's samples of the last 1 ms in
femtojoules, newest first, and the samples in a row in which the limiter carried the output. -/
structure Exc where
  on : Bool
  since : Nat
  ledger : List Nat
  limRun : Nat
deriving DecidableEq, Repr

end Sys2Proof.Machine
end

