-- ==== Sys2Proof/Machine/ParamMap.lean ====
section
/-!
DEFINITION. The map of parameter space (01_architecture_and_timebase.md R43 to R46): where an address lies, and for
every parameter its class (R9), reset value (R14), and the bits of each field access code (R13), from the parameter
and field tables of the chapters.
-/
namespace Sys2Proof.Machine

/-- Which word of a parameter-RAM window an address reaches: directly or by an alias (R44). -/
inductive RamAlias where
  | direct | set | clear
deriving DecidableEq, Repr

/-- A place in parameter space (R43): the area, the instance, and the offset in it. -/
inductive PLoc where
  | chip (o : Nat)
  | cell (c : Fin 512) (o : Nat)
  | block (b : Fin 32) (o : Nat)
  | region (r : Fin 4) (o : Nat)
  | dom (d : Fin 16) (o : Nat)
  | chan (c : Fin 64) (o : Nat)
  | gang (r : Fin 4) (o : Nat)
  | pewter (p : Fin 32) (o : Nat)
  | adc (a : Fin 32) (o : Nat)
  | comp (w : Fin 64) (o : Nat)
  | seqr (r : Fin 4) (o : Nat)
  | link (o : Nat)
  | faults (o : Nat)
  | life (o : Nat)
  | monitor (o : Nat)
  | pram (b : Fin 32) (w : Nat) (k : RamAlias)
  | rram (r : Fin 4) (w : Nat)
deriving DecidableEq, Repr

/-- R9: static, shadowed, live. -/
inductive PClass where
  | s | h | l
deriving DecidableEq, Repr

/-- What the tables give of a parameter: class, reset value, and the masks of its RW, W1C, WO and RC bits (R13). -/
structure PInfo where
  cls : PClass
  reset : Word
  rw : Word
  w1c : Word
  wo : Word
  rc : Word
deriving DecidableEq, Repr

/-- A class S parameter with its RW bits. -/
def pS (reset rw : Nat) : Option PInfo := some ⟨.s, word reset, word rw, 0, 0, 0⟩

/-- A class H parameter with its RW bits. -/
def pH (reset rw : Nat) : Option PInfo := some ⟨.h, word reset, word rw, 0, 0, 0⟩

/-- A class L parameter with its RW, W1C, WO and RC bits. -/
def pL (reset rw w1c wo rc : Nat) : Option PInfo := some ⟨.l, word reset, word rw, word w1c, word wo, word rc⟩

/-- A read-only class L parameter. -/
def pRO (reset : Nat) : Option PInfo := pL reset 0 0 0 0

/-- A read-to-clear class L parameter. -/
def pRC (rc : Nat) : Option PInfo := pL 0 0 0 0 rc

/-- Chip control (R39 to R42, R46, R47, R368, R369, R401, R402). -/
def infoChip (o : Nat) : Option PInfo :=
  if o = 0x00 then pRO 0x512021
  else if o = 0x09 then pRC 0x00FFFF
  else if o ≤ 0x0C then pRO 0
  else if o < 0x20 then none
  else if o = 0x20 then pS 0 0x000007
  else if o = 0x21 then pL 0x000002 0x000002 0 0x000001 0
  else if o = 0x22 then pL 0 0 0x000010 0 0
  else if o ≤ 0x25 then pRO 0
  else if o ≤ 0x27 then pS 0 0xFFFFFF
  else if o = 0x28 then pRO 0
  else if o = 0x29 then pL 0 0 0x000001 0 0xFFFF00
  else if o = 0x2A then pRO 8
  else if o < 0x30 then none
  else if o ≤ 0x3F then pS 0 0x0007FF
  else if o ≤ 0x42 then pRO 0
  else if o = 0x43 then pS 0 0x000FFF
  else if o = 0x44 then pL 0 0 0x00001F 0 0
  else if o ≤ 0x47 then pRO 0
  else if o < 0x50 then none
  else if o = 0x50 then pL 0 0 0 1 0
  else if o ≤ 0x54 then pRO 0
  else if o < 0x60 then none
  else if o ≤ 0x7F then pRO 0
  else if o ≤ 0x8F then pS 0 0x00E1FF
  else if o ≤ 0x97 then pS 0x0003E8 0x0023FF
  else if o = 0x98 then pL 0 0x0000FF 0 0 0
  else if o = 0x99 then pL 0 0 0x00FFFF 0 0
  else if o ≤ 0x9C then pRO 0
  else if o < 0xA0 then none
  else if o ≤ 0xA7 then pRO 0
  else if o < 0xB0 then none
  else if o ≤ 0xD5 then pRO 0
  else none

/-- Cells (R81 to R83). -/
def infoCell (o : Nat) : Option PInfo :=
  match o with
  | 0x00 => pS 0 0x0000F7
  | 0x01 => pL 0 0x0000FB 0 0x000300 0
  | 0x02 => pL 0 0xFFFFFF 0 0 0
  | 0x03 => pL 0 0xFFFFFF 0 0 0
  | 0x04 => pL 0 0xFFFFFF 0 0 0
  | 0x05 => pL 0 0xFFFFFF 0 0 0
  | 0x06 => pRO 0
  | 0x07 => pRO 0
  | 0x08 => pL 0 0 0x1F0100 0 0
  | 0x09 => pL 0x008000 0xF1F000 0 0 0
  | 0x0A => pS 0x000002 0x000003
  | 0x0B => pL 0 0x0000FF 0 0 0
  | 0x0C => pS 0x0022FF 0x01FEFF
  | 0x0D => pS 0x100000 0xFF01FF
  | _ => none

/-- Blocks (R145, R146, R165, R166). -/
def infoBlock (o : Nat) : Option PInfo :=
  match o with
  | 0x00 => pL 0 0x000003 0 0 0
  | 0x01 => pS 0xAAAAAA 0xFFFFFF
  | 0x02 => pS 0x0087AA 0x00FFFF
  | 0x03 => pS 0 0x00FFFF
  | 0x04 => pH 0 0xFFFFFF
  | 0x05 => pS 0 0x00FFFF
  | 0x06 => pL 0 0 0x000F80 0 0
  | 0x07 => pRC 0xFFFFFF
  | 0x08 => pRO 0
  | 0x09 => pRC 0x0001FF
  | 0x0A => pRO 0
  | 0x0B => pRO 0
  | 0x0C => pL 0 0x000FA7 0 0x000018 0
  | 0x0D => pS 0 0xFFFFFF
  | 0x0E => pH 0x001000 0xFFFFFF
  | 0x0F => pRO 0
  | 0x10 => pL 0 0 0x1C0000 0 0
  | 0x11 => pH 0 0x00FFFF
  | 0x12 => pH 0xFFFFFF 0xFFFFFF
  | 0x13 => pH 0xFFFFFF 0xFFFFFF
  | 0x14 => pH 0xFFFFFF 0xFFFFFF
  | 0x15 => pH 0xFFFFFF 0xFFFFFF
  | 0x16 => pS 0 0x00FFFF
  | 0x17 => pS 0 0x1FFFFF
  | _ => none

/-- Regions (R48, R49). -/
def infoRegion (o : Nat) : Option PInfo :=
  if o = 0x00 then pRO 0
  else if o = 0x01 then pRC 0xFFFFFF
  else if o = 0x02 then pRC 0x00000F
  else if o = 0x03 then pL 0 0 0x800000 0 0
  else if o < 0x10 then pRO 0
  else if o ≤ 0x13 then pRC 0xFFFFFF
  else if o ≤ 0x25 then pRO 0
  else if o = 0x26 then pRC 0xFFFFFF
  else if o = 0x27 then pRC 0x00000F
  else if o ≤ 0x2F then pRC 0xFFFFFF
  else none

/-- Angle domains (R78 to R80). -/
def infoDom (o : Nat) : Option PInfo :=
  match o with
  | 0x00 => pL 0 0x000001 0 0x000002 0
  | 0x01 => pS 0 0xFF01FF
  | 0x02 => pS 0 0x000FFF
  | 0x03 => pS 0x000620 0x00FFF8
  | 0x04 => pS 0 0x000FFF
  | 0x05 => pS 0x000100 0x0003FF
  | 0x06 => pH 0x00000C 0x00000F
  | 0x07 => pH 0 0xFFFFFF
  | 0x08 => pH 0x00001C 0x00003F
  | 0x09 => pH 0 0xFFFFFF
  | 0x0A => pH 0x002008 0x00FFFF
  | 0x0B => pL 0x05F5E1 0xFFFFFF 0 0 0
  | 0x0C => pS 0x001003 0x01FFFF
  | 0x0D => pH 0 0x001FFF
  | 0x0E => pH 0x000040 0x000FFF
  | 0x0F => pH 0x000004 0x0000FF
  | 0x10 => pS 0x001000 0xFFFFFF
  | 0x11 => pS 0 0xFFFFFF
  | 0x12 => pS 0 0xFFFFFF
  | 0x13 => pS 0 0x0001FF
  | 0x14 => pH 0 0xFFFFFF
  | 0x15 => pL 0 0x000001 0 0 0
  | 0x16 => pL 0 0xFFFFFF 0 0 0
  | 0x17 => pH 0x000010 0x000FFF
  | 0x18 => pL 0 0x00007F 0 0 0
  | 0x19 => pL 0 0 0x001FF8 0 0
  | 0x1A => pRO 0
  | 0x1B => pRO 0
  | 0x1C => pRO 0
  | 0x1D => pRO 0
  | 0x1E => pRO 0
  | 0x1F => pRO 0
  | 0x20 => pRC 0xFFFFFF
  | 0x21 => pRC 0xFFFFFF
  | 0x22 => pRC 0xFFFFFF
  | 0x23 => pRC 0xFFFFFF
  | 0x24 => pRC 0xFFFFFF
  | 0x25 => pRC 0xFFFFFF
  | 0x26 => pRC 0xFFFFFF
  | 0x27 => pRC 0xFFFFFF
  | _ => none

/-- Position channels (R195 to R197). -/
def infoChan (o : Nat) : Option PInfo :=
  match o with
  | 0x00 => pL 0 0x00000F 0 0x000010 0
  | 0x01 => pS 0 0xFF000F
  | 0x02 => pS 0xFFFFFF 0xFFFFFF
  | 0x03 => pS 0 0x00003F
  | 0x04 => pS 0 0xFFFFFF
  | 0x05 => pS 0 0xFFFFFF
  | 0x06 => pS 0x000620 0x003FF8
  | 0x07 => pS 0x00000A 0x00030F
  | 0x08 => pH 0 0xFFFFFF
  | 0x09 => pS 0xE103E8 0xFFFFFF
  | 0x0A => pS 0x000084 0x0000FF
  | 0x0B => pS 0x801900 0xFFFF07
  | 0x0C => pS 0 0xFFFFFF
  | 0x0D => pL 0x05F5E1 0xFFFFFF 0 0 0
  | 0x0E => pL 0 0xFFFFFF 0 0 0
  | 0x0F => pL 0 0xFFFFFF 0 0 0
  | 0x10 => pH 0 0xFFFFFF
  | 0x11 => pS 0 0x01B07F
  | 0x12 => pS 0x00C004 0xFFFFFF
  | 0x13 => pRC 0xFFFFFF
  | 0x14 => pS 1 0xFFFFFF
  | 0x15 => pS 1 0xFFFFFF
  | 0x16 => pS 0x100000 0xFF3FFF
  | 0x17 => pL 0 0xFFFFFF 0 0 0
  | 0x18 => pL 0 0xFFFFFF 0 0 0
  | 0x19 => pRO 0
  | 0x1A => pL 0 0 0x00FF40 0 0
  | 0x1B => pRO 0
  | 0x1C => pRO 0
  | 0x1D => pRO 0
  | 0x1E => pRO 0
  | 0x1F => pRO 0
  | 0x20 => pRO 0
  | 0x21 => pRC 0xFFFFFF
  | 0x22 => pRC 0xFFFFFF
  | 0x23 => pRO 0
  | _ => none

/-- Gang PWM (R167, R168). -/
def infoGang (o : Nat) : Option PInfo :=
  match o with
  | 0x00 => pL 0 0x000FA7 0 0x000018 0
  | 0x01 => pH 0x001000 0xFFFFFF
  | 0x02 => pRO 0
  | 0x03 => pL 0 0 0x1D0000 0 0
  | 0x04 => pS 0 0x00FFFF
  | 0x05 => pS 0 0x1FFFFF
  | 0x06 => pH 0xFFFFFF 0xFFFFFF
  | 0x07 => pH 0xFFFFFF 0xFFFFFF
  | 0x08 => pH 0xFFFFFF 0xFFFFFF
  | 0x09 => pH 0xFFFFFF 0xFFFFFF
  | _ => if 0x10 ≤ o ∧ o ≤ 0x17 then pS 0 0x00FFFF else none

/-- Pewter engines (R216, R217). -/
def infoPewter (o : Nat) : Option PInfo :=
  match o with
  | 0x00 => pL 0 0x000001 0 0x000002 0
  | 0x01 => pS 0 0xFFFFF0
  | 0x02 => pS 0x00C600 0x0FFFC0
  | 0x03 => pS 0x1C3040 0xFFFFFF
  | 0x04 => pS 0x00FFFF 0x00FFFF
  | 0x05 => pS 0x00FFFF 0x00FFFF
  | 0x06 => pH 0x000100 0xFFFFFF
  | 0x07 => pH 0x000FC0 0x000FFF
  | 0x08 => pL 0 0 0 0x00FFFF 0
  | 0x09 => pL 0 0 0x0003E0 0 0
  | 0x0A => pRO 0
  | 0x0B => pRO 0
  | 0x0C => pRO 0
  | 0x0D => pRO 0
  | 0x0E => pRO 0x000018
  | 0x0F => pRO 0
  | 0x10 => pL 0 0 0 0xFFFFFF 0
  | 0x11 => pL 0 0x3FFFFF 0 0x800000 0
  | 0x12 => some ⟨.s, 0, word 0xFF00FF, 0, word 0x008000, 0⟩
  | 0x13 => pRC 0xFFFFFF
  | _ => none

/-- Converters (R237, R238). -/
def infoAdc (o : Nat) : Option PInfo :=
  match o with
  | 0x0 => pS 0x001F00 0x001F1F
  | 0x1 => pL 0 1 0 0 0
  | 0x2 => pRO 0
  | 0x3 => pRO 0
  | 0x4 => pRO 0
  | 0x5 => pS 0 0xF0FFFF
  | 0x6 => pRO 0
  | 0x7 => pL 0 0 0x00000E 0 0
  | _ => none

/-- Window comparators (R239, R240). -/
def infoComp (o : Nat) : Option PInfo :=
  match o with
  | 0x0 => pL 0 1 0 0 0
  | 0x1 => pS 0 0x001FE3
  | 0x2 => pL 0 0x0003FF 0 0 0
  | 0x3 => pL 0x0003FF 0x0003FF 0 0 0
  | 0x4 => pS 0 0xFF00FF
  | 0x5 => pL 0 0 0x000001 0 0
  | 0x6 => pL 0 0xF80000 0 0 0
  | 0x7 => pRO 0
  | 0x8 => pRO 0
  | 0x9 => pRC 0xFFFFFF
  | _ => none

/-- ADC sequencers (R241, R242). -/
def infoSeqr (o : Nat) : Option PInfo :=
  match o with
  | 0x0 => pL 0 1 0 0 0
  | 0x1 => pL 0 0x0001FF 0 0 0
  | 0x2 => pL 0 0xFFFFFF 0 0 0
  | 0x3 => pL 0 0 0 0x00003F 0
  | 0x4 => pL 0 0 0x060000 0 0
  | 0x5 => pRC 0xFFFFFF
  | 0x6 => pRC 0xFFFFFF
  | 0x7 => pRC 0xFFFFFF
  | 0x8 => pRO 0
  | 0x9 => pRO 0
  | 0xA => pRO 0
  | 0xB => pRO 0
  | 0xC => pRO 0
  | 0xD => pRO 0
  | 0xE => pRO 0
  | 0xF => pRC 0xFFFFFF
  | _ => none

/-- The Electrum link (R269, R270). -/
def infoLink (o : Nat) : Option PInfo :=
  if o = 0x00 then pL 0 0x000007 0 0 0
  else if o = 0x01 then pS 0 0xFF003F
  else if o = 0x02 then pS 0x000010 0x0000FF
  else if o = 0x03 then pL 0 0 0x00C000 0 0
  else if o ≤ 0x08 then pRO 0
  else if o ≤ 0x0B then pRC 0xFFFFFF
  else if o < 0x10 then none
  else if o ≤ 0x1F then pS 0 0x00001F
  else if o = 0x20 then pS 0 0x00000F
  else if o ≤ 0x22 then pL 0 0xFFFFFF 0 0 0
  else if o = 0x23 then pL 0 0 0xFF0002 0 0
  else if o ≤ 0x3B then pRO 0
  else none

/-- Faults (R323, R324). -/
def infoFaults (o : Nat) : Option PInfo :=
  if o = 0x00 then pS 0x020032 0xFF03FF
  else if o = 0x01 then pL 0 0 0x000100 0 0
  else if o = 0x02 then pS 0x00000A 0xFFFFFF
  else if o = 0x03 then pS 0x000064 0xFFFFFF
  else if o = 0x04 then pS 0x0003E8 0xFFFFFF
  else if o = 0x05 then pS 0x002710 0xFFFFFF
  else if o = 0x06 then pS 0x003333 0x00FFFF
  else if o = 0x07 then pS 0 0x000007
  else if o = 0x08 then pRC 0xFFFFFF
  else if o ≤ 0x0E then pRO 0
  else if o < 0x40 then none
  else if o ≤ 0x7F then pRO 0
  else if o = 0x80 then none
  else if o ≤ 0x8B then pRC 0xFFFFFF
  else if o < 0x90 then none
  else if o ≤ 0x92 then pRC 0xFFFFFF
  else if o < 0xC0 then none
  else if o ≤ 0xD5 then pRO 0
  else if o < 0xE0 then none
  else if o ≤ 0xF5 then pRO 0
  else none

/-- Lifetime and calendar (R385, R386). -/
def infoLife (o : Nat) : Option PInfo :=
  if o = 0x00 then pL 0 0 0 0 0x0000FF
  else if o ≤ 0x06 then pRO 0
  else if o = 0x07 then pH 0 0x0001FF
  else if o = 0x08 then pL 0 0x0000FF 0 0 0
  else if o ≤ 0x0B then pRO 0
  else if o = 0x0C then some ⟨.s, 0, 0, 0, word 0x0000FF, 0⟩
  else if o = 0x0D then pRO 0
  else if o = 0x0E then pL 0 0x0003FF 0 0 0
  else if o ≤ 0x12 then pRO 0
  else if o < 0x40 then none
  else if o ≤ 0xBF then pRO 0
  else none

/-- R381, R388: a threshold pair, HIGH in [23:12] and LOW in [11:0]. -/
def pair12 (low high : Int) : Nat := (high % 4096).toNat * 4096 + (low % 4096).toNat

/-- R381: the reset warning thresholds of monitor `m` in the coding of R388. -/
def warnReset (m : Nat) : Nat :=
  if m < 8 then pair12 (-160) (if Config.gradeEB then 480 else 440)
  else if m = 8 then pair12 770 830
  else if m = 9 then pair12 820 880
  else if m = 10 then pair12 1740 1860
  else if m = 11 then pair12 3200 3400
  else if m = 12 then pair12 965 1035
  else if m = 13 then pair12 870 930
  else if m = 14 then pair12 1740 1860
  else if m < 19 then pair12 (-50) 50
  else if m = 19 then pair12 2400 4095
  else pair12 (-150) 150

/-- R381: the reset fault thresholds of monitor `m` in the coding of R388. -/
def faultReset (m : Nat) : Nat :=
  if m < 8 then pair12 (-180) (if Config.gradeEB then 520 else 480)
  else if m = 8 then pair12 750 850
  else if m = 9 then pair12 800 900
  else if m = 10 then pair12 1700 1900
  else if m = 11 then pair12 3100 3500
  else if m = 12 then pair12 940 1060
  else if m = 13 then pair12 845 955
  else if m = 14 then pair12 1700 1900
  else if m < 19 then pair12 (-100) 100
  else if m = 19 then pair12 0 4095
  else pair12 (-250) 250

/-- Monitors (R387, R388). -/
def infoMonitor (o : Nat) : Option PInfo :=
  if o = 0x00 then pS 0 0x000001
  else if o = 0x01 then pL 0 0 0xFFFFFF 0 0
  else if o ≤ 0x04 then pRO 0
  else if o < 0x08 then none
  else if o ≤ 0x4F then
    if (o - 8) % 3 = 0 then pRO 0
    else if (o - 8) % 3 = 1 then pL (warnReset ((o - 8) / 3)) 0xFFFFFF 0 0 0
    else pS (faultReset ((o - 8) / 3)) 0xFFFFFF
  else none

/-- Parameter-RAM and region-RAM words have no class (R44, R45); a write takes effect like a live one. -/
def infoRam : Option PInfo := pL 0 0xFFFFFF 0 0 0

/-- What the tables give of a place; none in a reserved slot (R12). -/
def paramInfo (l : PLoc) : Option PInfo :=
  match l with
  | .chip o => infoChip o
  | .cell _ o => infoCell o
  | .block _ o => infoBlock o
  | .region _ o => infoRegion o
  | .dom _ o => infoDom o
  | .chan _ o => infoChan o
  | .gang _ o => infoGang o
  | .pewter _ o => infoPewter o
  | .adc _ o => infoAdc o
  | .comp _ o => infoComp o
  | .seqr _ o => infoSeqr o
  | .link o => infoLink o
  | .faults o => infoFaults o
  | .life o => infoLife o
  | .monitor o => infoMonitor o
  | .pram _ _ _ => infoRam
  | .rram _ _ => infoRam

/-- R43: the place an address lies in, with reserved slots of an area still inside it; none outside every area. -/
def locate (pa : Nat) : Option PLoc :=
  if pa < 0x000100 then some (.chip pa)
  else if pa < 0x010000 then none
  else if pa < 0x014000 then some (.cell (Fin.ofNat 512 ((pa - 0x010000) / 0x20)) (pa % 0x20))
  else if pa < 0x020000 then none
  else if pa < 0x022000 then some (.block (Fin.ofNat 32 ((pa - 0x020000) / 0x100)) (pa % 0x100))
  else if pa < 0x030000 then none
  else if pa < 0x034000 then some (.region (Fin.ofNat 4 ((pa - 0x030000) / 0x1000)) (pa % 0x1000))
  else if pa < 0x040000 then none
  else if pa < 0x041000 then some (.dom (Fin.ofNat 16 ((pa - 0x040000) / 0x100)) (pa % 0x100))
  else if pa < 0x050000 then none
  else if pa < 0x052000 then some (.chan (Fin.ofNat 64 ((pa - 0x050000) / 0x80)) (pa % 0x80))
  else if pa < 0x060000 then none
  else if pa < 0x060400 then some (.gang (Fin.ofNat 4 ((pa - 0x060000) / 0x100)) (pa % 0x100))
  else if pa < 0x070000 then none
  else if pa < 0x070800 then some (.pewter (Fin.ofNat 32 ((pa - 0x070000) / 0x40)) (pa % 0x40))
  else if pa < 0x080000 then none
  else if pa < 0x080100 then some (.adc (Fin.ofNat 32 ((pa - 0x080000) / 8)) (pa % 8))
  else if pa < 0x080500 then some (.comp (Fin.ofNat 64 ((pa - 0x080100) / 0x10)) (pa % 0x10))
  else if pa < 0x080800 then none
  else if pa < 0x080840 then some (.seqr (Fin.ofNat 4 ((pa - 0x080800) / 0x10)) (pa % 0x10))
  else if pa < 0x090000 then none
  else if pa < 0x090060 then some (.link (pa % 0x100))
  else if pa < 0x0A0000 then none
  else if pa < 0x0A0100 then some (.faults (pa % 0x100))
  else if pa < 0x0B0000 then none
  else if pa < 0x0B00C0 then some (.life (pa % 0x100))
  else if pa < 0x0C0000 then none
  else if pa < 0x0C0060 then some (.monitor (pa % 0x100))
  else if pa < 0x100000 then none
  else if pa < 0x200000 then
    let b := Fin.ofNat 32 ((pa - 0x100000) / 0x8000)
    let o := pa % 0x8000
    if o < 0x2000 then some (.pram b o .direct)
    else if o < 0x4000 then some (.pram b (o - 0x2000) .set)
    else if o < 0x6000 then some (.pram b (o - 0x4000) .clear)
    else none
  else if pa < 0x240000 then some (.rram (Fin.ofNat 4 ((pa - 0x200000) / 0x10000)) (pa % 0x10000))
  else none

/-- The address of a place (R43). -/
def paOf (l : PLoc) : Nat :=
  match l with
  | .chip o => o
  | .cell c o => 0x010000 + c.val * 0x20 + o
  | .block b o => 0x020000 + b.val * 0x100 + o
  | .region r o => 0x030000 + r.val * 0x1000 + o
  | .dom d o => 0x040000 + d.val * 0x100 + o
  | .chan c o => 0x050000 + c.val * 0x80 + o
  | .gang r o => 0x060000 + r.val * 0x100 + o
  | .pewter p o => 0x070000 + p.val * 0x40 + o
  | .adc a o => 0x080000 + a.val * 8 + o
  | .comp w o => 0x080100 + w.val * 0x10 + o
  | .seqr r o => 0x080800 + r.val * 0x10 + o
  | .link o => 0x090000 + o
  | .faults o => 0x0A0000 + o
  | .life o => 0x0B0000 + o
  | .monitor o => 0x0C0000 + o
  | .pram b w .direct => 0x100000 + b.val * 0x8000 + w
  | .pram b w .set => 0x100000 + b.val * 0x8000 + 0x2000 + w
  | .pram b w .clear => 0x100000 + b.val * 0x8000 + 0x4000 + w
  | .rram r w => 0x200000 + r.val * 0x10000 + w

/-- The value a stored parameter holds when nothing has written it: its reset value (R14). -/
def regReset (pa : Nat) : Word :=
  match locate pa with
  | some l =>
    match paramInfo l with
    | some i => i.reset
    | none => 0
  | none => 0

end Sys2Proof.Machine
end

