-- ==== Sys2Proof/Machine/Mem.lean ====
section
/-!
DEFINITION. Memories in one canonical form, and their read and write.
-/
namespace Sys2Proof.Machine

/-! ### Memories in canonical form -/

/-- The word at an address; an unlisted address reads as the default. -/
def memGet {w : Nat} (dflt : Nat → BitVec w) (m : Mem w) (a : Nat) : BitVec w :=
  match m with
  | [] => dflt a
  | (k, v) :: t => if a = k then v else if a < k then dflt a else memGet dflt t a

/-- Writing one word; writing what an unlisted address reads as removes the entry. -/
def memPut {w : Nat} (dflt : Nat → BitVec w) (m : Mem w) (a : Nat) (v : BitVec w) : Mem w :=
  match m with
  | [] => if v = dflt a then [] else [(a, v)]
  | (k, x) :: t =>
    if a < k then (if v = dflt a then (k, x) :: t else (a, v) :: (k, x) :: t)
    else if a = k then (if v = dflt a then t else (a, v) :: t)
    else (k, x) :: memPut dflt t a v

/-- The canonical form: addresses strictly rising from `lo`, no entry equal to what an unlisted address reads as. -/
def memWfFrom {w : Nat} (dflt : Nat → BitVec w) (lo : Nat) (m : Mem w) : Bool :=
  match m with
  | [] => true
  | (k, v) :: t => decide (lo ≤ k) && decide (v ≠ dflt k) && memWfFrom dflt (k + 1) t

/-- The canonical form of a memory. -/
def Memory.wf {w : Nat} (dflt : Nat → BitVec w) (m : Mem w) : Bool := memWfFrom dflt 0 m

end Sys2Proof.Machine
end

