-- ==== Sys2Proof/Machine/Agenda.lean ====
section
/-!
DEFINITION. What a tick still has to do: writes that have committed and whose effect comes in the next tick (00_scope.md R9,
01_architecture_and_timebase.md R17, R44), edges on their way to a ball (R86), examinations of a later tick, and requests
for banks of region RAM (R18).
-/
namespace Sys2Proof.Machine

/-- What a committed write does when it takes effect: a parameter or RAM word, with the low word held for its requester at
the commit (R6); a compare of a cell (R86, R89), which arms where the cell was enabled at the commit (R85); a change of a
cell's latch, or a disarming of a compare, by a routine (R126, R127); a reload of a cell from its image (R312); a push to a transmit FIFO or a pop of a receive
FIFO by a routine (R128); the binding of a wear counter (R373). -/
inductive LateOp where
  | write (low : Word) (l : PLoc) (v : Word)
  | compare (c : Fin 512) (u : CmpUnit) (t : Time) (trim : BitVec 4) (act : Option EdgeAct) (o : CmpOwner) (arms : Bool)
  | latch (c : Fin 512) (a : EdgeAct)
  | disarm (c : Fin 512) (u : CmpUnit)
  | reload (c : Fin 512)
  | pePush (p : Fin 32) (v : Word)
  | pePop (p : Fin 32)
  | bind (k : Fin 256) (v : BitVec 12)
deriving DecidableEq, Repr

/-- A committed write that waits for its effect (R9, R17): its place in the precedence of R17 (1 a reload, 2 a block
sequencer, 3 a position channel, 4 the supervisor and what goes through it), its requester, and the tick it committed in. -/
structure Late where
  rank : Nat
  who : Requester
  tick : Nat
  op : LateOp
deriving DecidableEq, Repr

/-- What a later tick does: at its end, the examination of a carrier's trip latch that a write asks for (R157, R160), or an
edge that reaches a cell in MEASURE mode through a chip-wide line (R23, R93), or the image that EXPORT_LIFETIME writes
(R380); at its start, the reaction of scope `x` to a
fault of a class with its home scope and detail, which latches the scope at once where R309 or R314 says so (R304). -/
inductive Job where
  | trip (k : Carrier) (clear software : Bool)
  | measure (c : Fin 512) (rise : Bool) (t : T16)
  | exportTo (e : Entry)
  | react (x : Scope) (cls : Nat) (home : Scope) (detail : Word) (latch : Bool)
deriving DecidableEq, Repr

/-- R18: a request for a bank of region RAM: the region, the word, the requester (a block of the region by its place, 8 the
chip-interconnect port), the store it makes or none for a read, and the tick it was made in. -/
structure BankReq where
  region : Fin 4
  word : Fin 65536
  who : Fin 9
  store : Option Word
  tick : Nat
deriving DecidableEq, Repr

/-- What the present tick and the next ones still have to do. `bankLast` is the requester that each bank served last, by
region and bank. -/
structure Agenda where
  late : List Late
  outs : List OutEdge
  jobs : List (Nat × Job)
  banks : List BankReq
  bankLast : Vector (Fin 9) 32
deriving DecidableEq, Repr

/-- Nothing to do; each bank serves block 0 of its region first (log entry 85). -/
def agendaReset : Agenda :=
  { late := [], outs := [], jobs := [], banks := [], bankLast := Vector.replicate 32 8 }

end Sys2Proof.Machine
end

