-- ==== Sys2Proof/Machine/State.lean ====
section
/-!
DEFINITION. The state of the device, its reset value, and the reasons a step can stop. Every register, FIFO, buffer,
counter, mode and pin the spec gives the device is here, with the queue of waiting commands.
-/
namespace Sys2Proof.Machine

/-- The operating modes (R325). -/
inductive Mode where
  | boot | configure | run | degraded | safeHold | halt | service | powerFail | retention
deriving DecidableEq, Repr

/-- Why a step stops with a fault: no command of this device stops the machine (its own faults are state), so there is
no reason. -/
inductive Fault where
deriving DecidableEq, Repr

/-- Why a step has no meaning. -/
inductive Refusal where
  /-- Raised by an arm of `exec` whose meaning is not written; safe, since the run stops there. -/
  | notModelled (mnemonic : String)
deriving DecidableEq, Repr

/-- The tick count, line time with its discipline (R28, R257) and a preset for the next tick (R29), uptime (R47), and the
clock tree (R24 to R27). -/
structure Timebase where
  tick : Nat
  lt : Time
  rate : Int
  phase : Int
  preset : Option Time
  upAcc : Nat
  upSec : Word
  clk : Clock
deriving DecidableEq, Repr

/-- Parameter space: stored parameters, working copies of class H parameters and their recent writes (R11), words held
for requesters (R6, R32), selectors, domain snapshots, and what the device has set in the present tick (R15). -/
structure Params where
  reg : Mem 24
  work : Mem 24
  hlog : List HWrite
  caps : List Held
  lows : List Held
  sels : List Held
  snaps : List DomSnap
  fresh : List Fresh
deriving DecidableEq, Repr

/-- The memories (R348), and the uncorrectable words found in them: memory, instance and address. -/
structure Memories where
  pram : Mem 24
  rram : Mem 24
  cstore : Mem 128
  peProg : Mem 16
  lut : Mem 8
  ring : Mem 8
  sqList : Mem 24
  ecc : List (MemId × Nat × Nat)
deriving DecidableEq, Repr

/-- The balls that the environment drives or that the device holds: filtered input levels (R22, R48), what drove the
chip-wide lines in the last four ticks, latest first (R23), and the ZIO settings that writes of the present tick replaced
(R399). -/
structure Pins where
  tioIn : BitVec 512
  zioIn : BitVec 16
  lines : List (BitVec 16)
  zioOld : List (Fin 16 × Word)
  safeReqN : Bool
  pfwN : Bool
  pwrOk : Bool
deriving DecidableEq, Repr

/-- The operating mode, the mode a HALT left, MODE_SEQ (R325, R326, R330, R345), the PLL setting (R343), and the supply
class of each VIOB bank (R393). -/
structure Sys where
  mode : Mode
  left : Mode
  seq : Byte
  core640 : Bool
  secondSwitch : Bool
  haltTick : Nat
  vio : BitVec 32
deriving DecidableEq, Repr

/-- The whole machine. -/
structure State where
  pending : List Instr
  freshN : Nat
  time : Timebase
  par : Params
  agenda : Agenda
  mem : Memories
  pins : Pins
  sys : Sys
  host : HostIf
  sup : Supervisor
  flt : Collector
  cells : Vector Cell 512
  doms : Vector Dom 16
  trks : Vector Tracker 16
  blks : Vector Block 32
  bcar : Vector CarrierSt 32
  gcar : Vector CarrierSt 4
  chans : Vector Channel 64
  pes : Vector Pewter 32
  adcs : Vector Converter 32
  seqs : Vector Sequencer 4
  comps : Vector Comparator 64
  life : Life
  mons : Vector Monitor 24
  elc : Electrum
  boot : Boot
  sec : Secure
  excs : Vector Exc 8
deriving DecidableEq, Repr

/-- A compare after enabling (R85). -/
def compareReset : Compare :=
  { value := 0, trim := 0, armed := false, edge := 0, act := none, owner := .param, past := false, collide := false,
    started := false }

/-- A cell at reset (R84). -/
def cellReset : Cell :=
  { latch := false, edgeAt := none, cmpA := compareReset, cmpB := compareReset, fifo := [], popped := [], queue := [],
    queueLast := none, measRise := none, measFall := none, drv := none, drvAt := none, rbAt := none, matchTick := none,
    grantTick := none, lastUser := none, pwmWait := none, pwmIdeal := false, pwmRise := 0, pwmFall := 0, pwmTrims := 0,
    pwmEdges := [] }

/-- A domain at reset: OFF (R64). -/
def domReset : Dom :=
  { st := .off, before := .off, lastT := none, base := false, period := 0, idx := 0, started := false,
    afterStop := false, gap := none, gapSeen := false, gapForce := false, rev := none, standFloor := none, standPast := false,
    intake := [], noise := 0, synthLast := false, misplaced := false,
    cntSync := 0, cntRec := 0, flight := [], leafSt := .off, leafIdx := 0, leafPin := 0, leafPeriod := 0,
    leafMicro := some 0, leafCycle := 0, jumpTick := none, updTick := none, chHigh := none, chHold := false,
    chExt := 0, vgNext := none, vgStop := none, vgInterval := 0, vgStarted := false, rmtFound := false,
    rmtFrames := 0, rmtMissed := 0, rmtIn := [], rmtAccs := [],
    rmtLast := none, rmtSt := none, rmtCyc := 0, rmtHold := false, arm := [] }

/-- A carrier at reset (R147). -/
def carrierReset : CarrierSt :=
  { running := false, start := none, next := none, wait := false, trip := false, tripKind := 0, tripCnt := 0,
    resumeWait := false, clearTick := 0, lockPrev := false, lockAt := none, frozen := none, ctrigs := [] }

/-- A block sequencer at reset: all lanes vote (R119), no traps (log entry 6). -/
def blockReset : Block :=
  { queues := Vector.replicate 20 [], lastServed := Vector.replicate 4 19, promoCount := 0, run := none, freeAt := 0,
    timerNext := none, timerCount := 0, timerPeriod := 0, voting := 7, rebuildEnd := none, rebuildCnt := 0,
    traps := [] }

/-- A channel at reset (R195). -/
def chanReset : Channel :=
  { pos := 0, posValid := false, posT := 0, ab := 0, abLog := [], zLog := [], base := none, lastPulse := none, prevIval := none, flight := [], recent := [],
    acc := 0, speedRef := none, lastSign := 0, lastCount := none, spd := ⟨0, false, false, false⟩,
    spdShown := ⟨0, false, false, false⟩, spdQueue := [], spdFloor := none, stand := none, fault := false, items := [], phiPrev := none,
    serPrev := none, serWord0 := none, serLatch := none, idxPos := 0, idxT := 0, pcmp := 0, pcmpArmed := false,
    eacc := 0, emuQueue := [], emuLast := none, emuA := false, emuB := false, raw := 0 }

/-- An engine at reset (R202, R216): OSC 24, the hold table of PE_HOLDS. -/
def pewterReset : Pewter :=
  { pc := 0, ir := none, irInj := false, x := 0, y := 0, isr := 0, osr := 0, isc := 0, osc := 24, lastTx := 0,
    hold := 0, holds := Vector.ofFn (fun (i : Fin 4) => if i.val = 0 then 0 else if i.val = 1 then 1
      else if i.val = 2 then 3 else 7), framePush := false, framePull := false, inj := none,
    acc := 0, nextStep := none, rx := [], tx := [], out := 0, outs := [], ball := 0, waitFrom := none,
    seen := Vector.replicate 4 [], lut := 0 }

/-- A comparator at reset (R233). -/
def compReset : Comparator :=
  { hiSide := false, loSide := false, hiMove := none, loMove := none, zone := .inside, samples := [], unresolved := false,
    settleEnd := none, settled := 0, trip := false, tripT := 0 }

/-- A port at reset: DOWN (R245). -/
def portReset : ElcPort :=
  { st := .down, locked := false, validRun := 0, crcRun := [], missRun := 0, offset := none, m := none, rev := none,
    neighbour := 0, lastDir1 := none, lastDir0 := none, frameNo := none, crossed := false }

/-- The link at reset: off. -/
def elcReset : Electrum :=
  { ports := Vector.replicate 2 portReset, role := .member, heard := false, master := 0, frameNo := 0, quietFrom := none,
    named := 0, backup := none, census := 0, faultRx := false, loopAge := 16, conflict := false, joined := false,
    aligned := false, inRun := 0, outRun := 0, theta := 0, parent := none, slots := Vector.replicate 16 0,
    slotFrame := Vector.replicate 16 0, tags := Vector.replicate 16 0, mbx := Vector.replicate 8 0,
    mbxSent := Vector.replicate 8 0, rx := Vector.replicate 8 ⟨0, 0, 0, false⟩, rxTaken := Vector.replicate 8 none,
    txNext := 0, txMsg := none, txPending := false, txSeq := 0, samples := [], sent := [] }

/-- A submission ring at reset. -/
def subReset : SubRing :=
  { tail := 0, head := 0, done := 0, error := false, disabling := false, fetched := [], waitFor := none, bulk := none, fetchFail := false,
    parked := [], slotAt := none, slotDue := false }

/-- An event ring at reset. -/
def evtReset : EvtRing :=
  { tail := 0, head := 0, seq := 0, spill := [], dropped := 0, firstDropped := 0, disc := 0,
    irqTail := 0, sinceIrq := 0, oldest := none, sumBit := none, disabling := false }

/-- The host interface at the first entry to CONFIGURE: every reset value of R277, MODE_CHANGE set by the BOOT_DONE
transition (R330), PCI Express with bus mastering off and the vectors masked (log entry 14). -/
def hostReset : HostIf :=
  { transport := .pcie, busMaster := false, msixFnMask := false, msixMask := 0xFFFFFFFF, msixPend := 0, hregs := [],
    hostCtrl := 0, heartbeat := 0, irqStat := 0x10, sqErr := 0, dmaStat := 0, dmaErr := 0, ltHeld := none,
    spiSticky := 0, sessionOpen := false, session := 0, watchdogMs := 0, watchdogFrom := 0, hostLost := false, vlog := [], vlogLost := 0,
    supRestarts := 0, cmdLatMax := 0, bells := Vector.replicate 16 [], cmdCount := 0, recCount := 0, bus := [],
    subs := Vector.replicate 16 subReset, evts := Vector.replicate 16 evtReset, arb := [] }

/-- The collector at reset: no open fault, FAULT_N released (R331). -/
def faultsReset : Collector :=
  { slots := Vector.replicate 64 none, scopes := [], windows := [], exits := [], reports := [], seq := 0,
    lostSince := 0, pin := false, pinUntil := 0, pinReleased := false, safeReqLow := false, leaving := [] }

/-- Duty counters at the first entry to CONFIGURE: one boot (R375, R377; log entry 12). -/
def dutyReset : Vector (BitVec 48) 64 := (Vector.replicate 64 0).set 3 1

/-- The lifetime store and calendar at reset: slot A holds commit 0, and the commit that R377 requests at the entry to
CONFIGURE is being written (log entry 12). -/
def lifeReset : Life :=
  { cal := 0, secTick := 0, setTick := none, calValid := false, trim := 0, wear := Vector.replicate 256 0, binds := Vector.replicate 256 0,
    duty := dutyReset, slotA := some ⟨0, Vector.replicate 256 0, Vector.replicate 256 0, Vector.replicate 64 0⟩,
    slotB := none, lastN := 0, valid := true, empty := false, torn := false,
    writing := some ⟨1, Vector.replicate 256 0, Vector.replicate 256 0, dutyReset⟩, writeTick := 0, writeIsPowerFail := false,
    requested := false, hist := [], histQueue := [], histLost := 0, rebootAfter := false }

/-- A monitor's reading at reset in the coding of R388: 25 degrees, nominal rails, no deviation (log entry 12). -/
def monReading (m : Nat) : Word :=
  if m < 8 then 400 else if m = 8 then 800 else if m = 9 then 850 else if m = 10 then 1800 else if m = 11 then 3300
  else if m = 12 then 1000 else if m = 13 then 900 else if m = 14 then 1800 else if m = 19 then 3000 else 0

/-- A monitor at reset. -/
def monReset (m : Nat) : Monitor := ⟨monReading m, ⟨0, 0, 0, false⟩, ⟨0, 0, 0, false⟩⟩

/-- The machine right after reset: the first entry to CONFIGURE after BOOT, the state R14 gives the reset values of
(log entry 1). -/
def State.reset : State :=
  { pending := []
    freshN := 0
    time := { tick := 0, lt := 0, rate := 0, phase := 0, preset := none, upAcc := 0, upSec := 0,
              clk := ⟨false, true, true, false, true, false⟩ }
    par := { reg := [], work := [], hlog := [], caps := [], lows := [], sels := [], snaps := [], fresh := [] }
    agenda := agendaReset
    mem := { pram := [], rram := [], cstore := [], peProg := [], lut := [], ring := [], sqList := [], ecc := [] }
    pins := { tioIn := 0, zioIn := 0, lines := [], zioOld := [], safeReqN := true, pfwN := true, pwrOk := true }
    sys := { mode := .configure, left := .configure, seq := 1, core640 := false, secondSwitch := false, haltTick := 0,
             vio := 0xFFFFFFFF }
    host := hostReset
    sup := { out := none, restart := 0, halted := false }
    flt := faultsReset
    cells := Vector.replicate 512 cellReset
    doms := Vector.replicate 16 domReset
    trks := Vector.replicate 16 ⟨0⟩
    blks := Vector.replicate 32 blockReset
    bcar := Vector.replicate 32 carrierReset
    gcar := Vector.replicate 4 carrierReset
    chans := Vector.replicate 64 chanReset
    adcs := Vector.replicate 32 ⟨0, [], 0, 0, 0, 0⟩
    seqs := Vector.replicate 4 ⟨[], Vector.replicate 64 0, Vector.replicate 64 0, 0, 0, false⟩
    comps := Vector.replicate 64 compReset
    life := lifeReset
    mons := Vector.ofFn (fun (m : Fin 24) => monReset m.val)
    elc := elcReset
    boot := { rise := 0, flow := .stopped, phase := 9, result := 0, attempts := 1, hostWait := false, fallback := false,
              version := Config.fwVersion, patch := 0, bootMs := 0, source := false, staged := false,
              bistFail := false, find := ⟨false, some ⟨Config.fwVersion, 0, 0, 15, false, true, true⟩, true, 0xFFFFFFFF⟩,
              clkLost := none, steps := [], lineOn := true }
    sec := { lc := .blank, keyHash := none, rollback := 0, floor := 0, debugOk := false, bankValid := true, bankGen := 0,
             rebuild := false, wipesOff := 0, exportKey := 0, flash := [], stage := .none, mark := false, job := none, jtag := .idcode,
             bsr := 0, jtagOut := [], scrub := [], scrubDone := [] }
    excs := Vector.replicate 8 ⟨false, 0, [], 0⟩
    pes := Vector.replicate 32 pewterReset }

end Sys2Proof.Machine
end

