-- ==== Sys2Proof/Machine/Ops.lean ====
section
/-!
DEFINITION. The operations every family shares: canonical memories, stored parameters, words held for requesters,
units by number, records into the ring arbiter (R19), reports to the fault collector (R301), the violation log (R298).
-/
namespace Sys2Proof.Machine

/-! ### What unlisted words read as -/

/-- R312: at the first entry to CONFIGURE the cell images hold the reset values of the imaged parameters; every other
word of parameter RAM reads 0 (log entry 5). Keyed by block × 8,192 + word. -/
def pramReset (a : Nat) : Word :=
  let w := a % 8192
  if 0x0E00 ≤ w ∧ w < 0x0F00 then
    match infoCell (w % 16) with
    | some i => if w % 16 ∈ [0x0, 0x1, 0x9, 0xB, 0xC, 0xD] then i.reset else 0
    | none => 0
  else 0

/-- R140, R144, R334: the Ronarna microcode of the image that booted below word 0xC00, with its replacement words, the same
in every block; customer words read 0 until a window is loaded. Keyed by block × 4,096 + word. -/
def cstoreReset (b : Boot) (a : Nat) : MicroWord :=
  if a % 4096 < 0xC00 then Config.microcode b.version b.patch (a % 4096) else 0

/-- What an unlisted word of the other memories reads as (log entry 5). -/
def zeroMem (w : Nat) (_ : Nat) : BitVec w := 0

/-! ### Stored parameters -/

/-- The stored value of the parameter at an address. -/
def regAt (s : State) (pa : Nat) : Word := memGet regReset s.par.reg pa

/-- Storing a parameter value. -/
def setRegAt (s : State) (pa : Nat) (v : Word) : State :=
  { s with par := { s.par with reg := memPut regReset s.par.reg pa v } }

/-- The stored value of a parameter. -/
def reg (s : State) (l : PLoc) : Word := regAt s (paOf l)

/-- Storing a parameter. -/
def setReg (s : State) (l : PLoc) (v : Word) : State := setRegAt s (paOf l) v

/-- The working copy of a class H parameter (R11). -/
def work (s : State) (l : PLoc) : Word := memGet regReset s.par.work (paOf l)

/-- Giving a class H parameter a working value. -/
def setWork (s : State) (l : PLoc) (v : Word) : State :=
  { s with par := { s.par with work := memPut regReset s.par.work (paOf l) v } }

/-- R15: what the device sets in a parameter in this tick, noted with the value it had before. -/
def freshNote (l : List Fresh) (pa n : Nat) (old : Word) (f : Word → Word) : List Fresh :=
  match l with
  | [] => [⟨pa, n, old, f 0⟩]
  | x :: t => if x.pa = pa ∧ x.tick = n then { x with add := f x.add } :: t else x :: freshNote t pa n old f

/-- R15: the place of a host register among what the device has set. -/
def hostPa (a : Nat) : Nat := 0x1000000 + a

/-- R15: noting that the device sets a host register that held `old`. -/
def noteHost (s : State) (a : Nat) (old : Word) (f : Word → Word) : State :=
  { s with par := { s.par with fresh := freshNote s.par.fresh (hostPa a) s.time.tick old f } }

/-- R15: what the device has set in a host register in the present tick, or will have set in the next. -/
def hostKept (s : State) (a : Nat) : List Fresh :=
  s.par.fresh.filter (fun x => decide (x.pa = hostPa a ∧ s.time.tick ≤ x.tick))

/-- R15: a write of 1 bits of a host register that holds `old` clears them, but for those set in the present tick. -/
def hostClear (s : State) (a : Nat) (old v : Word32) : Word32 :=
  old &&& ~~~(v &&& ~~~((hostKept s a).foldl (fun x y => x ||| y.add) (0 : Word)).setWidth 32)

/-- R15: noting a setting of the present tick. -/
def noteFresh (s : State) (l : PLoc) (f : Word → Word) : State :=
  { s with par := { s.par with fresh := freshNote s.par.fresh (paOf l) s.time.tick (reg s l) f } }

/-- R15: what the device has set in a parameter in this tick. -/
def freshOf (s : State) (l : PLoc) : Option Fresh :=
  s.par.fresh.find? (fun x => decide (x.pa = paOf l ∧ x.tick = s.time.tick))

/-- R15: the bits set and counts added in this tick. -/
def freshAdd (s : State) (l : PLoc) : Word :=
  match freshOf s l with
  | some x => x.add
  | none => 0

/-- Setting bits of a stored parameter: a flag the device raises. -/
def orReg (s : State) (l : PLoc) (bits : Nat) : State :=
  setReg (noteFresh s l (fun a => a ||| word bits)) l (reg s l ||| word bits)

/-- Clearing bits of a stored parameter. -/
def clrReg (s : State) (l : PLoc) (bits : Nat) : State := setReg s l (reg s l &&& ~~~(word bits))

/-- A field of a stored parameter. -/
def regFld (s : State) (l : PLoc) (hi lo : Nat) : Nat := fld (reg s l) hi lo

/-- A bit of a stored parameter. -/
def regBit (s : State) (l : PLoc) (i : Nat) : Bool := bit (reg s l) i

/-- Counting in a read-to-clear field [hi:lo], saturating at its maximum. -/
def bump (s : State) (l : PLoc) (hi lo inc : Nat) : State :=
  setReg (noteFresh s l (fun a => setFld a hi lo (satAdd (hi - lo + 1) (fld a hi lo) inc))) l
    (setFld (reg s l) hi lo (satAdd (hi - lo + 1) (regFld s l hi lo) inc))

/-- A class H write: the shadow takes the value, and the write is remembered for R11. -/
def writeShadow (s : State) (l : PLoc) (v : Word) : State :=
  let h : HWrite := ⟨paOf l, reg s l, s.time.tick + 1⟩
  let s1 := setReg s l v
  { s1 with par := { s1.par with hlog := h :: s1.par.hlog } }

/-- R11: the shadow as a boundary in tick `b` samples it: writes whose data reaches the shadow in that tick or later
are not seen. -/
def shadowAt (s : State) (l : PLoc) (b : Nat) : Word :=
  match (s.par.hlog.filter (fun h => decide (h.pa = paOf l ∧ b ≤ h.tick))).getLast? with
  | some h => h.old
  | none => reg s l

/-- R11: a write reached the shadow in the boundary's own tick, which is what LATE_UPDATE reports. -/
def lateAt (s : State) (l : PLoc) (b : Nat) : Bool :=
  s.par.hlog.any (fun h => decide (h.pa = paOf l ∧ h.tick = b))

/-- Taking a shadow into its working copy at a boundary in tick `b`. -/
def reload (s : State) (l : PLoc) (b : Nat) : State := setWork s l (shadowAt s l b)

/-! ### What the tick still has to do -/

/-- R17: the place of a requester's writes in the precedence of an update port. -/
def rankOf (who : Requester) : Nat :=
  match who with
  | .block _ => 2
  | _ => 4

/-- R9, R17: a write has committed in the present tick and takes effect in the tick after it, or after its grant. -/
def addLate (s : State) (rank : Nat) (who : Requester) (op : LateOp) : State :=
  { s with agenda := { s.agenda with late := s.agenda.late ++ [⟨rank, who, s.time.tick, op⟩] } }

/-- Something for the tick `n` to do. -/
def addJob (s : State) (n : Nat) (j : Job) : State :=
  { s with agenda := { s.agenda with jobs := s.agenda.jobs ++ [(n, j)] } }

/-! ### Words held for requesters -/

/-- A list of held words with one replaced. -/
def heldPut (hs : List Held) (who : Requester) (pa : Nat) (v : Word) : List Held :=
  ⟨who, pa, v⟩ :: hs.filter (fun h => !decide (h.who = who ∧ h.pa = pa))

/-- The word held for a requester at an address. -/
def heldGet (hs : List Held) (who : Requester) (pa : Nat) : Option Word :=
  match hs.find? (fun h => decide (h.who = who ∧ h.pa = pa)) with
  | some h => some h.val
  | none => none

/-- R6: the low word last held for a requester; nothing written yet reads 0 (log entry 16). -/
def lowOf (s : State) (who : Requester) (l : PLoc) : Word := (heldGet s.par.lows who (paOf l)).getD 0

/-- R6: holding the low word of a pair for a requester. -/
def setLow (s : State) (who : Requester) (l : PLoc) (v : Word) : State :=
  { s with par := { s.par with lows := heldPut s.par.lows who (paOf l) v } }

/-- R32: capturing a word for a requester's next read of a parameter. -/
def setCap (s : State) (who : Requester) (l : PLoc) (v : Word) : State :=
  { s with par := { s.par with caps := heldPut s.par.caps who (paOf l) v } }

/-- R32: the captured word of a parameter, where the requester has one. -/
def capOf (s : State) (who : Requester) (l : PLoc) : Option Word := heldGet s.par.caps who (paOf l)

/-- R32: a captured word is returned once. -/
def dropCap (s : State) (who : Requester) (l : PLoc) : State :=
  { s with par := { s.par with caps := s.par.caps.filter (fun h => !decide (h.who = who ∧ h.pa = paOf l)) } }

/-- A selector held for a requester (R217, R241, R385); its reset value until it writes one. -/
def selOf (s : State) (who : Requester) (l : PLoc) : Word := (heldGet s.par.sels who (paOf l)).getD 0

/-- Setting a selector of a requester. -/
def setSel (s : State) (who : Requester) (l : PLoc) (v : Word) : State :=
  { s with par := { s.par with sels := heldPut s.par.sels who (paOf l) v } }

/-! ### Memories of the device -/

/-- A parameter-RAM word. -/
def pramAt (s : State) (b : Fin 32) (w : Nat) : Word := memGet pramReset s.mem.pram (b.val * 8192 + w)

/-- R351: what a write through a window of parameter RAM makes of a word. -/
def ramWord (k : RamAlias) (old v : Word) : Word :=
  match k with
  | .direct => v
  | .set => old ||| v
  | .clear => old &&& ~~~v

/-- R350: a parameter-RAM word as a read of the present tick returns it: after the writes that commit in it through the other
port, and for a read through port B after those of port A too. -/
def pramSeen (s : State) (b : Fin 32) (w : Nat) (portB : Bool) : Word :=
  let mine := s.agenda.late.filter (fun x => decide (x.tick ≤ s.time.tick))
  let f := fun (a : Word) (x : Late) => match x.op with
    | .write _ (.pram b1 w1 k) v => if b1 = b ∧ w1 = w then ramWord k a v else a
    | _ => a
  (mine.filter (fun x => decide (x.rank ≠ 2))).foldl f
    (if portB then (mine.filter (fun x => decide (x.rank = 2))).foldl f (pramAt s b w) else pramAt s b w)

/-- Storing a parameter-RAM word. -/
def setPramRaw (s : State) (b : Fin 32) (w : Nat) (v : Word) : State :=
  { s with mem := { s.mem with pram := memPut pramReset s.mem.pram (b.val * 8192 + w) v } }

/-- A region-RAM word. -/
def rramAt (s : State) (r : Fin 4) (w : Nat) : Word := memGet (zeroMem 24) s.mem.rram (r.val * 65536 + w)

/-- Storing a region-RAM word. -/
def setRramRaw (s : State) (r : Fin 4) (w : Nat) (v : Word) : State :=
  { s with mem := { s.mem with rram := memPut (zeroMem 24) s.mem.rram (r.val * 65536 + w) v } }

/-- R18, R45: an access of a region-RAM word by a requester, a block of the region by its place or 8 for the port to the
chip interconnect, waits for its bank from the present tick on. -/
def askBank (s : State) (r : Fin 4) (w : Nat) (who : Fin 9) (store : Option Word) : State :=
  { s with agenda := { s.agenda with banks := s.agenda.banks ++ [⟨r, Fin.ofNat 65536 w, who, store, s.time.tick⟩] } }

/-- R45: the word the port to the chip interconnect reads: what it last stored there, though its bank may not have it yet. -/
def portRram (s : State) (r : Fin 4) (w : Nat) : Word :=
  match (s.agenda.banks.filter (fun q => decide (q.region = r ∧ q.word.val = w ∧ q.who = 8) && q.store.isSome)).getLast? with
  | some q => q.store.getD 0
  | none => rramAt s r w

/-- A control-store word. -/
def cstoreAt (s : State) (b : Fin 32) (a : Nat) : MicroWord :=
  memGet (cstoreReset s.boot) s.mem.cstore (b.val * 4096 + a)

/-- Storing a control-store word. -/
def setCstore (s : State) (b : Fin 32) (a : Nat) (v : MicroWord) : State :=
  { s with mem := { s.mem with cstore := memPut (cstoreReset s.boot) s.mem.cstore (b.val * 4096 + a) v } }

/-- A ring-memory byte (BAR2 offset). -/
def ringByte (s : State) (a : Nat) : Byte := memGet (zeroMem 8) s.mem.ring a

/-- Storing a ring-memory byte. -/
def setRingByte (s : State) (a : Nat) (v : Byte) : State :=
  { s with mem := { s.mem with ring := memPut (zeroMem 8) s.mem.ring a v } }

/-- Storing bytes from an offset on, those inside ring memory. -/
def setRingBytes (s : State) (a : Nat) (bs : List Byte) : State :=
  match bs with
  | [] => s
  | b :: t => setRingBytes (if a < 0x200000 then setRingByte s a b else s) (a + 1) t

/-- Reading bytes from an offset on. -/
def ringBytes (s : State) (a n : Nat) : List Byte := (List.range n).map (fun i => ringByte s (a + i))

/-- Whether a word is one the device has found uncorrectable (R353). -/
def eccBad (s : State) (m : MemId) (inst a : Nat) : Bool := s.mem.ecc.contains (m, inst, a)

/-- Marking a word uncorrectable. -/
def setEccBad (s : State) (m : MemId) (inst a : Nat) : State :=
  if eccBad s m inst a then s else { s with mem := { s.mem with ecc := (m, inst, a) :: s.mem.ecc } }

/-- R314, R352, R353: writing the whole word clears its error. -/
def clearEcc (s : State) (m : MemId) (inst a : Nat) : State :=
  { s with mem := { s.mem with ecc := s.mem.ecc.filter (fun e => !decide (e = (m, inst, a))) } }

/-! ### Units by number -/

/-- A cell after a change of it. -/
def updCell (s : State) (c : Fin 512) (f : Cell → Cell) : State :=
  { s with cells := s.cells.set c (f s.cells[c]) }

/-- A domain after a change of it. -/
def updDom (s : State) (d : Fin 16) (f : Dom → Dom) : State := { s with doms := s.doms.set d (f s.doms[d]) }

/-- A tracker after a change of it. -/
def updTrk (s : State) (k : Fin 16) (f : Tracker → Tracker) : State := { s with trks := s.trks.set k (f s.trks[k]) }

/-- A block sequencer after a change of it. -/
def updBlk (s : State) (b : Fin 32) (f : Block → Block) : State := { s with blks := s.blks.set b (f s.blks[b]) }

/-- A position channel after a change of it. -/
def updChan (s : State) (c : Fin 64) (f : Channel → Channel) : State := { s with chans := s.chans.set c (f s.chans[c]) }

/-- A converter after a change of it. -/
def updAdc (s : State) (a : Fin 32) (f : Converter → Converter) : State := { s with adcs := s.adcs.set a (f s.adcs[a]) }

/-- An ADC sequencer after a change of it. -/
def updSeq (s : State) (r : Fin 4) (f : Sequencer → Sequencer) : State := { s with seqs := s.seqs.set r (f s.seqs[r]) }

/-- A comparator after a change of it. -/
def updComp (s : State) (w : Fin 64) (f : Comparator → Comparator) : State :=
  { s with comps := s.comps.set w (f s.comps[w]) }

/-- A carrier. -/
def carrier (s : State) (c : Carrier) : CarrierSt :=
  match c with
  | .block b => s.bcar[b]
  | .gang r => s.gcar[r]

/-- A carrier after a change of it. -/
def updCarrier (s : State) (c : Carrier) (f : CarrierSt → CarrierSt) : State :=
  match c with
  | .block b => { s with bcar := s.bcar.set b (f s.bcar[b]) }
  | .gang r => { s with gcar := s.gcar.set r (f s.gcar[r]) }

/-- R8: the block of a cell. -/
def blockOf (c : Fin 512) : Fin 32 := Fin.ofNat 32 (c.val / 16)

/-- R8: the region of a cell. -/
def regionOf (c : Fin 512) : Fin 4 := Fin.ofNat 4 (c.val / 128)

/-- R8: the region of a block. -/
def regionOfBlock (b : Fin 32) : Fin 4 := Fin.ofNat 4 (b.val / 8)

/-- R8: the place of a cell in its block. -/
def cellIn (c : Fin 512) : Fin 16 := Fin.ofNat 16 c.val

/-- R8: cell `n` of a block. -/
def cellOf (b : Fin 32) (n : Fin 16) : Fin 512 := Fin.ofNat 512 (b.val * 16 + n.val)

/-- The 16 cells of a block. -/
def cellsOfBlock (b : Fin 32) : List (Fin 512) := (List.finRange 16).map (cellOf b)

/-- The 128 cells of a region. -/
def cellsOfRegion (r : Fin 4) : List (Fin 512) := (List.range 128).map (fun i => Fin.ofNat 512 (r.val * 128 + i))

/-! ### Time -/

/-- Line time of the present tick. -/
def now (s : State) : Time := s.time.lt

/-- The tick count of a line time near the present one. -/
def absOf (s : State) (t : Time) : Nat := ((s.time.tick : Int) + (t - s.time.lt).toInt).toNat

/-- The line time of a tick count near the present one. -/
def ltAt (s : State) (n : Nat) : Time := s.time.lt + BitVec.ofInt 48 ((n : Int) - (s.time.tick : Int))

/-- A tick offset from a line time. -/
def plus (t : Time) (n : Nat) : Time := t + BitVec.ofNat 48 n

/-- A line time `t` has come: it is the present one or lies before it (R30). -/
def due (s : State) (t : Time) : Bool := !after t (now s)

/-- The state `n` ticks later, for an effect the spec puts in a later tick of the same row: `f` runs with that tick as
the present one. -/
def inTick (s : State) (n : Nat) (f : State → State) : State :=
  let z := f { s with time := { s.time with tick := s.time.tick + n, lt := s.time.lt + BitVec.ofNat 48 n } }
  { z with time := { z.time with tick := s.time.tick, lt := s.time.lt } }

/-- A value the spec leaves open: the free value at the model's counter, which moves on (log entry 15). -/
def freeVal (s : State) (w : Nat) : BitVec w := (Config.freeValue s.freshN).setWidth w

/-- Moving the free-value counter on. -/
def nextFree (s : State) : State := { s with freshN := s.freshN + 1 }

/-! ### Records and outputs -/

/-- R112, R194: the order of one source's records that carry one timestamp. -/
def recRank (r : Rec) : Nat :=
  if r.typ = 0x24 then 0
  else if r.typ = 0x21 then 1
  else if r.typ = 0x22 then 2
  else if r.typ = 0x20 then (if bit r.a 23 then 4 else 3)
  else if r.typ = 0x23 then (if fld r.b 23 22 = 1 then 4 else 3)
  else if r.typ = 0x43 then 0
  else if r.typ = 0x40 then 1
  else if r.typ = 0x42 then 2
  else if r.typ = 0x41 then 3
  else 5

/-- R19: whether a placed record stays before a new one. -/
def placedBefore (old new : Placed) : Bool :=
  if old.tick ≠ new.tick then decide (old.tick < new.tick)
  else if old.tier ≠ new.tier then decide (old.tier < new.tier)
  else if old.body.src = new.body.src ∧ old.body.ts = new.body.ts then decide (recRank old.body ≤ recRank new.body)
  else true

/-- R19: placing a record in the ring arbiter, in order of commit tick, then of the record's level. -/
def placeRec (l : List Placed) (p : Placed) : List Placed :=
  match l with
  | [] => [p]
  | q :: t => if placedBefore q p then q :: placeRec t p else p :: q :: t

/-- R19: a record committed in tick `tick` goes to the ring arbiter. Levels: regions 0 to 3, domains 4 to 19, the
Electrum link 20, the collector 21, the supervisor 22. -/
def emitAt (s : State) (ring : Nat) (tick tier : Nat) (r : Rec) : State :=
  { s with host := { s.host with arb := placeRec s.host.arb ⟨Fin.ofNat 16 ring, tick, tier, r⟩ } }

/-- A region's record: counted in RGN_RECORDS (R48) and placed at the region's level. -/
def emitRegion (s : State) (r : Fin 4) (ring : Nat) (tick : Nat) (x : Rec) : State :=
  bump (emitAt s ring tick r.val x) (.region r 0x26) 23 0 1

/-- A message on the host's bus. -/
def busOut (s : State) (m : BusMsg) : State := { s with host := { s.host with bus := s.host.bus ++ [m] } }

/-- A detector reports a fault (R301); the collector takes it in at the end of the step. -/
def report (s : State) (cls : Byte) (home : Scope) (detail : Nat) (masked : Bool) : State :=
  { s with flt := { s.flt with reports := s.flt.reports ++ [⟨cls, home, word detail, masked, s.time.tick, now s⟩] } }

/-- The reset value of a stored host register (R277): DUMMY of H_SPI_CFG is 8, the others are 0. -/
def hregReset (a : Nat) : Word32 := if a = 0x080 then 8 else 0

/-- A stored host register, by its BAR0 offset. -/
def hreg (s : State) (a : Nat) : Word32 := memGet hregReset s.host.hregs a

/-- Storing a host register. -/
def setHreg (s : State) (a : Nat) (v : Word32) : State :=
  { s with host := { s.host with hregs := memPut hregReset s.host.hregs a v } }

/-- R272, R289: a vector is sent, or held pending while it is masked or while bus mastering is off. -/
def sendVector (s : State) (vec : Fin 32) : State :=
  if s.host.msixFnMask || bit s.host.msixMask vec.val || !s.host.busMaster then
    { s with host := { s.host with msixPend := s.host.msixPend ||| BitVec.ofNat 32 (2 ^ vec.val) } }
  else busOut s (.msix vec)

/-- Setting causes in H_IRQ_STAT (R279); a cause enabled in H_IRQ_MASK that becomes 1 sends H_IRQ_MISC_VEC (R289). -/
def raiseIrq (s : State) (i : Nat) : State :=
  let was := bit s.host.irqStat i
  let mask := hreg s 0x044
  let vec := Fin.ofNat 32 (hreg s 0x048).toNat
  let s0 := noteHost s 0x040 (s.host.irqStat.setWidth 24) (fun a => a ||| word (2 ^ i))
  let s1 := { s0 with host := { s0.host with irqStat := s0.host.irqStat ||| BitVec.ofNat 32 (2 ^ i) } }
  if !was && bit mask i && decide (s.host.transport = .pcie) then sendVector s1 vec else s1

/-- R298: the code of a requester in the violation log. -/
def violWho (r : Requester) : Nat × Nat :=
  match r with
  | .host => (2, 0)
  | .supervisor => (2, 0)
  | .block b => (3, b.val)
  | .debug => (4, 0)

/-- R298: entering a violation: requester code, access, space, block, code, SEQ. The log keeps the 16 most recent and
counts what it overwrites, and H_IRQ_STAT.VIOLATION is set (R322). -/
def violation (s : State) (addr : Nat) (who access space blk code seq : Nat) : State :=
  let info := BitVec.ofNat 32 (who * 2 ^ 28 + access * 2 ^ 24 + space * 2 ^ 21 + blk * 2 ^ 16 + code * 2 ^ 8 + seq % 256)
  let v : Viol := ⟨BitVec.ofNat 32 addr, info, now s⟩
  let full := decide (16 ≤ s.host.vlog.length)
  let log := (if full then s.host.vlog.drop 1 else s.host.vlog) ++ [v]
  let lost := if full then BitVec.ofNat 8 (satAdd 8 s.host.vlogLost.toNat 1) else s.host.vlogLost
  raiseIrq { s with host := { s.host with vlog := log, vlogLost := lost } } 2

/-! ### Crossbar selections -/

/-- What a crossbar code selects in region `r` (R22, R82): a TIO input or a chip-wide line. -/
inductive XSrc where
  | tio (n : Fin 512)
  | line (k : Fin 16)
deriving DecidableEq, Repr

/-- R22, R82, R170: codes 0 to 127 a TIO of the region, 128 to 143 a chip-wide line, others none. -/
def xbar (r : Fin 4) (code : Nat) : Option XSrc :=
  if code < 128 then some (.tio (Fin.ofNat 512 (r.val * 128 + code)))
  else if code < 144 then some (.line (Fin.ofNat 16 (code - 128)))
  else none

/-- R82: the filter length of a TIO ball, held by the cell that owns it. -/
def filtLen (s : State) (n : Fin 512) : Nat := regFld s (.cell n 0x0C) 16 12

/-- R23, R42: the source of a chip-wide line, as KIND and INDEX of its XL_SEL. -/
def lineSel (s : State) (k : Fin 16) : Nat × Nat :=
  (regFld s (.chip (0x30 + k.val)) 10 9, regFld s (.chip (0x30 + k.val)) 8 0)

/-- R36: the ticks a path adds to the minimum: filter beyond 2 ticks, and 4 ticks through a chip-wide line. -/
def pathDelay (s : State) (x : XSrc) : Nat :=
  match x with
  | .tio n => filtLen s n - 2
  | .line k =>
    let sel := lineSel s k
    4 + (if sel.1 = 1 then filtLen s (Fin.ofNat 512 sel.2) - 2 else 0)

/-- R8: the region of a tracker. -/
def regionOfTrk (k : Fin 16) : Fin 4 := Fin.ofNat 4 (k.val / 4)

/-- R8: the region of a channel. -/
def regionOfChan (c : Fin 64) : Fin 4 := Fin.ofNat 4 (c.val / 16)

/-! ### Modes -/

/-- ARM_TIME and ARM_ANGLE are allowed in RUN and DEGRADED only (R293). -/
def inRun (s : State) : Bool := decide (s.sys.mode = .run ∨ s.sys.mode = .degraded)

/-- R342: ARM_TIME and ARM_ANGLE are accepted from the tick after a transition into RUN or DEGRADED. -/
def armsOk (s : State) : Bool := inRun s && !s.flt.leaving.contains .chip

/-- R27: the device has power and its core clock. -/
def clockOn (s : State) : Bool := !s.time.clk.coreLost && decide (s.sys.mode ≠ .retention)

/-- The device's clock runs and the firmware has left BOOT: the units work (R27, R325). -/
def alive (s : State) : Bool :=
  !s.time.clk.coreLost && decide (s.sys.mode ≠ .boot ∧ s.sys.mode ≠ .retention)

end Sys2Proof.Machine
end

