-- ==== Sys2Proof/Machine/Analogue.lean ====
section
/-!
DEFINITION. What the leaves hold of a domain (02_angle_domains.md R62), and converters, ADC sequencers and window
comparators (08_analogue_front_end.md R218 to R243).
-/
namespace Sys2Proof.Machine

/-! ### Leaves of the Invar tree -/

/-- R37: the prescaler of a domain, 2^PRESC. -/
def prescOf (s : State) (d : Fin 16) : Nat := 2 ^ regFld s (.dom d 0x01) 19 16

/-- R38, R78: the teeth per cycle, TEETH + 1. -/
def teethOf (s : State) (d : Fin 16) : Nat := regFld s (.dom d 0x02) 11 0 + 1

/-- R62: the micro-tick the leaves hold in the present tick. -/
def leafMicro (s : State) (d : Fin 16) : Nat :=
  match s.doms[d].leafMicro with
  | some m => m.toNat
  | none =>
    let p := s.doms[d].leafPeriod.toNat * prescOf s d
    if p = 0 then 0 else min 4095 (4096 * (now s - s.doms[d].leafPin).toNat / p)

/-- R50: the angle word the leaves hold. -/
def leafAngle (s : State) (d : Fin 16) : Word := angleWord s.doms[d].leafIdx.toNat (leafMicro s d)

/-- R64: SYNCED or SUSPECT at the leaves. -/
def armable (s : State) (d : Fin 16) : Bool := decide (s.doms[d].leafSt = .synced ∨ s.doms[d].leafSt = .suspect)

/-- R95: `a` lies before `b` as cycle counters, modulo 2^24 with half range 2^23. -/
def cycleBefore (a b : Word) : Bool := 1 ≤ (b - a).toNat && decide ((b - a).toNat < 2 ^ 23)

/-! ### Converters -/

/-- Converters work in every mode in which the device runs but POWER-FAIL (R229). -/
def adcOn (s : State) : Bool := alive s && decide (s.sys.mode ≠ .powerFail)

/-- R8: the region of a converter. -/
def regionOfAdc (a : Fin 32) : Fin 4 := Fin.ofNat 4 (a.val / 8)

/-- R223: a converter is owned while an enabled SINCOS channel names its pair. -/
def adcOwned (s : State) (a : Fin 32) : Bool :=
  (List.finRange 64).any (fun c =>
    decide (regionOfChan c = regionOfAdc a) && regBit s (.chan c 0x00) 0 &&
      decide (regFld s (.chan c 0x01) 2 0 = 3) && decide (regFld s (.chan c 0x07) 9 8 = (a.val % 8) / 2))

/-- R223: the owned pair of a SINCOS channel has sampled: it samples every 80 ticks, so it is busy from then on. -/
def pairSamples (s : State) (c : Fin 64) : Bool :=
  s.chans[c].lastPulse.isSome ||
    (match s.chans[c].base with
     | some b => after (now s - BitVec.ofNat 48 ((now s).toNat % 80)) b
     | none => true)

/-- R220, R223, R238: a converter is converting: up to 79 ticks after a sample instant. -/
def adcBusy (s : State) (a : Fin 32) : Bool :=
  decide (s.time.tick < s.adcs[a].freeAt) ||
    (List.finRange 64).any (fun c =>
      decide (regionOfChan c = regionOfAdc a) && regBit s (.chan c 0x00) 0 &&
        decide (regFld s (.chan c 0x01) 2 0 = 3) && decide (regFld s (.chan c 0x07) 9 8 = (a.val % 8) / 2) &&
        pairSamples s c)

/-- R224: a word of a trigger-list entry. -/
def sqWord (s : State) (r : Fin 4) (e : Fin 64) (w : Nat) : Word :=
  memGet (zeroMem 24) s.mem.sqList (r.val * 256 + e.val * 4 + w)

/-- Storing a trigger-list word. -/
def setSqWord (s : State) (r : Fin 4) (e : Fin 64) (w : Nat) (v : Word) : State :=
  { s with mem := { s.mem with sqList := memPut (zeroMem 24) s.mem.sqList (r.val * 256 + e.val * 4 + w) v } }

/-- R224: the entry is enabled. -/
def sqEn (s : State) (r : Fin 4) (e : Fin 64) : Bool := bit (sqWord s r e 0) 23

/-- R228: pending triggers in order of trigger instant, then of entry. -/
def insertTrigger (l : List Trigger) (t : Trigger) : List Trigger :=
  match l with
  | [] => [t]
  | u :: rest =>
    if u.at_ < t.at_ ∨ (u.at_ = t.at_ ∧ u.entry ≤ t.entry) then u :: insertTrigger rest t else t :: u :: rest

/-- R228: the converters of a trigger that are enabled and not owned, and whether an owned one was left out. -/
def usable (s : State) (r : Fin 4) (e : Fin 64) : List (Fin 32) :=
  ((List.range 8).filter (fun j => bit (sqWord s r e 2) (16 + j))).map (fun j => Fin.ofNat 32 (r.val * 8 + j)) |>.filter
    (fun a => regBit s (.adc a 0x1) 0 && !adcOwned s a)

/-- R228: a trigger of an entry: counted, then held as pending; a seventeenth is discarded; one that names no usable
converter converts nothing. An owned converter left out sets OWNED_SKIP (R223). -/
def sqTrigger (s : State) (r : Fin 4) (e : Fin 64) (at_ : Nat) (jump : Bool) : State :=
  if !(adcOn s && regBit s (.seqr r 0x0) 0 && sqEn s r e && !s.seqs[r].held) then s
  else
    let skip := (List.range 8).any (fun j => bit (sqWord s r e 2) (16 + j) && adcOwned s (Fin.ofNat 32 (r.val * 8 + j)))
    let s0 := if skip then orReg s (.seqr r 0x4) 0x020000 else s
    let s1 := if jump then bump s0 (.seqr r 0x7) 23 0 1 else s0
    let s2 := updSeq s1 r (fun q => { q with counts := q.counts.set e (q.counts[e] + 1) })
    if (usable s r e).isEmpty then s2
    else if 16 ≤ s.seqs[r].pend.length then bump (orReg s2 (.seqr r 0x4) 0x040000) (.seqr r 0x5) 23 0 1
    else updSeq s2 r (fun q => { q with pend := insertTrigger q.pend ⟨e, at_, jump⟩ })

/-- R226: one source can trigger any number of entries. -/
def sqTriggerAll (s : State) (r : Fin 4) (sel : Word → Bool) (at_ : Nat) : State :=
  (List.finRange 64).foldl (fun x e => if sel (sqWord x r e 0) then sqTrigger x r e at_ false else x) s

/-- R226, CELL: the converter trigger of a cell. -/
def cellTrigger (s : State) (c : Fin 512) (at_ : Nat) : State :=
  sqTriggerAll s (regionOf c) (fun w => decide (fld w 22 20 = 4 ∧ fld w 6 0 = c.val % 128)) at_

/-- R156, R226: a carrier's trigger compare fires. -/
def carrierTrigger (s : State) (c : Carrier) (k : Fin 4) (at_ : Nat) : State :=
  match c with
  | .block b =>
    sqTriggerAll s (regionOfBlock b)
      (fun w => decide (fld w 22 20 = 2 ∧ fld w 4 2 = b.val % 8 ∧ fld w 1 0 = k.val)) at_
  | .gang r => sqTriggerAll s r (fun w => decide (fld w 22 20 = 3 ∧ fld w 1 0 = k.val)) at_

/-- R228: the first pending trigger that can sample now: its instant has come, its converters are free, and no earlier
waiting trigger names any of them. `busy` gathers the converters of earlier waiting triggers. -/
def firstReady (s : State) (r : Fin 4) (busy : List (Fin 32)) (l : List Trigger) : Option Trigger :=
  match l with
  | [] => none
  | t :: rest =>
    let us := usable s r t.entry
    if decide (t.at_ ≤ s.time.tick) && us.all (fun a => decide (s.adcs[a].freeAt ≤ s.time.tick) && !busy.contains a)
    then some t else firstReady s r (busy ++ us) rest

/-- R241: SQ_MAXWAIT keeps the largest wait since it was last read (R15). -/
def noteMaxWait (s : State) (r : Fin 4) (w : Nat) : State :=
  let m := word (min w 0xFFFFFF)
  let top := fun (a : Word) => if a < m then m else a
  setReg (noteFresh s (.seqr r 0xF) top) (.seqr r 0xF) (top (reg s (.seqr r 0xF)))

/-- R220, R228: CONVERSION_START. All converters of the trigger share one sample instant and hold the inputs that ADC_CFG
selects then; after its instant it is LATE. Triggers that no longer name a usable converter convert nothing. -/
def doConversionStart (r : Fin 4) (s0 : State) : State :=
  if !adcOn s0 then s0
  else
    let s := updSeq s0 r (fun q =>
      { q with pend := q.pend.filter (fun t => decide (s0.time.tick < t.at_) || !(usable s0 r t.entry).isEmpty) })
    match firstReady s r [] s.seqs[r].pend with
    | none => s
    | some t =>
      let late := decide (t.at_ < s.time.tick)
      let src := (t.entry, s.seqs[r].counts[t.entry], Fin.ofNat 16 (fld (sqWord s r t.entry 2) 15 12))
      let s1 := updSeq s r (fun q => { q with pend := q.pend.erase t, lastEntry := t.entry, lastT := now s })
      let s2 := (usable s r t.entry).foldl (fun x a => updAdc x a (fun v =>
        { v with freeAt := s.time.tick + 80,
                 flight := v.flight ++ [⟨s.time.tick, now s, reg s (.adc a 0x0), some src, late, t.jump⟩] })) s1
      noteMaxWait (if late then bump s2 (.seqr r 0x6) 23 0 1 else s2) r (s.time.tick - t.at_)

/-- R219: the code of a reading in microvolts, limited to 0 to 16,383. -/
def adcCode (uV : Int) : Nat := (max 0 (min 16383 ((16384 * uV) / 1800000))).toNat

/-- R221: the result word. -/
def resultWord (late jump : Bool) (input code : Nat) : Word :=
  word (bitAt late 23 + bitAt jump 22 + bitAt (decide (code = 0 ∨ code = 16383)) 21 + input * 2 ^ 14 + code)

/-- R222: a result goes to ADC_LAST and to the buffer. -/
def deliverResult (s : State) (a : Fin 32) (t : Time) (w : Word) : State :=
  let s1 := updAdc s a (fun v => { v with last := w, lastT := t })
  let len := regFld s (.adc a 0x5) 23 20
  let flags := (if bit w 21 then 8 else 0) + (if bit w 23 then 4 else 0) + (if bit w 22 then 2 else 0)
  let s2 := orReg s1 (.adc a 0x7) flags
  if len = 0 then s2
  else
    let n := 2 ^ (len + 3)
    let i := s.adcs[a].index.toNat % n
    let k := (regFld s (.adc a 0x5) 15 0 + i) % 65536
    let s3 := askBank s2 (regionOfAdc a) k 8 (some w)
    updAdc s3 a (fun v =>
      { v with index := BitVec.ofNat 12 ((i + 1) % n), wraps := if (i + 1) % n = 0 then v.wraps + 1 else v.wraps })

/-- R219 to R222: CONVERSION_RESULT. The operands are the voltages at the positive and negative ball in microvolts. -/
def doConversionResult (a : Fin 32) (vp vn : Int) (s : State) : State :=
  match s.adcs[a].flight with
  | [] => s
  | x :: rest =>
    if !adcOn s || decide (s.time.tick < x.at_ + 72) then s
    else
      let code := adcCode (if fld x.cfg 12 8 = 0x1F then vp else vp - vn)
      let input := (regionOfAdc a).val * 24 + fld x.cfg 4 0
      let w := resultWord x.late x.jump input code
      let s1 := deliverResult (updAdc s a (fun v => { v with flight := rest })) a x.t w
      match x.src with
      | none => s1
      | some (e, cnt, ring) =>
        if bit (sqWord s (regionOfAdc a) e 2) 11 then
          (emitRegion s1 (regionOfAdc a) ring.val (x.at_ + 72)
            ⟨0x50, BitVec.ofNat 16 a.val, x.t, w, word (e.val * 2 ^ 18 + cnt.toNat)⟩)
        else s1

/-- R227: LIVE_ANGLE_COMPARE. An ANGLE entry matches when the leaves hold its angle, or one past it, in its target
cycle; in the update tick of a counted jump it carries JUMP (R106). -/
def doLiveAngleCompare (r : Fin 4) (e : Fin 64) (s : State) : State :=
  let w0 := sqWord s r e 0
  let d : Fin 16 := Fin.ofNat 16 (fld w0 19 16)
  let a := sqWord s r e 1
  let tgt := s.seqs[r].target[e]
  let cyc := s.doms[d].leafCycle
  let reached := decide (a.toNat ≤ (leafAngle s d).toNat)
  if adcOn s && regBit s (.seqr r 0x0) 0 && sqEn s r e && decide (fld w0 22 20 = 1) && armable s d &&
      (cycleBefore tgt cyc || (decide (cyc = tgt) && reached)) then
    let jump := decide (s.doms[d].jumpTick = some s.time.tick)
    let s1 := updSeq s r (fun q => { q with target := q.target.set e (if reached then cyc + 1 else cyc) })
    (sqTrigger s1 r e s.time.tick jump)
  else s

/-! ### Commands on the converter parameters

Every write of a parameter answers the status of R291 with the next state; the row's meaning and WRITE_PARAM both call
these. -/

/-- R291: status codes. -/
inductive Status where
  | ok | opcodeInvalid | addrInvalid | staticLocked | modeRefused | targetMode | targetBusy | conflict | timePast
  | domainOff | overlap | anglePast | queueFull | notFound | scopeFault | noSession | sessionBusy | versionMismatch
  | seqError | dmaError | accessDenied | signatureFail | verifyFail | entryInvalid | routineAbort | notLatched
  | faultActive | checkFail
deriving DecidableEq, Repr

/-- R291: the code of a status. -/
def Status.code (t : Status) : Nat :=
  match t with
  | .ok => 0x00 | .opcodeInvalid => 0x01 | .addrInvalid => 0x02 | .staticLocked => 0x03 | .modeRefused => 0x04
  | .targetMode => 0x05 | .targetBusy => 0x06 | .conflict => 0x07 | .timePast => 0x08 | .domainOff => 0x09
  | .overlap => 0x0A | .anglePast => 0x0B | .queueFull => 0x0C | .notFound => 0x0D | .scopeFault => 0x0E
  | .noSession => 0x0F | .sessionBusy => 0x10 | .versionMismatch => 0x11 | .seqError => 0x12 | .dmaError => 0x13
  | .accessDenied => 0x14 | .signatureFail => 0x15 | .verifyFail => 0x16 | .entryInvalid => 0x17
  | .routineAbort => 0x18 | .notLatched => 0x19 | .faultActive => 0x1A | .checkFail => 0x1B

/-- R226: SQ_SWTRIG names an entry; one that is not an enabled HOST entry completes with TARGET_MODE. -/
def writeSqSwtrig (s : State) (r : Fin 4) (v : Word) : State × Status :=
  let e : Fin 64 := Fin.ofNat 64 (fld v 5 0)
  if sqEn s r e && decide (fld (sqWord s r e 0) 22 20 = 0) then (sqTrigger s r e (s.time.tick + 1) false, .ok)
  else (s, .targetMode)

/-- R224, R225: an enabled entry carries no reserved code or bit, names a converter, and an angle inside the domain's
cycle. -/
def sqEntryBad (s : State) (w0 w1 w2 : Word) : Bool :=
  let k := fld w0 22 20
  let d : Fin 16 := Fin.ofNat 16 (fld w0 19 16)
  decide (5 ≤ k) || decide (fld w0 15 8 ≠ 0) || decide (fld w2 10 0 ≠ 0) || decide (fld w2 23 16 = 0) ||
    (decide (k ≠ 1) && (decide (fld w0 19 16 ≠ 0) || decide (w1 ≠ 0))) ||
    (decide (k = 1) && decide (teethOf s d ≤ fld w1 23 12)) ||
    (decide (k ≤ 1) && decide (fld w0 7 0 ≠ 0)) ||
    (decide (k = 2) && decide (32 ≤ fld w0 7 0)) || (decide (k = 3) && decide (4 ≤ fld w0 7 0)) ||
    (decide (k = 4) && decide (128 ≤ fld w0 7 0))

/-- R242: the address after a list access with AUTO_INC. -/
def sqNextAddr (a : Word) : Word :=
  if !bit a 8 then a
  else if fld a 1 0 = 2 then setFld (setFld a 1 0 0) 7 2 ((fld a 7 2 + 1) % 64)
  else setFld a 1 0 (fld a 1 0 + 1)

/-- R229: disabling an entry discards its pending triggers. -/
def sqDiscard (s : State) (r : Fin 4) (p : Trigger → Bool) : State :=
  updSeq s r (fun q => { q with pend := q.pend.filter (fun t => !p t) })

/-- R225, R227, R229, R242: a write of a list word at the requester's address `a`, which a following access finds
advanced. -/
def writeSqListData (s : State) (who : Requester) (r : Fin 4) (a v : Word) : State × Status :=
  let l : PLoc := .seqr r 0x1
  let e : Fin 64 := Fin.ofNat 64 (fld a 7 2)
  let w := fld a 1 0
  let adv := fun (x : State) => setSel x who l (sqNextAddr a)
  if w = 3 then (s, .addrInvalid)
  else if sqEn s r e && !(decide (w = 0) && !bit v 23) then (s, .targetBusy)
  else if decide (w = 0) && bit v 23 then
    if sqEntryBad s v (sqWord s r e 1) (sqWord s r e 2) then (s, .addrInvalid)
    else
      let d : Fin 16 := Fin.ofNat 16 (fld v 19 16)
      let cyc := s.doms[d].leafCycle
      let tgt := if (leafAngle s d).toNat < (sqWord s r e 1).toNat then cyc else cyc + 1
      (adv (updSeq (setSqWord s r e w v) r (fun q => { q with target := q.target.set e tgt })), .ok)
  else if w = 0 then (adv (sqDiscard (setSqWord s r e w v) r (fun t => decide (t.entry = e))), .ok)
  else (adv (setSqWord s r e w v), .ok)

/-- R229: SQ_CTRL.EN; clearing it discards every pending trigger. -/
def writeSqCtrl (s : State) (r : Fin 4) (v : Word) : State × Status :=
  let s1 := setReg s (.seqr r 0x0) (v &&& 1)
  if bit v 0 then (s1, .ok) else (sqDiscard s1 r (fun _ => true), .ok)

/-- R229: ADC_CTRL.EN. -/
def writeAdcCtrl (s : State) (a : Fin 32) (v : Word) : State × Status := (setReg s (.adc a 0x1) (v &&& 1), .ok)

/-- R237: a read of ADC_LAST captures its sample instant for the requester. -/
def readAdcLast (s : State) (who : Requester) (a : Fin 32) : Word × State :=
  let t := s.adcs[a].lastT
  (s.adcs[a].last, setCap (setCap s who (.adc a 0x3) (loWord t)) who (.adc a 0x4) (hiWord t))

/-! ### Window comparators -/

/-- R231: propagation and settling in ticks of a mode. -/
def compProp (m : Nat) : Nat := if m = 0 then 8 else if m = 1 then 48 else if m = 2 then 800 else 16000

/-- R231: settling after enabling. -/
def compSettle (m : Nat) : Nat := if m = 0 then 1600 else if m = 1 then 4000 else if m = 2 then 16000 else 160000

/-- R234: a zone lies in TRIP_ZONE. -/
def zoneTrips (tz : Nat) (z : Zone) : Bool :=
  match z with
  | .inside => false
  | .above => decide (tz = 1 ∨ tz = 3)
  | .below => decide (tz = 2 ∨ tz = 3)

/-- R236: the code of a zone. -/
def zoneCode (z : Zone) : Nat :=
  match z with
  | .inside => 0
  | .above => 1
  | .below => 2

/-- R8, R218: the region of a comparator. -/
def regionOfComp (w : Fin 64) : Fin 4 := Fin.ofNat 4 (w.val / 16)

/-- R234: giving the trip output a level. A 0-to-1 change sets TRIP_SEEN, its tick and its count, and raises the fault
that WC_CFG.FAULT names. -/
def setTrip (w : Fin 64) (trip : Bool) (s : State) : State :=
  let was := s.comps[w].trip
  let s1 := updComp s w (fun c => { c with trip := trip })
  if trip && !was then
    let s2 := bump (orReg (updComp s1 w (fun c => { c with tripT := now s })) (.comp w 0x5) 1) (.comp w 0x9) 23 12 1
    let f := regFld s (.comp w 0x1) 12 11
    if f = 1 then report s2 0x24 (.region (regionOfComp w)) w.val false
    else if f = 2 then report s2 0x2C .chip w.val false
    else s2
  else s1

/-- R234: the trip output that the filtered zone and UNRESOLVED give. -/
def tripLevel (s : State) (w : Fin 64) (z : Zone) (unresolved : Bool) : Bool :=
  if unresolved then decide (regFld s (.comp w 0x1) 10 9 = 3)
  else zoneTrips (regFld s (.comp w 0x1) 8 7) z

/-- R230: an input in microvolts against a threshold code and half a hysteresis: above the band, below it. -/
def overBand (uV : Int) (q h : Nat) : Bool := decide ((q : Int) * 1800000 + 512 * h < 1024 * uV)

/-- R230: an input in microvolts below the band of a threshold. -/
def underBand (uV : Int) (q h : Nat) : Bool := decide (1024 * uV < (q : Int) * 1800000 - 512 * h)

/-- R235: the code that a threshold stands for in the present tick: a value between the old and the new one that the spec
leaves open while it settles (log entry 96). -/
def thrNow (s : State) (m : Option Moving) (q : Nat) : Nat :=
  match m with
  | some x =>
    if s.time.tick < x.until_ then x.least + (freeVal s 16).toNat % (x.most - x.least + 1) else q
  | none => q

/-- R230: HYST in microvolts. -/
def hystOf (s : State) (w : Fin 64) : Nat :=
  let k := regFld s (.comp w 0x1) 6 5
  if k = 3 then 40000 else 10000 * k

/-- R230: the comparator judges its input: each band's side follows an input outside the band and keeps its side
inside it; UNRESOLVED clears outside both bands (R233). -/
def judge (s : State) (w : Fin 64) (uV : Int) : State :=
  let h := hystOf s w
  let hi := thrNow s s.comps[w].hiMove (regFld s (.comp w 0x3) 9 0)
  let s1 := nextFree s
  let lo := thrNow s1 s.comps[w].loMove (regFld s (.comp w 0x2) 9 0)
  let outHi := overBand uV hi h || underBand uV hi h
  let outLo := overBand uV lo h || underBand uV lo h
  updComp (nextFree s1) w (fun c =>
    { c with
      hiSide := if overBand uV hi h then true else if underBand uV hi h then false else c.hiSide
      loSide := if underBand uV lo h then true else if overBand uV lo h then false else c.loSide
      unresolved := c.unresolved && !(outHi && outLo) })

/-- R230: the raw zone of the two sides. -/
def rawZone (c : Comparator) : Zone := if c.hiSide then .above else if c.loSide then .below else .inside

/-- R232, R234, R236: the filtered zone becomes `z`: the trip output follows, a change is counted and recorded. `u0` is
UNRESOLVED before. -/
def setZone (s : State) (w : Fin 64) (z : Zone) (u0 : Bool) : State :=
  let old := s.comps[w].zone
  let u1 := s.comps[w].unresolved
  let trip := tripLevel s w z u1
  let s1 := setTrip w trip (updComp s w (fun c => { c with zone := z }))
  if old = z then s1
  else
    let s2 := bump s1 (.comp w 0x9) 11 0 1
    if regBit s (.comp w 0x6) 19 then
      let prop := compProp (regFld s (.comp w 0x1) 1 0)
      emitRegion s2 (regionOfComp w) (regFld s (.comp w 0x6) 23 20) s.time.tick
        ⟨0x51, BitVec.ofNat 16 w.val, now s - BitVec.ofNat 48 prop,
          word (zoneCode z * 2 ^ 22 + zoneCode old * 2 ^ 20 + bitAt trip 19 + bitAt u0 18), word w.val⟩
    else s2

/-- R233: the comparator settles. -/
def settling (s : State) (w : Fin 64) : Bool :=
  match s.comps[w].settleEnd with
  | some t => decide (s.time.tick < t)
  | none => false

/-- A comparator is enabled, settled and powered. -/
def compReady (s : State) (w : Fin 64) : Bool := alive s && regBit s (.comp w 0x0) 0 && !settling s w

/-- R230, R232: RAW_ZONE_CHANGE. With the filter off the filtered zone is the raw zone; with it on the zone stays, and the
trip output follows UNRESOLVED (R234). -/
def doRawZoneChange (w : Fin 64) (uV : Int) (s : State) : State :=
  if !compReady s w then s
  else
    let u0 := s.comps[w].unresolved
    let s1 := judge s w uV
    setZone s1 w (if regFld s (.comp w 0x4) 7 4 = 0 then rawZone s1.comps[w] else s1.comps[w].zone) u0

/-- R232: the present tick is one of the filter's: every FILT_DIV-th tick from the end of settling on (log entry 97). -/
def filterTick (s : State) (w : Fin 64) : Bool :=
  let e := (s.comps[w].settleEnd).getD s.comps[w].settled
  decide (e ≤ s.time.tick ∧ (s.time.tick - e) % (regFld s (.comp w 0x4) 23 16 + 1) = 0)

/-- R232: FILTER_SAMPLE. The filtered zone becomes the zone that at least FILT_K of the last FILT_N samples are. -/
def doFilterSample (w : Fin 64) (uV : Int) (s : State) : State :=
  let n := regFld s (.comp w 0x4) 7 4
  let k := regFld s (.comp w 0x4) 3 0
  if !compReady s w || decide (n = 0) || !filterTick s w then s
  else
    let u0 := s.comps[w].unresolved
    let s1 := judge s w uV
    let s2 := updComp s1 w (fun c => { c with samples := (rawZone c :: c.samples).take n })
    let cnt := fun (z : Zone) => (s2.comps[w].samples.filter (fun y => decide (y = z))).length
    let z := if k ≤ cnt .inside then Zone.inside else if k ≤ cnt .above then .above
      else if k ≤ cnt .below then .below else s2.comps[w].zone
    setZone s2 w z u0

/-- R233: SETTLING_END. Sampling begins. -/
def doSettlingEnd (w : Fin 64) (s : State) : State :=
  match s.comps[w].settleEnd with
  | none => s
  | some t =>
    if alive s && decide (t ≤ s.time.tick) then updComp s w (fun c => { c with settleEnd := none, settled := t }) else s

/-- R233: the zone INIT preloads. -/
def initZone (s : State) (w : Fin 64) : Zone :=
  let i := regFld s (.comp w 0x1) 10 9
  if i = 0 then .inside
  else if i = 1 then .above
  else if i = 2 then .below
  else if regFld s (.comp w 0x1) 8 7 = 2 then .below else .above

/-- R233: the preload in the present tick, the first of an enabled comparator or one of an entry to CONFIGURE with EN = 1.
No record is emitted (R236). -/
def preload (w : Fin 64) (s : State) : State :=
  let z := initZone s w
  let s1 := updComp s w (fun c =>
    { c with
      hiSide := decide (z = .above)
      loSide := decide (z = .below)
      zone := z
      samples := List.replicate (regFld s (.comp w 0x4) 7 4) z
      unresolved := true
      settleEnd := some (s.time.tick + compSettle (regFld s (.comp w 0x1) 1 0)) })
  setTrip w (tripLevel s1 w z true) s1

/-- R233, R234: WC_CTRL.EN, at the end of the tick of its write. A disabled comparator's trip output is 0. -/
def writeWcCtrl (s : State) (w : Fin 64) (v : Word) : State × Status :=
  let was := regBit s (.comp w 0x0) 0
  let s1 := setReg s (.comp w 0x0) (v &&& 1)
  if bit v 0 then (if was then s1 else inTick s1 1 (preload w), .ok)
  else (updComp (setTrip w false s1) w (fun c => { c with settleEnd := none, unresolved := false }), .ok)

/-- R235: a threshold that moves from code `p` to `q` in the next tick settles in 160 ticks; one that still settles adds what
it can stand for. -/
def moveThr (s : State) (m : Option Moving) (p q : Nat) : Option Moving :=
  let from_ := match m with
    | some x => if s.time.tick < x.until_ then (min x.least p, max x.most p) else (p, p)
    | none => (p, p)
  some ⟨min from_.1 q, max from_.2 q, s.time.tick + 161⟩

/-- R230, R235: a threshold write; THR_LO must not exceed THR_HI. -/
def writeWcThr (s : State) (w : Fin 64) (hi : Bool) (v : Word) : State × Status :=
  let q := fld v 9 0
  let p := regFld s (.comp w (if hi then 0x3 else 0x2)) 9 0
  let bad := if hi then decide (q < regFld s (.comp w 0x2) 9 0) else decide (regFld s (.comp w 0x3) 9 0 < q)
  if bad then (s, .addrInvalid)
  else
    (updComp (setReg s (.comp w (if hi then 0x3 else 0x2)) (word q)) w (fun c =>
      if hi then { c with hiMove := moveThr s c.hiMove p q } else { c with loMove := moveThr s c.loMove p q }), .ok)

end Sys2Proof.Machine
end

