-- ==== Sys2Proof/Machine/Drive.lean ====
section
/-!
DEFINITION. What reaches a ball and what reads it back: scopes in fault state (11_faults_and_recovery.md R304), the pin
drive (03_timer_cells_and_events.md R90), trip levels (05_pwm_and_trips.md R158), bank Z
(15_pins_power_electrical.md R395), chip-wide lines (01_architecture_and_timebase.md R23), wear counters (R373).
-/
namespace Sys2Proof.Machine

/-- R304: a scope holds a cell. -/
def scopeHas (x : Scope) (c : Fin 512) : Bool :=
  match x with
  | .cell d => decide (d = c)
  | .block b => decide (blockOf c = b)
  | .region r => decide (regionOf c = r)
  | .chip => true

/-- R304: a scope is in fault state. -/
def inFault (s : State) (x : Scope) : Bool := s.flt.scopes.any (fun y => decide (y.scope = x))

/-- R307: a cell is held while a scope that holds it is in fault state. -/
def cellHeld (s : State) (c : Fin 512) : Bool := s.flt.scopes.any (fun y => scopeHas y.scope c)

/-- R307: a block is in fault state when a scope that holds all of it is. -/
def blockHeld (s : State) (b : Fin 32) : Bool :=
  inFault s (.block b) || inFault s (.region (regionOfBlock b)) || inFault s .chip

/-- R328, R345: pins follow their sources in RUN and DEGRADED, and in a HALT entered from them. -/
def pinsFollow (s : State) : Bool :=
  !s.time.clk.coreLost &&
    (inRun s || decide (s.sys.mode = .halt ∧ (s.sys.left = .run ∨ s.sys.left = .degraded)))

/-- CELL_CTRL.EN. -/
def cellEn (s : State) (c : Fin 512) : Bool := regBit s (.cell c 0x01) 0

/-- CELL_MODE.MODE (R84). -/
def cellMode (s : State) (c : Fin 512) : Nat := regFld s (.cell c 0x00) 2 0

/-- R90 step 1, R312, R342: the pin is at its safe drive. -/
def pinSafe (s : State) (c : Fin 512) : Bool :=
  !pinsFollow s || cellHeld s c || s.flt.leaving.any (fun y => scopeHas y c) || !cellEn s c || s.cells[c].pwmWait.isSome

/-- R395: the ZIO that takes the place of a TIO ball. -/
def zioOf (s : State) (c : Fin 512) : Option (Fin 16) :=
  (List.finRange 16).find? (fun z => regBit s (.chip (0x80 + z.val)) 15 && decide (regFld s (.chip (0x80 + z.val)) 8 0 = c.val))

/-- R399: the setting of a ZIO that chooses the ball of an edge of the present tick: the one before a write of this tick. -/
def zioFor (s : State) (z : Fin 16) : Word :=
  match s.pins.zioOld.find? (fun p => decide (p.1 = z)) with
  | some p => p.2
  | none => reg s (.chip (0x80 + z.val))

/-- R22, R395: the filtered input level that counts as TIO `n`'s. -/
def inLevel (s : State) (n : Fin 512) : Bool :=
  match zioOf s n with
  | some z => bit s.pins.zioIn z.val
  | none => bit s.pins.tioIn n.val

/-- R23, R42: the level of the source that drives a chip-wide line. -/
def lineSource (s : State) (k : Fin 16) : Bool :=
  let sel := lineSel s k
  if sel.1 = 0 then false
  else if sel.1 = 1 then inLevel s (Fin.ofNat 512 sel.2)
  else if sel.1 = 2 then s.comps[Fin.ofNat 64 sel.2].trip
  else
    let p : Fin 32 := Fin.ofNat 32 sel.2
    bit s.pes[p].out (regFld s (.pewter p 0x01) 22 19)

/-- R23: what drives the sixteen lines. -/
def lineSources (s : State) : BitVec 16 :=
  BitVec.ofNat 16 ((List.finRange 16).foldl (fun a k => a + bitAt (lineSource s k) k.val) 0)

/-- R23: the level of a chip-wide line at the crossbars, 4 ticks after its source; a line that is off reads 0 (R42). -/
def lineLevel (s : State) (k : Fin 16) : Bool :=
  if (lineSel s k).1 = 0 then false
  else
    match s.pins.lines[3]? with
    | some w => bit w k.val
    | none => false

/-- R22: the level of a crossbar code in a region; no input reads 0. -/
def xbarLevel (s : State) (r : Fin 4) (code : Nat) : Bool :=
  match xbar r code with
  | some (.tio n) => inLevel s n
  | some (.line k) => lineLevel s k
  | none => false

/-- The carrier a cell in DUAL-EDGE or GANG mode belongs to (R147, R158). -/
def carrierOf (s : State) (c : Fin 512) : Option Carrier :=
  if cellMode s c = 2 then some (.block (blockOf c))
  else if cellMode s c = 3 then some (.gang (regionOf c))
  else none

/-- R158: the trip level of a cell, 0 low and 1 high. -/
def tripLvl (s : State) (c : Fin 512) : Bool :=
  if cellMode s c = 2 then regBit s (.block (blockOf c) 0x0D) (c.val % 16)
  else regBit s (.gang (regionOf c) (0x10 + (blockOf c).val % 8)) (c.val % 16)

/-- R158, R160: a cell carries its trip level while its carrier's trip latch is set or a resumption is waited for. -/
def cellTripped (s : State) (c : Fin 512) : Bool :=
  match carrierOf s c with
  | some k => (carrier s k).trip || (carrier s k).resumeWait
  | none => false

/-- R84: the latch is held at 0 in the modes that place no edges. -/
def latchHeld (s : State) (c : Fin 512) : Bool :=
  decide (cellMode s c = 0 ∨ cellMode s c = 4 ∨ cellMode s c = 5)

/-- The edges of a cell that have been matched and have not appeared. -/
def outsOf (s : State) (c : Fin 512) : List OutEdge := s.agenda.outs.filter (fun o => decide (o.cell = c))

/-- The latch as the ball has it (R86). -/
def latchOut (s : State) (c : Fin 512) : Bool := !latchHeld s c && s.cells[c].latch

/-- R82, R83, R86: the latch in the present tick, 2 ticks ahead of the ball. -/
def latchNow (s : State) (c : Fin 512) : Bool :=
  !latchHeld s c &&
    (outsOf s c).foldl (fun l o => if after (tickPart o.at_ - 2#48) (now s) then l else o.level) s.cells[c].latch

/-- The latch after every edge matched so far. -/
def latchAhead (s : State) (c : Fin 512) : Bool := (outsOf s c).foldl (fun _ o => o.level) s.cells[c].latch

/-- R82, R155: the source that OUT_SEL.SRC selects, before INV, with the cell's latch given. -/
def sourceOf (s : State) (c : Fin 512) (latch : Bool) : Bool :=
  let src := regFld s (.cell c 0x0D) 1 0
  if src = 0 then latch
  else if src = 1 then (if cellMode s c = 3 then latch else false)
  else bit s.pes[blockOf c].ball (regFld s (.cell c 0x0D) 7 4)

/-- R82: OUT_SEL.OE. -/
def cellOe (s : State) (c : Fin 512) : Bool := regBit s (.cell c 0x0D) 8

/-- R82, R395: open drain, by OD or by the ZIO's ZOD. -/
def cellOd (s : State) (c : Fin 512) : Bool :=
  match zioOf s c with
  | some z => regBit s (.chip (0x80 + z.val)) 13
  | none => regBit s (.cell c 0x0D) 2

/-- R393: the bank of a TIO has no valid supply. -/
def bankInvalid (s : State) (c : Fin 512) : Bool := fld s.sys.vio (2 * (c.val / 32) + 1) (2 * (c.val / 32)) = 0

/-- R81, R396: the level a safe drive gives, or none where it is high impedance. -/
def safeDrive (s : State) (c : Fin 512) : Option Bool :=
  match zioOf s c with
  | some z => if regBit s (.chip (0x80 + z.val)) 14 then some false else none
  | none =>
    let v := regFld s (.cell c 0x0A) 1 0
    if v = 0 then some false else if v = 1 then some true else none

/-- R90, R328, R367: the level the device drives at the ball of a cell, or none. A cell of an invalid bank drives nothing, at a
ZIO's ball too, which keeps its own safe drive (R393). -/
def driven (s : State) (c : Fin 512) : Option Bool :=
  if decide ((s.sec.jtag = .extest ∨ s.sec.jtag = .intest) ∧ (s.sys.mode = .boot ∨ s.sys.mode = .configure)) then
    some (bit s.sec.bsr c.val)
  else if decide (s.sys.mode = .boot ∨ s.sys.mode = .retention) then none
  else if bankInvalid s c && decide (zioOf s c = none) then none
  else if pinSafe s c then safeDrive s c
  else if !cellOe s c || bankInvalid s c then none
  else
    let l := if cellTripped s c then tripLvl s c else (sourceOf s c (latchOut s c) != regBit s (.cell c 0x0D) 3)
    if l && cellOd s c then none else some l

/-- R83, R90, R91: the level at the ball: what the device drives, its opposite while a mismatch found at the present
driven edge lasts, else what the input carries. -/
def ballLevel (s : State) (c : Fin 512) : Bool :=
  match driven s c with
  | some l => if s.cells[c].rbAt = some (l, s.cells[c].drvAt) then !l else l
  | none => inLevel s c

/-- R91: the driven level of the present tick is noted; every change of it, and every start of driving, is a driven edge.
An edge of the latch in this tick gives its instant. -/
def noteDriven (s : State) : State :=
  { s with cells := Vector.ofFn (fun (c : Fin 512) =>
      let x := s.cells[c]
      let d := driven s c
      if d = x.drv then x
      else
        let t := match x.edgeAt with
          | some e => if e / 16 = s.time.tick then e else 16 * s.time.tick
          | none => 16 * s.time.tick
        { x with drv := d, drvAt := if d.isSome then some t else x.drvAt,
                 rbAt := none }) }

/-- R374: changes of the cell's source reach the ball. -/
def reachesBall (s : State) (c : Fin 512) : Bool :=
  !pinSafe s c && cellOe s c && !cellTripped s c && !bankInvalid s c

/-- R373: the wear counters bound to a kind of a cell count one event. -/
def wearKind (s : State) (c : Fin 512) (kind : Nat) : State :=
  if s.life.binds.any (fun b => decide (fld b 11 9 = kind ∧ fld b 8 0 = c.val)) then
    { s with life := { s.life with wear := Vector.ofFn (fun (k : Fin 256) =>
        if fld s.life.binds[k] 11 9 = kind ∧ fld s.life.binds[k] 8 0 = c.val then s.life.wear[k] + 1
        else s.life.wear[k]) } }
  else s

/-- R373, R374: an edge of the cell's source to level `l`, before INV, is counted where it reaches the ball. -/
def wearEdge (s : State) (c : Fin 512) (l : Bool) : State :=
  if reachesBall s c then
    if l != regBit s (.cell c 0x0D) 3 then wearKind s c 1 else wearKind (wearKind s c 2) c 3
  else s

end Sys2Proof.Machine
end

