-- ==== Sys2Proof/Machine/Requests.lean ====
section
/-!
DEFINITION. Requests to a block sequencer (04_microengine.md R113, R114), and what its watchdog has counted (R136).
-/
namespace Sys2Proof.Machine

/-- R114: a source's queue is full. -/
def queueFull (s : State) (b : Fin 32) (src : Fin 20) : Bool := decide (4 ≤ s.blks[b].queues[src].length)

/-- A request put at the end of its source's queue. -/
def pushRequest (s : State) (b : Fin 32) (src : Fin 20) (q : Request) : State :=
  updBlk s b (fun k => { k with queues := k.queues.set src (k.queues[src] ++ [q]) })

/-- R114: SEQ_CTRL.CUST_EN = 0, under which an arriving request is discarded once it is at the head of its queue. -/
def custOff (s : State) (b : Fin 32) : Bool := !regBit s (.block b 0x00) 0

/-- R113, R114: a source raises a request in tick `at_`; a fifth is discarded with REQ_OVR and REQ_OVERRUN. -/
def raiseRequest (s : State) (b : Fin 32) (src : Fin 20) (arg : Nat) (entry : Nat) (at_ : Nat) : State :=
  if queueFull s b src then report (orReg s (.block b 0x06) 0x200) 0x04 (.block b) src.val false
  else pushRequest s b src ⟨word arg, BitVec.ofNat 6 entry, 0, none, none, at_, custOff s b⟩

/-- R113: a cell's service request of a kind, entry 0x30 + *n*. -/
def cellRequest (s : State) (c : Fin 512) (kind : Nat) (at_ : Nat) : State :=
  if regBit s (.cell c 0x09) 16 then
    raiseRequest s (blockOf c) (Fin.ofNat 20 (c.val % 16)) (kind * 2 ^ 20) (0x30 + c.val % 16) at_
  else s

/-- R94, R113: a DISPATCH action of an angle event. -/
def dispatchRequest (s : State) (c : Fin 512) (handle : BitVec 12) (routine : Nat) (at_ : Nat) : State :=
  raiseRequest s (blockOf c) (Fin.ofNat 20 (c.val % 16)) (5 * 2 ^ 20 + handle.toNat * 256 + routine) routine at_

/-- R136: CMT_MAX holds the largest watchdog count seen: the ticks from the first word of a routine to the present one. A
routine is counted up to its COMMIT word. -/
def noteCount (s : State) (b : Fin 32) (r : Routine) : State :=
  let n := s.time.tick + 1 - r.firstAt
  if decide (r.phase = .body) && decide (regFld s (.block b 0x09) 8 0 < n) then
    setReg (noteFresh s (.block b 0x09) (fun a => if a.toNat < n then word (min 511 n) else a)) (.block b 0x09)
      (word (min 511 n))
  else s

/-- R136: the count of the routine a block runs. -/
def noteRun (s : State) (b : Fin 32) : State :=
  match s.blks[b].run with
  | some r => noteCount s b r
  | none => s

end Sys2Proof.Machine
end

