-- ==== Sys2Proof/Machine/Cells.lean ====
section
/-!
DEFINITION. Timer cells (03_timer_cells_and_events.md R81 to R93, R101, R102, R107, R110 to R112): compares, captures,
measurement, the angle queue, and what enabling, disabling and cancelling do. The arm-table entries that an occurrence
belongs to are looked up here too (R94, R96).
-/
namespace Sys2Proof.Machine

/-! ### Capture sources -/

/-- R84: capture is on (log entry 84 for DUAL-EDGE). -/
def capOn (s : State) (c : Fin 512) : Bool :=
  let m := cellMode s c
  cellEn s c && (decide (m = 4) || (decide (m = 1 ∨ m = 2 ∨ m = 6 ∨ m = 7) && regBit s (.cell c 0x01) 3))

/-- R82: the capture source of a cell. -/
def capSrc (s : State) (c : Fin 512) : Option XSrc :=
  let k := regFld s (.cell c 0x0C) 7 0
  if k = 0xFF then some (.tio c) else xbar (regionOf c) k

/-- R92: the ticks from an edge's pin time to the capture of it. -/
def capDelay (s : State) (x : XSrc) : Nat := 4 + pathDelay s x

/-- R92, R113: the tick in which a captured edge enters. -/
def captureTick (s : State) (x : XSrc) (t : T16) : Time := plus (tickPart t) (capDelay s x)

/-! ### Records of a cell -/

/-- R112: while a cell makes CELL_CAPTURE records, its records of edges and measurements wait as long as a capture with an
earlier timestamp can still come (log entry 78). -/
def recHold (s : State) (c : Fin 512) (typ : Nat) : Nat :=
  if decide (typ ≠ 0x21 ∧ typ ≠ 0x24) && capOn s c && regBit s (.cell c 0x09) 13 then
    match capSrc s c with
    | some x => capDelay s x
    | none => 0
  else 0

/-- R110, R112: a record of a cell, into ring CELL_EVT.RING, of tick `tick`. -/
def emitCell (s : State) (c : Fin 512) (tick : Nat) (typ : Nat) (ts : Time) (a b : Nat) : State :=
  emitRegion s (regionOf c) (regFld s (.cell c 0x09) 23 20) (tick + recHold s c typ)
    ⟨BitVec.ofNat 8 typ, BitVec.ofNat 16 c.val, ts, word a, word b⟩

/-- R112: a record of a cell that waits for an earlier capture. -/
def heldRec (s : State) (c : Fin 512) (p : Placed) : Bool :=
  decide (p.body.src = BitVec.ofNat 16 c.val ∧ 0x20 ≤ p.body.typ.toNat ∧ p.body.typ.toNat ≤ 0x24 ∧ s.time.tick < p.tick) &&
    !after p.body.ts (now s)

/-- R112: an EVENT_CANCEL lets the records of earlier edges of its cell go before it. -/
def releaseHeld (s : State) (c : Fin 512) : State :=
  let held := s.host.arb.filter (heldRec s c)
  let rest := s.host.arb.filter (fun p => !heldRec s c p)
  { s with host := { s.host with arb := held.foldl (fun l p => placeRec l { p with tick := s.time.tick }) rest } }

/-- R110, R111: an EVENT_CANCEL record, committed in the present tick. -/
def emitCancel (s : State) (c : Fin 512) (handle : Nat) (timed : Bool) (reason : Nat) (armed started : Bool)
    (cycle : Nat) : State :=
  emitCell (releaseHeld s c) c s.time.tick 0x24 (now s) (handle * 4096 + bitAt timed 11 + reason * 16)
    (bitAt armed 23 + bitAt started 22 + cycle % 2 ^ 22)

/-- R110: an EVENT_EDGE record with the flags byte of [11:4]; `kind` 0 start, 1 end, 2 single. -/
def emitEdge (s : State) (c : Fin 512) (e : T16) (handle flags kind cycle : Nat) : State :=
  if regBit s (.cell c 0x09) 15 then
    emitCell s c (absOf s (tickPart e)) 0x23 (tickPart e) (handle * 4096 + flags * 16 + (fracPart e).toNat)
      (kind * 2 ^ 22 + cycle % 2 ^ 22)
  else s

/-! ### The output latch -/

/-- R82: an action on the latch. -/
def actLatch (a : EdgeAct) (l : Bool) : Bool :=
  match a with
  | .none => l
  | .set => true
  | .clear => false
  | .toggle => !l
  | .convert => l
  | .dispatch _ => l

/-- An instant near the present tick in sixteenths of the tick count. -/
def abs16 (s : State) (e : T16) : Nat := 16 * absOf s (tickPart e) + (fracPart e).toNat

/-- The instant of a count of sixteenths near the present tick. -/
def at16 (s : State) (n : Nat) : T16 := mk16 (ltAt s (n / 16)) (BitVec.ofNat 4 n)

/-- R87: the earliest instant, in sixteenths of the tick count, at which an edge may end the level that the last edge of a
cell began. -/
def leastEdge (s : State) (c : Fin 512) : Nat :=
  match ((outsOf s c).filter (fun o => o.change)).getLast? with
  | some o => abs16 s o.at_ + 64
  | none => match s.cells[c].edgeAt with
    | some p => p + 64
    | none => 0

/-- R86, R87: an edge enters a cell's output pipeline: it takes the instant `e`, delayed to 4 ticks after the edge that
began the level where `stretch` asks for it. An unchanged latch is no edge and is not delayed. -/
def placeEdge (s : State) (c : Fin 512) (a : EdgeAct) (e : T16) (stretch : Bool) (note : Bool → OutNote) : State :=
  let l0 := latchAhead s c
  let l := actLatch a l0
  let late := stretch && (l != l0) && decide (abs16 s e < leastEdge s c)
  let e1 := if late then at16 s (leastEdge s c) else e
  let s1 := { s with agenda := { s.agenda with outs := s.agenda.outs ++ [⟨c, e1, l, l != l0, note late⟩] } }
  if late && decide (cellMode s c = 1 ∨ cellMode s c = 7) then orReg s1 (.cell c 0x08) 0x010000 else s1

/-- R17: a compare of the cell matches in the present tick and asks for the update port. -/
def noteMatch (s : State) (c : Fin 512) : State := updCell s c (fun x => { x with matchTick := some s.time.tick })

/-! ### Compares -/

/-- A compare unit of a cell. -/
def cmpOf (x : Cell) (u : CmpUnit) : Compare :=
  match u with
  | .a => x.cmpA
  | .b => x.cmpB

/-- A cell with a compare unit changed. -/
def setCmp (x : Cell) (u : CmpUnit) (v : Compare) : Cell :=
  match u with
  | .a => { x with cmpA := v }
  | .b => { x with cmpB := v }

/-- R82: a 2-bit action code. -/
def actCode (n : Nat) : EdgeAct := if n = 1 then .set else if n = 2 then .clear else if n = 3 then .toggle else .none

/-- R110: the code of an action in a CELL_COMPARE record. -/
def actNum (a : EdgeAct) : Nat :=
  match a with
  | .set => 1
  | .clear => 2
  | .toggle => 3
  | _ => 0

/-- R82: the action of a compare, its own or CELL_CTRL's. -/
def cmpAct (s : State) (c : Fin 512) (u : CmpUnit) : EdgeAct :=
  match (cmpOf s.cells[c] u).act with
  | some a => a
  | none => match u with
    | .a => actCode (regFld s (.cell c 0x01) 5 4)
    | .b => actCode (regFld s (.cell c 0x01) 7 6)

/-- R17, R86: HRES_TRIM as a compare of a requester takes it: the word that the same requester wrote before it in the same
tick, which goes through the update port in one grant with it, else the parameter (log entry 79). -/
def trimWord (s : State) (who : Requester) (c : Fin 512) : Word :=
  s.agenda.late.foldl (fun w x =>
    match x.op with
    | .write _ l v => if l = .cell c 0x0B ∧ x.who = who ∧ x.tick = s.time.tick then v else w
    | _ => w) (reg s (.cell c 0x0B))

/-- R82, R86: the trim of a compare unit that a requester commits. -/
def cmpTrim (s : State) (who : Requester) (c : Fin 512) (u : CmpUnit) : BitVec 4 :=
  BitVec.ofNat 4 (match u with
    | .a => fld (trimWord s who c) 3 0
    | .b => fld (trimWord s who c) 7 4)

/-- An edge of a timed event (R89). -/
def timedOwner (o : CmpOwner) : Bool :=
  match o with
  | .timedSingle => true
  | .timedRise => true
  | .timedFall => true
  | _ => false

/-- R85, R86, R107: an armed compare is disarmed; an unfired timed edge yields one EVENT_CANCEL with TIMED. -/
def disarm (s : State) (c : Fin 512) (u : CmpUnit) (reason : Nat) : State :=
  let v := cmpOf s.cells[c] u
  let s1 := updCell s c (fun x => setCmp x u { v with armed := false, started := false })
  if v.armed && timedOwner v.owner then emitCancel s1 c 0 true reason true v.started 0 else s1

/-- R86: a compare value against commit tick `k`: its edge, or none where it lies before *c* − 2 (a past compare). -/
def compareEdge (k v : Time) (trim : BitVec 4) : Option T16 :=
  let x := (v - k).toInt
  if 3 ≤ x then some (mk16 v trim) else if -2 ≤ x then some (mk16 (plus k 3) 0) else none

/-- R86: the detail of COMPARE_PAST. -/
def pastDetail (u : CmpUnit) (past : Bool) : Nat := bitAt (decide (u = .b)) 23 + bitAt past 22

/-- R86: the two past cases set CELL_STAT.PAST and raise COMPARE_PAST. -/
def notePast (s : State) (c : Fin 512) (u : CmpUnit) : State :=
  let p := regBit s (.cell c 0x01) 1
  report (orReg s (.cell c 0x08) 0x080000) 0x12 (.cell c) (pastDetail u p) p

/-- Loading a compare: value, trim, edge, action and owner. -/
def loadCompare (s : State) (c : Fin 512) (u : CmpUnit) (v : Time) (trim : BitVec 4) (e : T16) (act : Option EdgeAct)
    (o : CmpOwner) (past : Bool) : State :=
  updCell s c (fun x => setCmp x u ⟨v, trim, true, e, act, o, past, false, false⟩)

/-- An instant's match tick, 2 ticks before its edge (R86), has come. -/
def matchDue (s : State) (e : T16) : Bool := !after (tickPart e - 2#48) (now s)

/-- Cells place edges while the chip's units work (R328). -/
def cellsOn (s : State) : Bool :=
  alive s && decide (s.sys.mode ≠ .powerFail)

/-- R86: a compare is carried out with action `a`: it disarms, and its edge enters the output pipeline. -/
def fireCompare (s : State) (c : Fin 512) (u : CmpUnit) (a : EdgeAct) (collide : Bool) : State :=
  let v := cmpOf s.cells[c] u
  let s1 := updCell (noteMatch s c) c (fun x => setCmp x u { v with armed := false })
  placeEdge s1 c a v.edge true (fun st => .compare u v (cmpAct s c u) collide st)

/-- R87: both compares match at one instant. Where both actions would change the latch, only B's applies and COLLIDE is set;
else the one that changes it applies. -/
def fireBoth (s : State) (c : Fin 512) : State :=
  let l := latchAhead s c
  let a := cmpAct s c .a
  let b := cmpAct s c .b
  let ea := actLatch a l != l
  let eb := actLatch b l != l
  let s1 := if ea && eb then orReg s (.cell c 0x08) 0x020000 else s
  fireCompare (fireCompare s1 c .a (if eb then EdgeAct.none else a) (ea && eb)) c .b (if ea && !eb then EdgeAct.none else b)
    (ea && eb)

/-- The other compare unit. -/
def otherUnit (u : CmpUnit) : CmpUnit :=
  match u with
  | .a => .b
  | .b => .a

/-- R86 to R88: a match in COMPARE or MICROCODE mode. The edges of a cell apply in order of instant, so a match of the other
compare at an earlier instant comes first, and one at the same instant comes with it. -/
def matchCompare (s : State) (c : Fin 512) (u : CmpUnit) : State :=
  let v := cmpOf s.cells[c] u
  let w := cmpOf s.cells[c] (otherUnit u)
  if w.armed && decide (w.edge = v.edge) then fireBoth s c
  else
    let s1 := if w.armed && after16 v.edge w.edge then fireCompare s c (otherUnit u) (cmpAct s c (otherUnit u)) false else s
    fireCompare s1 c u (cmpAct s1 c u) false

/-- R88: a compare of a cell is armed and its match has come. -/
def compareDue (s : State) (c : Fin 512) (u : CmpUnit) : Bool :=
  cellsOn s && cellEn s c && decide (cellMode s c = 1 ∨ cellMode s c = 7) && (cmpOf s.cells[c] u).armed &&
    matchDue s (cmpOf s.cells[c] u).edge

/-- R88: a match that has come is carried out with the value that matched before a write replaces it. -/
def latchMatch (s : State) (c : Fin 512) (u : CmpUnit) : State := if compareDue s c u then matchCompare s c u else s

/-- R86: a commit of a compare in the present tick on an enabled cell that gives its compares to the writer. -/
def commitCompare (s : State) (c : Fin 512) (u : CmpUnit) (v : Time) (trim : BitVec 4) (act : Option EdgeAct)
    (o : CmpOwner) : State :=
  let s0 := latchMatch s c u
  match compareEdge (now s0) v trim with
  | some e => loadCompare (disarm s0 c u 0x02) c u v trim e act o false
  | none =>
    if regBit s0 (.cell c 0x01) 1 then
      notePast (loadCompare (disarm s0 c u 0x02) c u v trim (mk16 (plus (now s0) 3) 0) act o true) c u
    else notePast s0 c u

/-- R85, R86: a write of a compare takes effect. While EN = 0 it stores its pair and arms nothing. -/
def applyCompare (s : State) (c : Fin 512) (u : CmpUnit) (t : Time) (trim : BitVec 4) (act : Option EdgeAct) (o : CmpOwner)
    (arms : Bool) : State :=
  if arms && cellEn s c then commitCompare s c u t trim act o
  else updCell s c (fun x => setCmp x u { cmpOf x u with value := t, trim := trim })

/-- R89: a compare holds an unfired value, or a write of it waits. -/
def compareBusy (s : State) (c : Fin 512) (u : CmpUnit) : Bool :=
  (cmpOf s.cells[c] u).armed || s.agenda.late.any (fun x => match x.op with
    | .compare k w _ _ _ _ arms => arms && decide (k = c ∧ w = u)
    | _ => false)

/-- R86: whether a commit of value `v` in the present tick is refused as past. -/
def pastRefused (s : State) (c : Fin 512) (v : Time) : Bool :=
  (compareEdge (now s) v 0).isNone && !regBit s (.cell c 0x01) 1

/-- R84: the compares of a cell take parameter writes from the host in COMPARE mode, and from a routine in MICROCODE
mode. -/
def givesCompare (s : State) (who : Requester) (c : Fin 512) : Bool :=
  match who with
  | .block _ => decide (cellMode s c = 1 ∨ cellMode s c = 7)
  | _ => decide (cellMode s c = 1)

/-- R6, R85, R86, R307: a write of CMPA_HI or CMPB_HI with the low word held for its requester commits in the present tick,
judged as the cell stands in it; the compare is armed from the next tick. -/
def writeCmpHi (s : State) (who : Requester) (c : Fin 512) (u : CmpUnit) (low v : Word) : State × Status :=
  let t := mkTime v low
  let late := fun (arms : Bool) =>
    addLate s (rankOf who) who (.compare c u t (cmpTrim s who c u) none (match who with
      | .block _ => .routine
      | _ => .param) arms)
  if cellHeld s c then (s, .scopeFault)
  else if !cellEn s c then (late false, .ok)
  else if !givesCompare s who c then (s, .ok)
  else if pastRefused s c t then (notePast s c u, .timePast)
  else (late true, .ok)

/-- R110: the CELL_COMPARE record of a compare that a parameter wrote, or the EVENT_EDGE record of a timed edge. -/
def compareRecord (s : State) (c : Fin 512) (u : CmpUnit) (v : Compare) (a : EdgeAct) (e : T16) (stretched : Bool)
    (collide : Bool) : State :=
  if decide (v.owner = .param) && regBit s (.cell c 0x09) 12 then
    emitCell s c (absOf s (tickPart e)) 0x20 (tickPart e)
      (bitAt (decide (u = .b)) 23 + actNum a * 2 ^ 21 + bitAt v.past 20 + bitAt collide 19 + bitAt stretched 18 +
        (fracPart e).toNat) (bitAt s.cells[c].latch 0)
  else if timedOwner v.owner then
    emitEdge s c e 0 1 (if v.owner = .timedRise then 0 else if v.owner = .timedFall then 1 else 2) 0
  else s

/-- R107: the rise of a timed PULSE has appeared: its fall, armed or matched, is the end of started work. -/
def startPulse (s : State) (c : Fin 512) : State :=
  let mark := fun (v : Compare) => if v.owner = .timedFall then { v with started := true } else v
  let s1 := updCell s c (fun x => { x with cmpA := mark x.cmpA, cmpB := mark x.cmpB })
  { s1 with agenda := { s1.agenda with outs := s1.agenda.outs.map (fun o =>
      match o.note with
      | .compare u v a k st => if o.cell = c then { o with note := .compare u (mark v) a k st } else o
      | _ => o) } }

/-- R86, R110, R113: the edge of a compare appears. -/
def compareOut (s : State) (c : Fin 512) (e : T16) (u : CmpUnit) (v : Compare) (a : EdgeAct) (collide stretched : Bool) :
    State :=
  let s1 := compareRecord s c u v a e stretched collide
  let s2 := if v.owner = .timedRise then startPulse s1 c else s1
  cellRequest s2 c (match u with | .a => 2 | .b => 3) (absOf s (tickPart e))

/-! ### Arm-table entries -/

/-- The domain of a handle (R94). -/
def handleDom (h : BitVec 12) : Fin 16 := Fin.ofNat 16 (fld h 11 8)

/-- The slot of a handle (R94). -/
def handleSlot (h : BitVec 12) : BitVec 8 := BitVec.ofNat 8 (fld h 7 0)

/-- The handle of a slot (R94). -/
def mkHandle (d : Fin 16) (slot : BitVec 8) : BitVec 12 := BitVec.ofNat 12 (d.val * 256 + slot.toNat)

/-- The entry in a slot. -/
def armFind (l : List (BitVec 8 × ArmEntry)) (slot : BitVec 8) : Option ArmEntry :=
  match l with
  | [] => none
  | (k, e) :: t => if k = slot then some e else armFind t slot

/-- A table with a slot written; slots stay in rising order. -/
def armStore (l : List (BitVec 8 × ArmEntry)) (slot : BitVec 8) (e : ArmEntry) : List (BitVec 8 × ArmEntry) :=
  match l with
  | [] => [(slot, e)]
  | (k, x) :: t =>
    if slot < k then (slot, e) :: (k, x) :: t else if k = slot then (slot, e) :: t else (k, x) :: armStore t slot e

/-- A table with a slot freed. -/
def armRemove (l : List (BitVec 8 × ArmEntry)) (slot : BitVec 8) : List (BitVec 8 × ArmEntry) :=
  l.filter (fun p => !decide (p.1 = slot))

/-- The entry of a handle. -/
def armGet (s : State) (h : BitVec 12) : Option ArmEntry := armFind s.doms[handleDom h].arm (handleSlot h)

/-- Writing the entry of a handle. -/
def armPut (s : State) (h : BitVec 12) (e : ArmEntry) : State :=
  updDom s (handleDom h) (fun d => { d with arm := armStore d.arm (handleSlot h) e })

/-- Freeing the entry of a handle. -/
def armFree (s : State) (h : BitVec 12) : State :=
  updDom s (handleDom h) (fun d => { d with arm := armRemove d.arm (handleSlot h) })

/-- R94: the target cell of an entry. -/
def entCell (e : ArmEntry) : Fin 512 := Fin.ofNat 512 (fld e.w2 23 15)

/-- R94: ACTION. -/
def entAction (e : ArmEntry) : Nat := fld e.w2 14 12

/-- R94: CYCLE_MODE, 0 ONCE, 1 AT_CYCLE, 2 REPEAT. -/
def entCycleMode (e : ArmEntry) : Nat := fld e.w2 11 10

/-- R94: NOPERIOD = CANCEL. -/
def entCancel (e : ArmEntry) : Bool := bit e.w2 9

/-- R96: an occurrence of an entry has completed, by its last edge or by a cancellation that counts. A REPEAT entry is
freed at its last occurrence; ONCE and AT_CYCLE entries where `freeSingle` says. An occurrence of words since replaced
(`own` false) counts in DONE and ends nothing (R108; log entry 80). -/
def completeEntry (s : State) (h : BitVec 12) (count freeSingle own : Bool) : State :=
  match armGet s h with
  | none => s
  | some e =>
    let e1 := if count then
        { e with doneCnt := BitVec.ofNat 22 (satAdd 22 e.doneCnt.toNat 1), since := if own then e.since + 1 else e.since }
      else e
    if !own then armPut s h e1
    else if entCycleMode e = 2 then
      if e.w3 ≠ 0 ∧ e.w3.toNat ≤ e1.since then armFree s h else armPut s h e1
    else if freeSingle then armFree s h else armPut s h e1

/-! ### The angle queue -/

/-- R101: the earliest unfired start or single edge. -/
def nextStart (l : List Occ) : Option Occ := l.find? (fun o => !o.startOut)

/-- R101: the earliest unfired end whose start has been armed. -/
def nextEnd (l : List Occ) : Option Occ := l.find? (fun o => o.pulse && !o.endOut && decide (o.endAt ≠ none))

/-- Two copies of one armed occurrence. -/
def sameOcc (a b : Occ) : Bool := decide (a.handle = b.handle ∧ a.cycle = b.cycle ∧ a.startAt = b.startAt)

/-- The queue with one occurrence changed. -/
def mapOcc (l : List Occ) (o : Occ) (f : Occ → Occ) : List Occ := l.map (fun y => if y = o then f y else y)

/-- The queue without an occurrence. -/
def dropOcc (l : List Occ) (o : Occ) : List Occ := l.filter (fun y => !decide (y = o))

/-- R96, R107, R108: what the end of an occurrence means for its entry. -/
def occDone (s : State) (o : Occ) (count freeSingle : Bool) : State :=
  match o.link with
  | .live => completeEntry s o.handle count freeSingle true
  | .replaced => completeEntry s o.handle count false false
  | .orphan => s

/-- An action other than on the latch: the converter trigger (R226) or the service request (R113). -/
def sideAction (s : State) (c : Fin 512) (h : BitVec 12) (a : EdgeAct) (tick : Nat) : State :=
  match a with
  | .convert => cellTrigger (wearKind s c 5) c tick
  | .dispatch r => dispatchRequest s c h r.toNat tick
  | _ => s

/-- R101: a compare keeps showing what it fired until the next one is loaded. -/
def keepFired (x : Cell) (u : CmpUnit) (e : T16) : Cell :=
  setCmp x u { cmpOf x u with value := tickPart e, trim := fracPart e }

/-- R101: the next start or end is loaded in the tick after the previous one fires. -/
def loadNext (s : State) (l : List Occ) (u : CmpUnit) : List Occ :=
  let later := fun (t : Time) => if after (plus (now s) 1) t then plus (now s) 1 else t
  match u with
  | .a => match nextStart l with
    | some o => mapOcc l o (fun y => { y with startLoad := later y.startLoad })
    | none => l
  | .b => match nextEnd l with
    | some o => mapOcc l o (fun y => { y with endLoad := later y.endLoad })
    | none => l

/-- R36, R101: the edge that a compare unit holds in ANGLE mode: the one loaded from the queue, from its load on. -/
def queueEdge (s : State) (c : Fin 512) (u : CmpUnit) : Option T16 :=
  match u with
  | .a => match nextStart s.cells[c].queue with
    | some o => if due s o.startLoad then some o.startAt else none
    | none => none
  | .b => match nextEnd s.cells[c].queue with
    | some o => if due s o.endLoad then o.endAt else none
    | none => none

/-- R36, R84, R101: the instant a compare shows: in ANGLE mode the one loaded from the queue; in other modes the value
written. -/
def cmpShown (s : State) (c : Fin 512) (u : CmpUnit) : T16 :=
  let v := cmpOf s.cells[c] u
  let held := mk16 v.value v.trim.toNat
  if cellMode s c ≠ 6 then held else (queueEdge s c u).getD held

/-- R83: a compare unit holds an armed edge. -/
def cmpArmed (s : State) (c : Fin 512) (u : CmpUnit) : Bool :=
  if cellMode s c = 6 then (queueEdge s c u).isSome else (cmpOf s.cells[c] u).armed

/-- HRES_TRIM (R82, R84, R101): the trims written; in ANGLE, DUAL-EDGE and GANG mode those the cell loaded. -/
def trimShown (s : State) (c : Fin 512) : Word :=
  if cellMode s c = 6 then word ((fracPart (cmpShown s c .b)).toNat * 16 + (fracPart (cmpShown s c .a)).toNat)
  else if cellMode s c = 2 ∨ cellMode s c = 3 then
    word (s.cells[c].cmpB.trim.toNat * 16 + s.cells[c].cmpA.trim.toNat)
  else reg s (.cell c 0x0B)

/-- R86, R101: the start of an occurrence, or its single edge, is matched. -/
def fireStart (s : State) (c : Fin 512) (o : Occ) : State :=
  let s1 := updCell (noteMatch s c) c (fun x =>
    { keepFired x .a o.startAt with
      queue := loadNext s (mapOcc x.queue o (fun y => { y with startOut := true })) .a, queueLast := some o.startAt })
  placeEdge s1 c o.act o.startAt false (fun _ => .start o)

/-- R86, R101: the end of an occurrence is matched. -/
def fireEnd (s : State) (c : Fin 512) (o : Occ) (at_ : T16) : State :=
  let s1 := updCell (noteMatch s c) c (fun x =>
    { keepFired x .b at_ with
      queue := loadNext s (mapOcc x.queue o (fun y => { y with endOut := true })) .b, queueLast := some at_ })
  placeEdge s1 c .clear at_ false (fun _ => .finish o)

/-- R96, R101, R110: the start of an occurrence, or its single edge, appears at the ball; a single edge completes it. -/
def startOut (s : State) (c : Fin 512) (e : T16) (o : Occ) : State :=
  match s.cells[c].queue.find? (sameOcc o) with
  | none => s
  | some y =>
    let tick := absOf s (tickPart e)
    let s1 := emitEdge s c e y.handle.toNat y.startFlags.toNat (if y.pulse then 0 else 2) y.cycle.toNat
    let s2 := cellRequest (sideAction s1 c y.handle y.act tick) c 2 tick
    if y.pulse then updCell s2 c (fun x => { x with queue := mapOcc x.queue y (fun z => { z with startFired := true }) })
    else occDone (updCell s2 c (fun x => { x with queue := dropOcc x.queue y })) y true true

/-- R96, R101, R110: the end of an occurrence appears at the ball; it completes. -/
def endOut (s : State) (c : Fin 512) (e : T16) (o : Occ) : State :=
  match s.cells[c].queue.find? (sameOcc o) with
  | none => s
  | some y =>
    let s1 := emitEdge s c e y.handle.toNat y.endFlags.toNat 1 y.cycle.toNat
    let s2 := cellRequest s1 c 3 (absOf s (tickPart e))
    occDone (updCell s2 c (fun x => { x with queue := dropOcc x.queue y })) y true true

/-- R86: an edge leaves the output pipeline and appears at the ball: the latch of the ball follows, wear counters count
(R373), and what the edge belongs to is recorded. -/
def edgeOut (s : State) (o : OutEdge) : State :=
  let s1 := if o.change then
      wearEdge (updCell s o.cell (fun x => { x with latch := o.level, edgeAt := some (abs16 s o.at_) })) o.cell o.level
    else s
  match o.note with
  | .compare u v a k st => compareOut s1 o.cell o.at_ u v a k st
  | .start x => startOut s1 o.cell o.at_ x
  | .finish x => endOut s1 o.cell o.at_ x
  | .pwm => s1
  | .latch => s1

/-- R30, R86: the edges whose instant line time has reached appear, in the order they were matched in. -/
def edgesOut (s : State) : State :=
  (s.agenda.outs.filter (fun o => due s (tickPart o.at_))).foldl edgeOut
    { s with agenda := { s.agenda with outs := s.agenda.outs.filter (fun o => !due s (tickPart o.at_)) } }

/-- R86, R96, R101: COMPARE_MATCH: a compare matches 2 ticks before its edge. An edge whose tick has come already appears
in the present tick. -/
def doCompareMatch (s : State) (c : Fin 512) (u : CmpUnit) : State :=
  if !(cellsOn s && cellEn s c) then s
  else if cellMode s c = 6 then
    match u with
    | .a => match nextStart s.cells[c].queue with
      | some o => if matchDue s o.startAt then edgesOut (fireStart s c o) else s
      | none => s
    | .b => match nextEnd s.cells[c].queue with
      | some o => match o.endAt with
        | some e => if o.startOut && matchDue s e then edgesOut (fireEnd s c o e) else s
        | none => s
      | none => s
  else if compareDue s c u then edgesOut (matchCompare s c u)
  else s

/-- R17, R306: compare writes of the host or a routine that still wait for the cell's update port are dropped; a timed edge
yields one EVENT_CANCEL with TIMED. -/
def dropLate (s : State) (c : Fin 512) (reason : Nat) : State :=
  let mine := fun (x : Late) => match x.op with
    | .compare k _ _ _ _ o _ => decide (k = c ∧ o ≠ .channel)
    | _ => false
  (s.agenda.late.filter mine).foldl (fun z x => match x.op with
    | .compare _ _ _ _ _ o _ => if timedOwner o then emitCancel z c 0 true reason true false 0 else z
    | _ => z) { s with agenda := { s.agenda with late := s.agenda.late.filter (fun x => !mine x) } }

/-- R85, R107: the edges of a cell that have not appeared are dropped; a timed edge yields one EVENT_CANCEL with TIMED. -/
def dropOuts (s : State) (c : Fin 512) (reason : Nat) : State :=
  (outsOf s c).foldl (fun z o =>
    match o.note with
    | .compare _ v _ _ _ => if timedOwner v.owner then emitCancel z c 0 true reason true v.started 0 else z
    | _ => z) { s with agenda := { s.agenda with outs := s.agenda.outs.filter (fun o => !decide (o.cell = c)) } }

/-- R85, R306, R340: an occurrence in the queue is cancelled with ARMED = 1; STARTED where its start has appeared. -/
def cancelOcc (s : State) (c : Fin 512) (o : Occ) (reason : Nat) : State :=
  emitCancel (updCell s c (fun x => { x with queue := dropOcc x.queue o })) c o.handle.toNat false reason true
    o.startFired o.cycle.toNat

/-- Cancelling every occurrence of a cell's queue, with what becomes of each entry. -/
def cancelQueue (s : State) (c : Fin 512) (reason : Nat) (ent : State → Occ → State) : State :=
  s.cells[c].queue.foldl (fun x o => ent (cancelOcc x c o reason) o) s

/-! ### Steps of line time -/

/-- R30: an instant that a step of line time from `old` to `new` passes over is met in the tick of the step, at its stated
position within the tick. -/
def passedAt (old new : Time) (e : T16) : T16 :=
  if after (tickPart e) old && !after (tickPart e) new then new ++ fracPart e else e

/-- R30: what a cell still has to match, after a step of line time. -/
def passCell (old new : Time) (x : Cell) : Cell :=
  let f := fun (v : Compare) => if v.armed then { v with edge := passedAt old new v.edge } else v
  { x with
    cmpA := f x.cmpA
    cmpB := f x.cmpB
    queue := x.queue.map (fun o =>
      { o with
        startAt := if o.startOut then o.startAt else passedAt old new o.startAt
        endAt := if o.endOut then o.endAt else o.endAt.map (passedAt old new) }) }

/-- R30: line time has stepped from `old` over the counts up to the present one. -/
def passEdges (s : State) (old : Time) : State :=
  if now s = old ∨ now s = old + 1#48 ∨ after old (now s) then s
  else
    { s with
      cells := s.cells.map (passCell old (now s))
      agenda := { s.agenda with outs := s.agenda.outs.map (fun o => { o with at_ := passedAt old (now s) o.at_ }) } }

/-! ### Capture and measurement -/

/-- R92: CAPTURE. The operand edge is the selected input's, before IN_INV. -/
def doCapture (s : State) (c : Fin 512) (rise : Bool) (t : T16) : State :=
  match capSrc s c with
  | none => s
  | some x =>
    let r := rise != regBit s (.cell c 0x0C) 11
    let ce := regFld s (.cell c 0x0C) 10 9
    let sel := if r then decide (ce = 1 ∨ ce = 3) else decide (ce = 2 ∨ ce = 3)
    if !(cellsOn s && capOn s c && sel && due s (captureTick s x t)) then s
    else
      let tick := absOf s (captureTick s x t)
      let s1 := wearKind s c 4
      if regBit s (.cell c 0x09) 13 then
        cellRequest (emitCell s1 c tick 0x21 (tickPart t) (bitAt r 4 + (fracPart t).toNat) 0) c 1 tick
      else if 4 ≤ s.cells[c].fifo.length then
        report (orReg s1 (.cell c 0x08) 0x100000) 0x11 (.cell c) 0 false
      else cellRequest (updCell s1 c (fun k => { k with fifo := k.fifo ++ [⟨t, r⟩] })) c 1 tick

/-- The capture a requester popped last. -/
def poppedOf (s : State) (c : Fin 512) (who : Requester) : Option Capture :=
  match s.cells[c].popped.find? (fun p => decide (p.1 = who)) with
  | some p => some p.2
  | none => none

/-- R92: a read of CAP_LO pops the head into the requester's store. -/
def readCapLo (s : State) (who : Requester) (c : Fin 512) : Word × State :=
  match s.cells[c].fifo with
  | [] => (0, s)
  | h :: t =>
    (loWord (tickPart h.t),
      updCell s c (fun x => { x with fifo := t, popped := (who, h) :: x.popped.filter (fun p => !decide (p.1 = who)) }))

/-- R83: CELL_STAT as a requester reads it. -/
def cellStatus (s : State) (who : Requester) (c : Fin 512) : Word :=
  let x := s.cells[c]
  let cap := match poppedOf s c who with
    | some p => (fracPart p.t).toNat * 16 + bitAt p.rise 3
    | none => 0
  word (x.fifo.length * 2 ^ 21 + bitAt (cmpArmed s c .a) 15 + bitAt (cmpArmed s c .b) 14 + bitAt (ballLevel s c) 13 +
    bitAt (latchNow s c) 12 + x.queue.length * 2 ^ 9 + cap + bitAt (pinSafe s c) 2) ||| (reg s (.cell c 0x08) &&& 0x1F0100)

/-- R93: a cell in MEASURE mode sees an edge of its input after IN_INV. -/
def measureEdge (s : State) (c : Fin 512) (rise : Bool) (t : T16) : State :=
  let x := s.cells[c]
  if !rise then
    (if decide (x.measRise ≠ none) then updCell s c (fun k => { k with measFall := some t }) else s)
  else
    let s0 := updCell s c (fun k => { k with measRise := some t, measFall := none })
    match x.measRise with
    | none => s0
    | some r =>
      let p := (t - r).toNat
      let h := match x.measFall with
        | some f => (f - r).toNat
        | none => 0
      let s1 := updCell s0 c (fun k =>
        { k with cmpA := { k.cmpA with value := BitVec.ofNat 48 (p / 16) },
                 cmpB := { k.cmpB with value := BitVec.ofNat 48 (h / 16) } })
      let s2 := setReg s1 (.cell c 0x0B) (word (p % 16 + h % 16 * 16))
      let s3 := if regBit s (.cell c 0x09) 14 then
          emitCell s2 c s.time.tick 0x22 (tickPart t) (min 0xFFFFFF (p / 16))
            (min 0xFFFFFF (if p = 0 then 0 else 2 ^ 24 * h / p))
        else s2
      cellRequest s3 c 4 s.time.tick

/-- R93: a cell in MEASURE mode measures. -/
def measures (s : State) (c : Fin 512) : Bool := cellEn s c && decide (cellMode s c = 5)

/-- R23, R93: an edge of the source of chip-wide lines, as KIND and INDEX, goes to the cells in MEASURE mode that select
such a line; it reaches them 4 ticks later, after IN_INV. -/
def measureLines (s : State) (kind index : Nat) (rise : Bool) (t : T16) : State :=
  (List.finRange 512).foldl (fun z c =>
    match capSrc z c with
    | some (.line k) =>
      if measures z c && decide (lineSel z k = (kind, index)) then
        addJob z (z.time.tick + 4) (.measure c (rise != regBit z (.cell c 0x0C) 11) t) else z
    | _ => z) s

/-- R93: the cells in MEASURE mode that the input of TIO `n` feeds take the edge, directly or through a line. -/
def measureAll (s : State) (n : Fin 512) (rise : Bool) (t : T16) : State :=
  measureLines ((List.finRange 512).foldl (fun z c =>
    match capSrc z c with
    | some (.tio m) =>
      if measures z c && decide (m = n) then measureEdge z c (rise != regBit z (.cell c 0x0C) 11) t else z
    | _ => z) s) 1 n.val rise t

/-! ### Enabling and disabling -/

/-- R85: setting EN. A PWM cell takes up the edges of its present period from the tick after the write on (R151). -/
def cellEnable (s : State) (c : Fin 512) : State :=
  let s1 := updCell s c (fun x =>
    { x with latch := false, edgeAt := none, fifo := [],
             cmpA := { x.cmpA with armed := false, started := false, collide := false },
             cmpB := { x.cmpB with armed := false, started := false, collide := false },
             queue := [], queueLast := none, measRise := none, measFall := none,
             pwmEdges := x.pwmEdges.filter (fun e => decide (16 * (s.time.tick + 1) ≤ e.1)) })
  { s1 with agenda := { s1.agenda with outs := s1.agenda.outs.filter (fun o => !decide (o.cell = c)) } }

/-- R85, R109: clearing EN. Entries are kept, pending. Edges that were matched and have not appeared are not placed. -/
def cellDisable (s : State) (c : Fin 512) : State :=
  let s1 := dropOuts (disarm (disarm s c .a 0x06) c .b 0x06) c 0x06
  let s2 := cancelQueue s1 c 0x06 (fun x o => occDone x o true false)
  updCell s2 c (fun x => { x with pwmEdges := [] })

/-- R82: FORCE in COMPARE mode: the latch changes in the next tick and the edge reaches the ball 2 ticks later. -/
def forceLatch (s : State) (c : Fin 512) (code : Nat) : State :=
  if cellEn s c && decide (cellMode s c = 1) && decide (code = 1 ∨ code = 2) then
    placeEdge s c (if code = 2 then .set else .clear) (mk16 (plus (now s) 3) 0) true (fun _ => .latch)
  else s

/-- R127: SET_LATCH and TOGGLE of a routine: the latch changes in the next tick and the edge reaches the ball 2 ticks later,
with trim 0. -/
def routineLatch (s : State) (c : Fin 512) (a : EdgeAct) : State :=
  placeEdge s c a (mk16 (plus (now s) 3) 0) false (fun _ => .latch)

/-- R305, R312: the image word of an imaged cell parameter follows it. -/
def imageCell (s : State) (c : Fin 512) (off : Nat) (v : Word) : State :=
  setPramRaw s (blockOf c) (0x0E00 + 16 * (c.val % 16) + off) v

/-- R81, R85: a write of CELL_CTRL. -/
def writeCellCtrl (s : State) (c : Fin 512) (v : Word) : State × Status :=
  let was := cellEn s c
  let st := v &&& 0x0000FB
  let s1 := imageCell (setReg s (.cell c 0x01) st) c 1 st
  let s2 := if bit v 0 && !was then cellEnable s1 c
    else if !bit v 0 && was then cellDisable s1 c
    else s1
  (forceLatch s2 c (fld v 9 8), .ok)

/-! ### Timed events -/

/-- R107: scope TIMED, and R306, R340: whether a timed edge can still be cancelled by the host. -/
def hostCancellable (s : State) (e : T16) : Bool := atOrAfter (tickPart e) (plus (now s) 3)

/-- R107: a compare write of the cell by ARM_TIME, of the present tick, whose edge the host can still cancel. -/
def lateTimed (s : State) (c : Fin 512) (x : Late) : Bool :=
  match x.op with
  | .compare k _ t trim _ o _ => decide (k = c) && timedOwner o && hostCancellable s (mk16 t trim.toNat)
  | _ => false

/-- R107: a PULSE of the present tick whose rise the host cannot cancel any more. -/
def lateRising (s : State) (c : Fin 512) : Bool :=
  s.agenda.late.any (fun x => match x.op with
    | .compare k _ t trim _ o _ => decide (k = c ∧ o = .timedRise) && !hostCancellable s (mk16 t trim.toNat)
    | _ => false)

/-- R107: the compare writes of a cell by ARM_TIME in the present tick are cancelled before they take effect. -/
def cancelLate (s : State) (c : Fin 512) : State × Nat :=
  if lateRising s c then (s, 0)
  else
    let l := s.agenda.late.filter (lateTimed s c)
    (l.foldl (fun z _ => emitCancel z c 0 true 0x01 true false 0)
      { s with agenda := { s.agenda with late := s.agenda.late.filter (fun x => !lateTimed s c x) } }, l.length)

/-- R107, R293: cancelling the unfired timed edges of a cell whose instants are at or after *c* + 3. Answers the number
of records. -/
def cancelTimed (s0 : State) (c : Fin 512) : State × Nat :=
  let p := cancelLate s0 c
  let s := p.1
  let one := fun (x : State × Nat) (u : CmpUnit) =>
    let v := cmpOf x.1.cells[c] u
    if v.armed && timedOwner v.owner && !v.started && hostCancellable s v.edge then (disarm x.1 c u 0x01, x.2 + 1) else x
  let a := s.cells[c].cmpA
  let rising := (outsOf s c).any (fun o => match o.note with
    | .compare _ v _ _ _ => decide (v.owner = .timedRise)
    | _ => false)
  -- a PULSE whose rise still appears keeps its fall (R107: a host cancel cuts no started work)
  if rising || (a.armed && decide (a.owner = .timedRise) && !hostCancellable s a.edge) then p
  else one (one p .a) .b

end Sys2Proof.Machine
end

