-- ==== Sys2Proof/Machine/Arm.lean ====
section
/-!
DEFINITION. Angle events (03_timer_cells_and_events.md R94 to R109): the checks of ARM_ANGLE, the arming pass, forced
ends, and what cancels occurrences and frees entries.
-/
namespace Sys2Proof.Machine

/-! ### Entries -/

/-- R94: a word of an entry taken apart: tooth and micro-tick. -/
def angTooth (w : Word) : Nat := fld w 23 12

/-- R94: the micro-tick of an angle word. -/
def angMicro (w : Word) : Nat := fld w 11 0

/-- An entry's action as an edge. -/
def entEdge (e : ArmEntry) : EdgeAct :=
  let a := entAction e
  if a = 0 then .set else if a = 1 then .clear else if a = 2 then .set else if a = 3 then .convert
  else .dispatch (BitVec.ofNat 8 (fld e.w2 7 0))

/-- R94: PULSE. -/
def entPulse (e : ArmEntry) : Bool := decide (entAction e = 2)

/-- The armed occurrences of an entry. -/
def occsOf (s : State) (h : BitVec 12) : List Occ :=
  match armGet s h with
  | some e => s.cells[entCell e].queue.filter (fun o => decide (o.handle = h ∧ o.link ≠ .orphan))
  | none => []

/-- R94: STATE of an entry, 0 free, 1 pending, 2 armed, 3 firing, once the start has appeared. -/
def entState (s : State) (h : BitVec 12) : Nat :=
  match armGet s h with
  | none => 0
  | some _ =>
    let l := occsOf s h
    if l.any (fun o => o.startFired) then 3 else if l.isEmpty then 1 else 2

/-- R94: a word of an entry; a free slot reads 0. -/
def entWord (s : State) (h : BitVec 12) (w : Nat) : Word :=
  match armGet s h with
  | none => 0
  | some e =>
    if w = 0 then e.w0 else if w = 1 then e.w1 else if w = 2 then e.w2 else if w = 3 then e.w3
    else word (entState s h * 2 ^ 22 + e.doneCnt.toNat)

/-- R95: the angle range of words over a domain's cycle, as one or two intervals of angle words. -/
def angRange (n : Nat) (w0 w1 w2 : Word) : List (Nat × Nat) :=
  if fld w2 14 12 ≠ 2 then [(w0.toNat, w0.toNat)]
  else if w0.toNat ≤ w1.toNat then [(w0.toNat, w1.toNat)]
  else [(w0.toNat, 4096 * n - 1), (0, w1.toNat)]

/-- R95: two ranges share an angle word. -/
def rangesMeet (a b : List (Nat × Nat)) : Bool :=
  a.any (fun x => b.any (fun y => decide (x.1 ≤ y.2 ∧ y.1 ≤ x.2)))

/-- R95: an entry of any domain for the same cell overlaps the words, itself excluded. -/
def overlaps (s : State) (d : Fin 16) (self : Option (BitVec 12)) (w0 w1 w2 : Word) : Bool :=
  (List.finRange 16).any (fun x => s.doms[x].arm.any (fun p =>
    decide (fld p.2.w2 23 15 = fld w2 23 15) && !decide (some (mkHandle x p.1) = self) &&
      rangesMeet (angRange (teethOf s d) w0 w1 w2) (angRange (teethOf s x) p.2.w0 p.2.w1 p.2.w2)))

/-- R95: a reserved code, an index outside the cycle, or an empty pulse. -/
def armWordsBad (s : State) (d : Fin 16) (w0 w1 w2 : Word) : Bool :=
  let n := teethOf s d
  let a := fld w2 14 12
  decide (5 ≤ a) || decide (fld w2 11 10 = 3) || bit w2 8 || (decide (a = 4) && decide (0x40 ≤ fld w2 7 0)) ||
    decide (n ≤ angTooth w0) || (decide (a = 2) && (decide (n ≤ angTooth w1) || decide (w0 = w1)))

/-- R95: the checks of ARM_ANGLE and REPLACE_EVENT before the search for a free slot, in order. -/
def armCheck (s : State) (d : Fin 16) (self : Option (BitVec 12)) (w0 w1 w2 w3 : Word) : Status :=
  let c : Fin 512 := Fin.ofNat 512 (fld w2 23 15)
  if !armsOk s then .modeRefused
  else if s.doms[d].st = .off then .domainOff
  else if armWordsBad s d w0 w1 w2 then .addrInvalid
  else if cellHeld s c then .scopeFault
  else if !(cellEn s c && decide (cellMode s c = 6) && decide (regFld s (.cell c 0x00) 7 4 = d.val)) then .targetMode
  else if overlaps s d self w0 w1 w2 then .overlap
  else if decide (fld w2 11 10 = 1) && cycleBefore w3 s.doms[d].leafCycle then .anglePast
  else .ok

/-- R94: the lowest-numbered free slot of a table. -/
def freeSlot (l : List (BitVec 8 × ArmEntry)) : Option (BitVec 8) :=
  ((List.range 256).find? (fun i => decide (armFind l (BitVec.ofNat 8 i) = none))).map (BitVec.ofNat 8)

/-- R94, R95: ARM_ANGLE: the entry is written into the table of the domain the target cell names. -/
def armAngle (s : State) (w0 w1 w2 w3 : Word) : State × Status × BitVec 12 :=
  let c : Fin 512 := Fin.ofNat 512 (fld w2 23 15)
  let d : Fin 16 := Fin.ofNat 16 (regFld s (.cell c 0x00) 7 4)
  let st := armCheck s d none w0 w1 w2 w3
  if st ≠ .ok then (s, st, 0)
  else
    match freeSlot s.doms[d].arm with
    | none => (s, .queueFull, 0)
    | some k => (armPut s (mkHandle d k) ⟨w0, w1, w2, w3, 0, 0, []⟩, .ok, mkHandle d k)

/-! ### Cancelling -/

/-- R110: the cycle a pending occurrence's EVENT_CANCEL gives. -/
def pendingCycle (s : State) (d : Fin 16) (e : ArmEntry) : Nat :=
  let y := s.doms[d].leafCycle
  if entCycleMode e = 1 then e.w3.toNat
  else if (leafAngle s d).toNat < e.w0.toNat then y.toNat else (y + 1).toNat

/-- R107, R110: the EVENT_CANCEL of a pending occurrence, ARMED = 0. -/
def cancelPending (s : State) (h : BitVec 12) (e : ArmEntry) (reason : Nat) : State :=
  emitCancel s (entCell e) h.toNat false reason false false (pendingCycle s (handleDom h) e)

/-- The occurrences of a freed entry that still have edges to place no longer belong to it. -/
def orphanOccs (s : State) (c : Fin 512) (h : BitVec 12) (l : OccLink) : State :=
  updCell s c (fun x =>
    { x with queue := x.queue.map (fun o => if o.handle = h ∧ o.link ≠ .orphan then { o with link := l } else o) })

/-- R107: cancelling what the host may still cancel of an entry's armed occurrences. Answers the number of records. -/
def cancelArmed (s : State) (h : BitVec 12) (reason : Nat) (count : Bool) : State × Nat :=
  (occsOf s h).foldl (fun x o =>
    match armGet x.1 h with
    | some e =>
      if !o.startOut && hostCancellable s o.startAt then
        (occDone (cancelOcc x.1 (entCell e) o reason) o count false, x.2 + 1)
      else x
    | none => x) (s, 0)

/-- R107: CANCEL_EVENT of one entry. -/
def cancelEntry (s : State) (h : BitVec 12) (keep : Bool) : State × Nat :=
  match armGet s h with
  | none => (s, 0)
  | some e =>
    let pend := (occsOf s h).isEmpty
    let (s1, n) := cancelArmed s h 0x01 keep
    if keep then (s1, n)
    else
      let (s2, m) := if pend then (cancelPending s1 h e 0x01, n + 1) else (s1, n)
      (armFree (orphanOccs s2 (entCell e) h .orphan) h, m)

/-- The handles of the used slots of a domain, in slot order. -/
def handlesOf (s : State) (d : Fin 16) : List (BitVec 12) := s.doms[d].arm.map (fun p => mkHandle d p.1)

/-- The handles of every used slot, in handle order. -/
def allHandles (s : State) : List (BitVec 12) := (List.finRange 16).flatMap (handlesOf s)

/-- R107: CANCEL_EVENT over a list of entries. -/
def cancelEntries (s : State) (hs : List (BitVec 12)) (keep : Bool) : State × Nat :=
  hs.foldl (fun x h => let r := cancelEntry x.1 h keep; (r.1, x.2 + r.2)) (s, 0)

/-- R67, R109: disabling a domain cancels its pending entries and frees all; armed occurrences fire. Answers the number
of records. -/
def freeDomain (s : State) (d : Fin 16) : State × Nat :=
  (handlesOf s d).foldl (fun x h =>
    match armGet x.1 h with
    | none => x
    | some e =>
      let pend := (occsOf x.1 h).isEmpty
      let s1 := if pend then cancelPending x.1 h e 0x04 else x.1
      (armFree (orphanOccs s1 (entCell e) h .orphan) h, if pend then x.2 + 1 else x.2)) (s, 0)

/-- R109, R340: at SAFE-HOLD and at an entry to CONFIGURE every occurrence, armed or pending, is cancelled and every
table is emptied. -/
def emptyTables (s : State) (reason : Nat) : State :=
  let s1 := (List.finRange 512).foldl (fun x c =>
    if x.cells[c].queue.isEmpty then x else cancelQueue x c reason (fun y _ => y)) s
  (allHandles s).foldl (fun x h =>
    match armGet x h with
    | none => x
    | some e => armFree (if (occsOf s h).isEmpty then cancelPending x h e reason else x) h) s1

/-- R108: REPLACE_EVENT. The new words serve the occurrences from the next one on: passages through a new start angle, or
through the same one where its occurrence has not been served (log entry 80). -/
def replaceEvent (s : State) (h : BitVec 12) (w0 w1 w2 w3 : Word) : State × Status :=
  match armGet s h with
  | none => (s, .notFound)
  | some e =>
    let st := armCheck s (handleDom h) (some h) w0 w1 w2 w3
    if st ≠ .ok then (s, st)
    else
      let s1 := (cancelArmed s h 0x02 true).1
      let s2 := orphanOccs s1 (entCell e) h .replaced
      let done := match armGet s1 h with
        | some x => x.doneCnt
        | none => e.doneCnt
      (armPut s2 h ⟨w0, w1, w2, w3, done, 0, if w0 = e.w0 then e.served else []⟩, .ok)

/-! ### The arming pass -/

/-- R102: the instant of the last edge scheduled from a cell's queue, else of the last placed. -/
def lastEdge (x : Cell) : Option T16 :=
  let es := x.queue.foldr (fun o l =>
    (match o.endAt with
      | some e => [e]
      | none => []) ++ (if o.startOut then [] else [o.startAt]) ++ l) []
  es.foldl (fun m e =>
    match m with
    | none => some e
    | some p => if after16 e p then some e else some p) x.queueLast

/-- An edge that a pass may arm (R97): offset, cell, handle, start or end, the cycle it lies in. -/
structure ArmItem where
  off : Nat
  cell : Fin 512
  handle : BitVec 12
  isEnd : Bool
  cycle : Word
deriving DecidableEq, Repr

/-- R97: the passages of an angle that the arming pass of tooth `tooth` in cycle `y` can arm: offset and cycle. -/
def passages (n lead tooth : Nat) (y : Word) (a : Word) : List (Nat × Word) :=
  let at_ := if angTooth a = tooth then [(angMicro a, y)] else []
  let next := if (tooth + 1) % n = angTooth a ∧ angMicro a < lead then
      [(4096 + angMicro a, if angTooth a = 0 then y + 1 else y)] else []
  at_ ++ next

/-- R96: the cycle in which a PULSE that starts in cycle `y` ends. -/
def endCycleOf (w0 w1 : Word) (y : Word) : Word := if w0.toNat < w1.toNat then y else y + 1

/-- R97: a cycle lies in a run of cycles. -/
def cycleInRun (y : Word) (r : Word × Word) : Bool := decide ((r.2 - y).toNat ≤ (r.2 - r.1).toNat)

/-- R97: an occurrence of cycle `y` joins those not served again; a run holds at most half of the counter's range. -/
def addRun (l : List (Word × Word)) (y : Word) : List (Word × Word) :=
  match l with
  | [] => [(y, y)]
  | r :: t =>
    if l.any (cycleInRun y) then l
    else if y = r.2 + 1 then (if 2 ^ 23 ≤ (y - r.1).toNat then r.1 + 1 else r.1, y) :: t
    else (y, y) :: l

/-- R96, R97: the start passages of an entry that it serves. -/
def startItems (s : State) (d : Fin 16) (lead tooth : Nat) (y : Word) (slot : BitVec 8) (e : ArmEntry) :
    List ArmItem :=
  let h := mkHandle d slot
  let live := (s.cells[entCell e].queue.filter (fun o => decide (o.handle = h ∧ o.link = .live))).length
  let ok := fun (p : Nat × Word) =>
    !e.served.any (cycleInRun p.2) &&
      (if entCycleMode e = 0 then decide (live = 0)
       else if entCycleMode e = 1 then decide (p.2 = e.w3) && decide (live = 0)
       else decide (e.w3 = 0 ∨ e.since + live < e.w3.toNat))
  let ps := (passages (teethOf s d) lead tooth y e.w0).filter ok
  let ps1 := if entCycleMode e ≠ 2 then ps.take 1
    else if e.w3 = 0 then ps else ps.take (e.w3.toNat - (e.since + live))
  ps1.map (fun p => ⟨p.1, entCell e, h, false, p.2⟩)

/-- R97: the end passages of an occurrence that starts in cycle `y0`. -/
def endItems (s : State) (d : Fin 16) (lead tooth : Nat) (y : Word) (c : Fin 512) (h : BitVec 12) (w1 : Word)
    (endCycle y0 : Word) : List ArmItem :=
  (((passages (teethOf s d) lead tooth y w1).filter (fun p => !cycleBefore p.2 endCycle)).take 1).map
    (fun p => ⟨p.1, c, h, true, y0⟩)

/-- Items in order of offset, which is angle order (R101). -/
def insertItem (l : List ArmItem) (i : ArmItem) : List ArmItem :=
  match l with
  | [] => [i]
  | j :: t => if i.off < j.off then i :: j :: t else j :: insertItem t i

/-- R97: everything the arming pass of a tooth may arm, in angle order. -/
def armItems (s : State) (d : Fin 16) (lead tooth : Nat) (y : Word) : List ArmItem :=
  let starts := s.doms[d].arm.flatMap (fun p => startItems s d lead tooth y p.1 p.2)
  let ends1 := starts.flatMap (fun i =>
    match armGet s i.handle with
    | some e => if entPulse e then endItems s d lead tooth y i.cell i.handle e.w1 (endCycleOf e.w0 e.w1 i.cycle) i.cycle
      else []
    | none => [])
  let ends2 := (List.finRange 512).flatMap (fun c => s.cells[c].queue.flatMap (fun o =>
    if o.pulse ∧ o.endAt = none ∧ handleDom o.handle = d then
      endItems s d lead tooth y c o.handle o.endAngle o.endCycle o.cycle
    else []))
  (starts ++ ends1 ++ ends2).foldl insertItem []

/-- The tooth an arming pass is of: pin time, period in ticks (0 invalid), synthetic. -/
structure PassTooth where
  pin : Time
  ticks : Nat
  synth : Bool
deriving DecidableEq, Repr

/-- R99 to R104: the instant of an edge and its record flags, for the `nth` edge of the pass on the cell. `own` is the
start of the same occurrence. -/
def armInstant (s : State) (x : Cell) (t : PassTooth) (suspect : Bool) (minW off nth : Nat) (own : Option T16) :
    T16 × Nat :=
  let least := mk16 (plus (now s) (8 + nth)) 0
  let base := (if t.synth then 8 else 0) + (if suspect then 4 else 0)
  let e0 := if t.ticks = 0 then least else mk16 t.pin 0 + BitVec.ofNat 52 (off * t.ticks / 256)
  let (e1, f1) := match lastEdge x with
    | some p =>
      if after16 (addTicks p minW) e0 then (addTicks p minW, if own = some p then 64 else 16) else (e0, 0)
    | none => (e0, 0)
  if t.ticks = 0 then (if after16 least e1 then (least, base + f1 + 32) else (e1, base + f1 + 32))
  else if after16 least e1 then (least, base + f1 + 128) else (e1, base + f1)

/-- R97: an occurrence of the entry in cycle `y` is not served again. -/
def markServed (s : State) (h : BitVec 12) (y : Word) : State :=
  match armGet s h with
  | some e => armPut s h { e with served := addRun e.served y }
  | none => s

/-- R98, R101, R103, R306: a start the pass would arm is cancelled instead, with ARMED = 0. -/
def refuseStart (s : State) (h : BitVec 12) (y : Word) (reason : Nat) (count freeSingle : Bool) : State :=
  match armGet s h with
  | some e => completeEntry (cancelPending (markServed s h y) h e reason) h count freeSingle true
  | none => s

/-- R98 to R104: arming one start. -/
def armStart (s : State) (d : Fin 16) (t : PassTooth) (suspect : Bool) (minW nth : Nat) (i : ArmItem) : State × Bool :=
  match armGet s i.handle with
  | none => (s, false)
  | some e =>
    let c := i.cell
    if cellHeld s c then (refuseStart s i.handle i.cycle 0x09 false true, false)
    else if !cellEn s c then (refuseStart s i.handle i.cycle 0x06 true true, false)
    else if decide (cellMode s c ≠ 6 ∨ regFld s (.cell c 0x00) 7 4 ≠ d.val) then
      (refuseStart s i.handle i.cycle 0x0A true true, false)
    else if decide (t.ticks = 0) && entCancel e then (refuseStart s i.handle i.cycle 0x03 true true, false)
    else if 4 ≤ s.cells[c].queue.length then
      (orReg (refuseStart s i.handle i.cycle 0x05 true false) (.cell c 0x08) 0x100, false)
    else
      let (at_, f) := armInstant s s.cells[c] t suspect minW i.off nth none
      let o : Occ := ⟨i.handle, entPulse e, entEdge e, i.cycle, at_, BitVec.ofNat 8 f, false, false, e.w1,
        endCycleOf e.w0 e.w1 i.cycle, none, 0, false, plus (now s) 6, 0, .live⟩
      (updCell (markServed s i.handle i.cycle) c (fun x => { x with queue := x.queue ++ [o] }), true)

/-- R99 to R104: arming one end, where its start is armed or fired. -/
def armEnd (s : State) (t : PassTooth) (suspect : Bool) (minW nth : Nat) (i : ArmItem) : State × Bool :=
  match s.cells[i.cell].queue.find? (fun o => decide (o.handle = i.handle ∧ o.cycle = i.cycle ∧ o.endAt = none)) with
  | none => (s, false)
  | some o =>
    let own := if o.startOut then s.cells[i.cell].queueLast else some o.startAt
    let (at_, f) := armInstant s s.cells[i.cell] t suspect minW i.off nth own
    (updCell s i.cell (fun x =>
      { x with queue := mapOcc x.queue o (fun y =>
        { y with endAt := some at_, endFlags := BitVec.ofNat 8 f, endLoad := plus (now s) 6 }) }), true)

/-- R100: how many edges the pass has armed on a cell so far. -/
def countOn (l : List (Fin 512)) (c : Fin 512) : Nat := (l.filter (fun x => decide (x = c))).length

/-- R97, R78: the arming pass of a tooth delivered in SYNCED or SUSPECT. It samples ARM_LEAD and MIN_WIDTH once. -/
def armPass (s : State) (d : Fin 16) (t : PassTooth) : State :=
  let late := lateAt s (.dom d 0x0E) s.time.tick || lateAt s (.dom d 0x0F) s.time.tick
  let s0 := reload (reload s (.dom d 0x0E) s.time.tick) (.dom d 0x0F) s.time.tick
  let s1 := if late then orReg s0 (.dom d 0x19) 0x8 else s0
  let lead := fld (work s1 (.dom d 0x0E)) 11 0
  let minW := fld (work s1 (.dom d 0x0F)) 7 0
  let suspect := decide (s.doms[d].leafSt = .suspect)
  let items := armItems s1 d lead s.doms[d].leafIdx.toNat s.doms[d].leafCycle
  (items.foldl (fun (x : State × List (Fin 512)) i =>
    let n := countOn x.2 i.cell
    let r := if i.isEnd then armEnd x.1 t suspect minW n i else armStart x.1 d t suspect minW n i
    (r.1, if r.2 then i.cell :: x.2 else x.2)) (s1, [])).1

/-- R96: AT_CYCLE entries whose cycle has passed unarmed are cancelled with reason MISSED. -/
def missedPass (s : State) (d : Fin 16) : State :=
  s.doms[d].arm.foldl (fun x p =>
    let h := mkHandle d p.1
    if decide (entCycleMode p.2 = 1) && cycleBefore p.2.w3 s.doms[d].leafCycle && (occsOf x h).isEmpty then
      armFree (cancelPending x h p.2 0x07) h
    else x) s

/-- R102, R105: the instant a forced end takes after the leaves hold the new state from tick `leaf` on, and its record
flags: END_FORCED, with WIDTH_CLAMPED or DEFERRED where the edge before it moves it. -/
def forcedEnd (x : Cell) (o : Occ) (minW : Nat) (leaf : Time) : T16 × Nat :=
  let e := mk16 (plus leaf 8) 0
  let own := if o.startOut then x.queueLast else some o.startAt
  match lastEdge x with
  | some p => if after16 (addTicks p minW) e then (addTicks p minW, if own = some p then 66 else 18) else (e, 2)
  | none => (e, 2)

/-- R105: the ends not yet armed are forced when the leaves hold LOST, STOPPED or OFF from tick `leaf` on. -/
def forceEnds (s : State) (d : Fin 16) (leaf : Time) : State :=
  let minW := fld (work s (.dom d 0x0F)) 7 0
  (List.finRange 512).foldl (fun x c =>
    (x.cells[c].queue.filter (fun o => decide (o.pulse ∧ o.endAt = none ∧ handleDom o.handle = d))).foldl
      (fun y o =>
        let r := forcedEnd y.cells[c] o minW leaf
        updCell y c (fun k =>
          { k with queue := mapOcc k.queue o (fun z =>
            { z with endAt := some r.1, endFlags := BitVec.ofNat 8 r.2, endLoad := plus leaf 6 }) })) x) s

end Sys2Proof.Machine
end

