-- ==== Sys2Proof/Machine/Complete.lean ====
section
/-!
DEFINITION. Host rings and completions (10_mailbox_interface.md R280 to R284, R288, R290, R291, R296, R298): where a
ring lies, its status slot, and the one operation that completes a command.
-/
namespace Sys2Proof.Machine

/-! ### Rings -/

/-- R278: the offset of a submission ring's register. -/
def sqReg (r : Fin 16) (o : Nat) : Nat := 0x100 + r.val * 0x20 + o

/-- R278: the offset of an event ring's register. -/
def eqReg (r : Fin 16) (o : Nat) : Nat := 0x300 + r.val * 0x20 + o

/-- R279: the configuration of a submission ring. -/
def sqCfg (s : State) (r : Fin 16) : Word32 := hreg s (sqReg r 0x08)

/-- R279: the configuration of an event ring. -/
def eqCfg (s : State) (r : Fin 16) : Word32 := hreg s (eqReg r 0x08)

/-- R278: the base of a submission ring. -/
def sqBase (s : State) (r : Fin 16) : BitVec 64 := hreg s (sqReg r 0x04) ++ hreg s (sqReg r 0x00)

/-- R278: the base of an event ring. -/
def eqBase (s : State) (r : Fin 16) : BitVec 64 := hreg s (eqReg r 0x04) ++ hreg s (eqReg r 0x00)

/-- R279: the depth of a ring. -/
def depthOf (cfg : Word32) : Nat := 2 ^ fld cfg 23 20

/-- The little-endian bytes of a number. -/
def leBytes (n k : Nat) : List Byte := (List.range k).map (fun i => BitVec.ofNat 8 (n >>> (8 * i)))

/-- The number that little-endian bytes give. -/
def leNat (l : List Byte) : Nat := l.foldr (fun b n => b.toNat + 256 * n) 0

/-- R352: bytes stored in ring memory; each 8-byte word written whole loses its error. -/
def ringStore (s : State) (a : Nat) (bs : List Byte) : State :=
  let s1 := setRingBytes s a bs
  { s1 with mem := { s1.mem with ecc := s1.mem.ecc.filter (fun e =>
      !decide (e.1 = .ringMem ∧ a ≤ 8 * e.2.2 ∧ 8 * e.2.2 + 8 ≤ a + bs.length)) } }

/-- R272, R280: bytes the device writes to a ring or buffer: into ring memory, or by DMA where bus mastering is on. -/
def writeOut (s : State) (inRing : Bool) (base : BitVec 64) (bs : List Byte) : State :=
  if inRing then ringStore s base.toNat bs
  else if s.host.busMaster && decide (s.host.transport = .pcie) then busOut s (.write base bs)
  else s

/-- R284: the status slot of an event ring takes TAIL. -/
def writeEqSlot (s : State) (r : Fin 16) : State :=
  writeOut s (bit (eqCfg s r) 30) (eqBase s r + BitVec.ofNat 64 (16 * depthOf (eqCfg s r)))
    (leBytes s.host.evts[r].tail.toNat 4 ++ leBytes 0 12)

/-- A submission ring after a change of it. -/
def updSub (s : State) (r : Fin 16) (f : SubRing → SubRing) : State :=
  { s with host := { s.host with subs := s.host.subs.set r (f s.host.subs[r]) } }

/-- R281: the status slot of a submission ring was written less than a microsecond ago. -/
def slotHeld (s : State) (r : Fin 16) : Bool :=
  match s.host.subs[r].slotAt with
  | some n => decide (s.time.tick < n + 800)
  | none => false

/-- R281: the status slot of a submission ring takes HEAD and DONE, at once or a microsecond after its last write. -/
def writeSqSlot (s : State) (r : Fin 16) : State :=
  if slotHeld s r then updSub s r (fun x => { x with slotDue := true })
  else
    let x := s.host.subs[r]
    updSub (writeOut s (bit (sqCfg s r) 30) (sqBase s r + BitVec.ofNat 64 (32 * depthOf (sqCfg s r)))
      (leBytes x.head.toNat 2 ++ leBytes x.done.toNat 2 ++ leBytes 0 12)) r
      (fun y => { y with slotAt := some s.time.tick, slotDue := false })

/-- R281: a status slot that is behind is written once a microsecond has passed. -/
def flushSlot (s : State) (r : Fin 16) : State :=
  if s.host.subs[r].slotDue && !slotHeld s r then writeSqSlot s r else s

/-- An event ring after a change of it. -/
def updEvt (s : State) (r : Fin 16) (f : EvtRing → EvtRing) : State :=
  { s with host := { s.host with evts := s.host.evts.set r (f s.host.evts[r]) } }

/-- R293: a source-17 request whose host command came from ring `r`. -/
def waitsFor (q : Request) (r : Fin 16) : Bool :=
  match q.host with
  | some e => decide (e.ring = r)
  | none => false

/-- R293: INVOKE_ROUTINE of a ring has not completed. -/
def invokeOut (s : State) (r : Fin 16) : Bool :=
  (List.finRange 32).any (fun b =>
    s.blks[b].queues.toList.any (fun l => l.any (fun q => waitsFor q r)) ||
      (match s.blks[b].run with
        | some x => waitsFor x.req r
        | none => false))

/-- R288: a disabled submission ring is idle once no command of it is being applied; EN then reads 0. -/
def settleRing (s : State) (r : Fin 16) : State :=
  if s.host.subs[r].disabling && !invokeOut s r && s.host.subs[r].bulk.isNone then
    updSub (setHreg s (sqReg r 0x08) (sqCfg s r &&& 0x7FFFFFFF)) r (fun x => { x with disabling := false })
  else s

/-! ### Completions -/

/-- R291: the statuses that are also entered in the violation log. -/
def logged (t : Status) : Bool := decide (t = .staticLocked ∨ t = .addrInvalid ∨ t = .accessDenied)

/-- R298: the parameter address a command's violation concerns: its PA, the failing word of a block, or the refused
pair. -/
def violAddr (op : Nat) (e : Entry) (b : Word) : Option Nat :=
  if op = 0x10 ∨ op = 0x11 ∨ op = 0x12 then some e.a0.toNat
  else if op = 0x14 ∨ op = 0x15 then some (e.a0.toNat + b.toNat)
  else if op = 0x13 then some (if b = 0 then e.a1.toNat else if b = 1 then e.a3.toNat else e.a5.toNat)
  else none

/-- R298, R322: the violation of a refused command. The log's address of a command that names no parameter is a value
the spec leaves open (log entry 22). -/
def logCommand (s : State) (op : Nat) (e : Entry) (t : Status) (b : Word) : State :=
  if !logged t then s
  else
    match violAddr op e b with
    | some a => violation s a 2 3 3 0 t.code e.seq.toNat
    | none => violation (nextFree s) (freeVal s 32).toNat 2 3 3 0 t.code e.seq.toNat

/-- R294: the doorbell that covers entry `k` of a ring: the first whose TAIL lies beyond it. -/
def bellOf (l : List (BitVec 16 × Nat)) (k : BitVec 16) : Option Nat :=
  match l.find? (fun p => decide ((p.1 - 1#16 - k).toNat < 0x8000)) with
  | some p => some p.2
  | none => none

/-- R290, R296: a command completes in the present tick: its COMPLETION as a supervisor record unless QUIET holds and the
status is OK, DONE, the counts and latencies, and the violation of a refused one. -/
def complete (s : State) (op : Nat) (e : Entry) (t : Status) (b : Word) : State :=
  let r := e.ring
  let k := s.host.subs[r].done
  let s1 := logCommand s op e t b
  let s2 := if bit e.flags 7 && decide (t = .ok) then s1
    else emitAt s1 (fld (sqCfg s r) 27 24) s.time.tick 22
      ⟨0x01, BitVec.ofNat 16 r.val, now s, word (e.seq.toNat * 256 + t.code), b⟩
  let lat := match bellOf s.host.bells[r] k with
    | some n => s.time.tick - n
    | none => 0
  let s2b := noteHost s2 0x07C s2.host.cmdLatMax (fun a => word (min 0xFFFFFF (max a.toNat lat)))
  let s3 := { s2b with host := { s2b.host with
      cmdCount := s2.host.cmdCount + 1
      cmdLatMax := word (min 0xFFFFFF (max s2.host.cmdLatMax.toNat lat))
      bells := s2.host.bells.set r (s2.host.bells[r].filter (fun p =>
        decide ((p.1 - 1#16 - (k + 1#16)).toNat < 0x8000))) } }
  settleRing (writeSqSlot (updSub s3 r (fun x => { x with done := k + 1#16 })) r) r

/-- R283: a ring enters ERROR. -/
def ringError (s : State) (r : Fin 16) : State :=
  raiseIrq { updSub s r (fun x => { x with error := true }) with
    host := { (updSub s r (fun x => { x with error := true })).host with
      sqErr := s.host.sqErr ||| BitVec.ofNat 16 (2 ^ r.val) } } 1

/-- R138: a source-17 request ended by a fault completes its command with SCOPE_FAULT. -/
def scopeFaultOf (s : State) (q : Request) : State :=
  match q.host with
  | some e => complete s 0x42 e .scopeFault 0
  | none => s

end Sys2Proof.Machine
end

