-- ==== Sys2Proof/Machine/LifeStore.lean ====
section
/-!
DEFINITION. Commits to the lifetime store, duty counters and the fault history (14_lifetime_and_monitors.md R375 to
R379), as every unit that counts uses them.
-/
namespace Sys2Proof.Machine

/-- The state with the lifetime part changed. -/
def updLife (s : State) (f : Life → Life) : State := { s with life := f s.life }

/-- R375: a duty counter counts. -/
def dutyAdd (s : State) (k n : Nat) : State :=
  updLife s (fun l => { l with duty := l.duty.set (Fin.ofNat 64 k) (l.duty[Fin.ofNat 64 k] + BitVec.ofNat 48 n) })

/-- R376: the snapshot of every counter and binding, with the next commit number. -/
def snapshotOf (l : Life) (n : Word32) : CommitImg := ⟨n, l.wear, l.binds, l.duty⟩

/-- R376: a commit starts in the present tick. -/
def beginCommit (s : State) : State :=
  updLife s (fun l => { l with writing := some (snapshotOf l (l.lastN + 1)), writeTick := s.time.tick, requested := false })

/-- R376: a commit is requested: it starts now, or after the commit that is writing. Requests of one tick make one
commit. -/
def requestCommit (s : State) : State :=
  match s.life.writing with
  | none => beginCommit s
  | some _ =>
    if s.life.writeTick = s.time.tick then s else updLife s (fun l => { l with requested := true })

/-- R376: at the end of its snapshot tick the commit that started in it takes the counters as they then are. -/
def refreshSnapshot (s : State) : State :=
  match s.life.writing with
  | none => s
  | some w =>
    if s.life.writeTick = s.time.tick then updLife s (fun l => { l with writing := some (snapshotOf l w.n) }) else s

/-- R379: the entry and tag of a record. -/
def histEntry (s : State) (r : Rec) : HistEntry :=
  { body := r, seq := 0, acked := none, closed := none, latched := none, exits := 0,
    boot := (s.life.duty[(3 : Fin 64)]).setWidth 32, cal := s.life.cal, calValid := s.life.calValid }

/-- R379: a new entry joins the 16 pending writes; one that finds them full is lost. -/
def histPush (s : State) (r : Rec) : State :=
  if 16 ≤ s.life.histQueue.length then
    updLife s (fun l => { l with histLost := BitVec.ofNat 8 (satAdd 8 l.histLost.toNat 1) })
  else updLife s (fun l => { l with histQueue := l.histQueue ++ [histEntry s r] })

/-- R379: the entry of a record is rewritten. -/
def histUpdate (s : State) (r : Rec) (f : HistEntry → HistEntry) : State :=
  let g := fun (l : List HistEntry) => l.map (fun h => if h.body = r then f h else h)
  updLife s (fun l => { l with hist := g l.hist, histQueue := g l.histQueue })

/-- R379: HISTORY_WRITE: the oldest pending entry is written; the store keeps the 1,024 newest. -/
def doHistoryWrite (s : State) : State :=
  match s.life.histQueue with
  | [] => s
  | h :: t => updLife s (fun l => { l with histQueue := t, hist := (h :: l.hist).take 1024 })

end Sys2Proof.Machine
end

