-- ==== Sys2Proof/Machine/Faults.lean ====
section
/-!
DEFINITION. The fault collector (11_faults_and_recovery.md R299 to R316): classes, slots, escalation, consequential
faults, reactions, exits and latches, FAULT_N; and the change of operating mode with its record
(12_modes_and_startup.md R325, R330).
-/
namespace Sys2Proof.Machine

/-! ### Operating mode -/

/-- R279: the code of a mode; RETENTION has none. -/
def modeCode (m : Mode) : Nat :=
  match m with
  | .boot => 1
  | .configure => 2
  | .run => 3
  | .degraded => 4
  | .safeHold => 5
  | .halt => 6
  | .service => 7
  | .powerFail => 8
  | .retention => 0

/-- R329: a block sequencer is rebuilding a lane. -/
def dgLane (s : State) : Bool := (List.finRange 32).any (fun b => (s.blks[b].rebuildEnd).isSome)

/-- R264, R269: a port is enabled. -/
def portOn (s : State) (p : Port) : Bool :=
  regBit s (.link 0x00) 0 && regBit s (.link 0x00) (match p with | .a => 1 | .b => 2)

/-- A port of the link. -/
def portOf (s : State) (p : Port) : ElcPort := s.elc.ports[match p with | .a => (0 : Fin 2) | .b => 1]

/-- R245: a LOOPING port is an UP port that turns frames back. -/
def portUp (s : State) (p : Port) : Bool := decide ((portOf s p).st = .up ∨ (portOf s p).st = .looping)

/-- R264, R266, R329: an enabled Electrum port is not UP. -/
def dgElectrum (s : State) : Bool := (portOn s .a && !portUp s .a) || (portOn s .b && !portUp s .b)

/-- R329: the standby PLL is not locked. -/
def dgPll (s : State) : Bool := !s.time.clk.standbyLock

/-- R329: a cause of DEGRADED holds. -/
def degradedCause (s : State) : Bool := dgLane s || dgElectrum s || dgPll s

/-- R326: RUN, or DEGRADED where a cause holds. -/
def runMode (s : State) : Mode := if degradedCause s then .degraded else .run

/-- R313: a scope is latched. -/
def isLatched (s : State) (x : Scope) : Bool := s.flt.scopes.any (fun y => decide (y.scope = x) && y.latched)

/-- R325, R330: a transition that R326 gives with a cause code. -/
def setMode (s : State) (m : Mode) (cause : Nat) : State :=
  let old := s.sys.mode
  let s1 := raiseIrq { s with sys := { s.sys with mode := m, seq := s.sys.seq + 1 } } 4
  if bit s.host.hostCtrl 4 then
    emitAt s1 (fld s.host.hostCtrl 3 0) s.time.tick 22
      ⟨0x04, 0, now s, word (modeCode m * 2 ^ 20 + modeCode old * 2 ^ 16 + cause * 256 + s1.sys.seq.toNat),
        word (bitAt (isLatched s .chip) 3 + bitAt (dgLane s) 2 + bitAt (dgElectrum s) 1 + bitAt (dgPll s) 0)⟩
  else s1

/-- R330: LATCHED after the change may differ, so the reaction sets it before the mode. R326, R329: RUN and DEGRADED
follow the causes. -/
def followCauses (s : State) : State :=
  if decide (s.sys.mode = .run) && degradedCause s then setMode s .degraded 0x03
  else if decide (s.sys.mode = .degraded) && !degradedCause s then setMode s .run 0x04
  else s

/-! ### Scopes -/

/-- R299: the home level of a class. -/
def classLevel (c : Nat) : Nat :=
  if c ≤ 0x0B then 0 else if c ≤ 0x12 then 1 else if c ≤ 0x1D then 2 else if c ≤ 0x24 then 3 else 4

/-- R304: the level of a scope. -/
def scopeLevel (x : Scope) : Nat :=
  match x with
  | .cell _ => 1
  | .block _ => 2
  | .region _ => 3
  | .chip => 4

/-- R309: the scope one level above that holds a scope. -/
def scopeUp (x : Scope) : Scope :=
  match x with
  | .cell c => .block (blockOf c)
  | .block b => .region (regionOfBlock b)
  | .region _ => .chip
  | .chip => .chip

/-- R309: the scope of a level that holds a scope. -/
def liftTo (x : Scope) (lvl : Nat) : Scope :=
  match lvl - scopeLevel x with
  | 0 => x
  | 1 => scopeUp x
  | 2 => scopeUp (scopeUp x)
  | _ => scopeUp (scopeUp (scopeUp x))

/-- R304: a scope is another or lies within it. -/
def scopeIn (inner outer : Scope) : Bool :=
  decide (scopeLevel inner ≤ scopeLevel outer) && decide (liftTo inner (scopeLevel outer) = outer)

/-- R302: the Source of a fault record. -/
def scopeSrc (x : Scope) : Nat :=
  match x with
  | .cell c => 1 * 8192 + c.val
  | .block b => 2 * 8192 + b.val
  | .region r => 3 * 8192 + r.val
  | .chip => 4 * 8192

/-- R304: the cells of a scope. -/
def cellsOfScope (x : Scope) : List (Fin 512) :=
  match x with
  | .cell c => [c]
  | .block b => cellsOfBlock b
  | .region r => cellsOfRegion r
  | .chip => List.finRange 512

/-- R304: the blocks that a scope holds whole. -/
def blocksOfScope (x : Scope) : List (Fin 32) :=
  match x with
  | .cell _ => []
  | .block b => [b]
  | .region r => (List.range 8).map (fun i => Fin.ofNat 32 (r.val * 8 + i))
  | .chip => List.finRange 32

/-- R304: the regions that a scope holds whole. -/
def regionsOfScope (x : Scope) : List (Fin 4) :=
  match x with
  | .region r => [r]
  | .chip => List.finRange 4
  | _ => []

/-- R313: the exits of a scope in the last hour. -/
def exitCount (s : State) (x : Scope) : Nat :=
  (s.flt.exits.filter (fun e => decide (e.1 = x ∧ s.time.tick < e.2 + 2880000000000))).length

/-- The collector after a change of it. -/
def updFlt (s : State) (f : Collector → Collector) : State := { s with flt := f s.flt }

/-! ### Records and FAULT_N -/

/-- R302: a FAULT record. -/
def emitFault (s : State) (r : Rec) : State :=
  raiseIrq (emitAt (updFlt s (fun c => { c with seq := c.seq + 1 })) (regFld s (.faults 0x00) 23 20) s.time.tick 21 r) 3

/-- R302: the record of an event of a scope: 1 EXIT, 2 LATCHED, 3 RELEASED. -/
def scopeRec (s : State) (x : Scope) (event : Nat) : Rec :=
  let l := scopeLevel x
  ⟨0x05, BitVec.ofNat 16 (scopeSrc x), now s, word (l * 2 ^ 13 + l * 2 ^ 10 + event * 2 ^ 6 + 0x3F),
    word (min 15 (exitCount s x))⟩

/-- R316: a qualifying event asserts FAULT_N and restarts its least width. -/
def assertPin (s : State) (lvl : Nat) : State :=
  if regFld s (.faults 0x00) 18 16 ≤ lvl then
    updFlt s (fun c => { c with pin := true, pinReleased := false,
                                pinUntil := s.time.tick + regFld s (.faults 0x00) 9 0 * 16000 })
  else s

/-! ### Latching -/

/-- R302, R309, R313, R314: a scope in fault state latches. -/
def latchScope (s : State) (x : Scope) : State :=
  if isLatched s x then s
  else
    let s1 := updFlt s (fun c =>
      { c with scopes := c.scopes.map (fun y => if y.scope = x then { y with latched := true } else y),
               slots := c.slots.map (fun o => match o with
                 | some f => if f.applied = x ∧ f.closed = none then some { f with latched := some (now s) } else some f
                 | none => none) })
    let r := scopeRec s1 x 2
    let s2 := s.flt.slots.toList.foldl (fun z o => match o with
      | some f => if f.applied = x ∧ f.closed = none then
          histUpdate z f.body (fun h => { h with latched := some (now s) }) else z
      | none => z) s1
    assertPin (histPush (emitFault (dutyAdd s2 (36 + scopeLevel x - 1) 1) r) r) (scopeLevel x)

/-! ### Reactions -/

/-- R189, R191, R306: a cell is the compare or emulation target of an enabled channel. -/
def channelTarget (s : State) (c : Fin 512) : Bool :=
  (List.finRange 64).any (fun k =>
    decide (regionOfChan k = regionOf c) && regBit s (.chan k 0x00) 0 &&
      ((regBit s (.chan k 0x00) 1 && decide (regFld s (.chan k 0x11) 6 0 = c.val % 128)) ||
        (regBit s (.chan k 0x00) 2 &&
          (decide (regFld s (.chan k 0x16) 6 0 = c.val % 128) || decide (regFld s (.chan k 0x16) 13 7 = c.val % 128)))))

/-- R306: an edge of a compare that a reaction leaves alone: one that a position channel loaded (R193). -/
def channelOut (o : OutEdge) : Bool :=
  match o.note with
  | .compare _ v _ _ _ => decide (v.owner = .channel)
  | _ => false

/-- R306: a compare that no channel loaded is disarmed. -/
def reactCompare (s : State) (c : Fin 512) (u : CmpUnit) (reason : Nat) : State :=
  if (cmpOf s.cells[c] u).owner = .channel then s else disarm s c u reason

/-- R306: what a reaction does to a cell. The angle queue is left to `emptyTables` at L4. -/
def reactCell (s : State) (c : Fin 512) (l4 : Bool) : State :=
  let reason := if l4 then 0x08 else 0x09
  let kept := (outsOf s c).filter channelOut
  let s1 := dropOuts (dropLate (reactCompare (reactCompare s c .a reason) c .b reason) c reason) c reason
  let s2 := { s1 with agenda := { s1.agenda with outs := s1.agenda.outs ++ kept } }
  let s3 := if l4 then s2 else cancelQueue s2 c reason (fun x o => occDone x o false true)
  if channelTarget s c then s3 else updCell s3 c (fun x => { x with latch := false })

/-- R307: an effect is a write of cell `n`. -/
def effectOnCell (n : Fin 16) (e : Effect) : Bool :=
  match e with
  | .cell _ c _ => decide (c = n)
  | _ => false

/-- A block runs a routine of a source. -/
def runsSource (s : State) (b : Fin 32) (src : Fin 20) : Bool :=
  match s.blks[b].run with
  | some x => decide (x.src = src)
  | none => false

/-- R138, L1: the routine is abandoned where its buffer holds an effect on the cell, without counting toward promotion;
the source's waiting requests are discarded. -/
def reactCellBlock (s : State) (c : Fin 512) : State :=
  let b := blockOf c
  let n := cellIn c
  let src : Fin 20 := Fin.ofNat 20 n.val
  let kept : List Request := if runsSource s b src then s.blks[b].queues[src].take 1 else []
  let s1 := updBlk s b (fun k => { k with queues := k.queues.set src kept })
  match s.blks[b].run with
  | some x =>
    let pending := match x.phase with
      | .tail _ => false
      | _ => true
    if pending && x.buf.any (effectOnCell n) then
      updBlk (noteRun s1 b) b (fun k => { k with run := none, freeAt := s.time.tick + 1 })
    else s1
  | none => s1

/-- R138, L2 to L4: the routine ends at once, every request is discarded, and host commands complete with SCOPE_FAULT. -/
def endSequencer (s : State) (b : Fin 32) : State :=
  let reqs := s.blks[b].queues.toList.flatMap (fun l => l)
  let s1 := updBlk (noteRun s b) b (fun k =>
    { k with run := none, queues := Vector.replicate 20 [], freeAt := s.time.tick + 1 })
  reqs.foldl scopeFaultOf s1

/-- R314: CS_UNCORR in Ronarna microcode: the word is copied from another block's store. -/
def mendStore (s : State) (b : Fin 32) (a : Nat) : State :=
  match (List.finRange 32).find? (fun x => decide (x ≠ b) && !eccBad s .controlStore x.val a) with
  | some x => clearEcc (setCstore s b a (cstoreAt s x a)) .controlStore b.val a
  | none => s

/-- R314: RINGMEM_UNCORR: every event ring discards its spill content, which counts as dropped. -/
def discardSpill (s : State) : State :=
  let lost := (List.finRange 16).foldl (fun a r => a + bitAt (!(s.host.evts[r]).spill.isEmpty) r.val) 0
  let s := orReg s (.chip 0x09) lost
  { s with host := { s.host with evts := s.host.evts.map (fun e =>
      match e.spill with
      | [] => e
      | h :: _ => { e with spill := [], dropped := e.dropped + e.spill.length, firstDropped := h.1 }) } }

/-- R314: the class latches its scope at once. -/
def latchesAtOnce (cls : Nat) (detail : Word) : Bool :=
  decide (cls = 0x19 ∨ cls = 0x20 ∨ cls = 0x30) || (decide (cls = 0x18) && decide (0xC00 ≤ fld detail 11 0))

/-- R304 to R306, R314: what the units do in the reaction tick of a fault of class `cls` and home `home` applied to scope
`x`. -/
def react (s : State) (x : Scope) (cls : Nat) (home : Scope) (detail : Word) : State :=
  let l4 := decide (x = .chip)
  let s1 := (cellsOfScope x).foldl (fun z c => reactCell z c l4) s
  let s2 := if l4 then emptyTables s1 0x08 else s1
  let s3 := match x with
    | .cell c => reactCellBlock s2 c
    | _ => (blocksOfScope x).foldl endSequencer s2
  let s4 := match cls, home with
    | 0x23, .region r => updSeq s3 r (fun q => { q with pend := [], held := true })
    | 0x18, .block b => if fld detail 11 0 < 0xC00 then mendStore s3 b (fld detail 11 0) else s3
    | 0x30, _ => discardSpill s3
    | _, _ => s3
  if l4 && inRun s4 then setMode { s4 with sys := { s4.sys with left := s4.sys.mode } } .safeHold 0x05 else s4

/-- R308, R346: the collector works outside BOOT, POWER-FAIL and RETENTION. -/
def collectorOn (s : State) : Bool := alive s && decide (s.sys.mode ≠ .powerFail)

/-- R304: the last tick of a reaction window after the detection tick. -/
def windowOf (cls lvl : Nat) : Nat := if cls = 0x2B then 112 else if lvl ≤ 2 then 80 else if lvl = 3 then 96 else 144

/-- R311: a new fault applied to scope `x` starts its quiet period and those of the scopes around it anew. -/
def restartQuiet (s : State) (x : Scope) (det : Nat) : State :=
  updFlt s (fun c => { c with scopes := c.scopes.map (fun y => if scopeIn x y.scope then { y with quietFrom := det } else y) })

/-- R304: a scope comes into fault state in the present tick, its reaction tick. -/
def enterScope (s : State) (x : Scope) : State :=
  if inFault s x then s
  else updFlt s (fun c => { c with scopes := c.scopes ++ [⟨x, s.time.tick, s.time.tick - 1, false, false⟩] })

/-- R304, R309, R314: the reaction tick of a fault: the scope is in fault state, latches where the fault asks for it, and its
units react. -/
def reactNow (s : State) (x : Scope) (cls : Nat) (home : Scope) (detail : Word) (latch : Bool) : State :=
  if !collectorOn s then s
  else
    let s1 := enterScope s x
    react (if latch then latchScope s1 x else s1) x cls home detail

/-- R304: the reactions that are due in the present tick, which has just begun. -/
def reactions (s : State) : State :=
  s.agenda.jobs.foldl (fun z j =>
    match j with
    | (n, .react x cls home detail latch) => if n ≤ s.time.tick then reactNow z x cls home detail latch else z
    | _ => z) { s with agenda := { s.agenda with jobs := s.agenda.jobs.filter (fun j =>
      match j with
      | (n, .react _ _ _ _ _) => !decide (n ≤ s.time.tick)
      | _ => true) } }

/-- R301: the lowest free slot. -/
def freeFaultSlot (s : State) : Option (Fin 64) := (List.finRange 64).find? (fun k => decide (s.flt.slots[k] = none))

/-- R309: an open, unacknowledged fault of the class and home scope. -/
def escalates (s : State) (cls : Byte) (home : Scope) : Bool :=
  s.flt.slots.toList.any (fun o => match o with
    | some f => decide (f.cls = cls ∧ f.home = home ∧ f.acked = none)
    | none => false)

/-- R301, R309: a fault of L1 to L4 that is not consequential: its slot, record and history entry, and its reaction in the next
tick. -/
def takeFault (s : State) (r : Report) : State :=
  let cls := r.cls.toNat
  let home := classLevel cls
  let esc := escalates s r.cls r.home
  let lvl := min 4 (if esc then home + 1 else home)
  let x := liftTo r.home lvl
  let slot := freeFaultSlot s
  let k := match slot with
    | some n => n.val
    | none => 0x3F
  let body : Rec := ⟨0x05, BitVec.ofNat 16 (scopeSrc r.home), r.t,
    word (cls * 2 ^ 16 + home * 2 ^ 13 + lvl * 2 ^ 10 + bitAt esc 9 + k), r.detail⟩
  let s1 := match slot with
    | some n => histPush (emitFault (updFlt s (fun c =>
        { c with slots := c.slots.set n (some ⟨r.cls, r.home, x, lvl, esc, none, none, none, 0, body⟩) })) body) body
    | none => orReg (bump (updFlt s (fun c => { c with lostSince := c.lostSince + 1 })) (.faults 0x08) 23 0 1)
        (.faults 0x01) 0x100
  let s2 := updFlt s1 (fun c =>
    { c with windows := c.windows.filter (fun w => decide (s.time.tick ≤ w.last)) ++
        [⟨x, k, lvl, r.tick, r.tick + windowOf cls lvl⟩] })
  let s3 := restartQuiet s2 x r.tick
  let s4 := if slot = none then s3 else assertPin s3 lvl
  addJob s4 (s.time.tick + 1) (.react x cls r.home r.detail ((esc && decide (home = 4)) || latchesAtOnce cls r.detail))

/-- R300, R324: an L1 class that is handled as L0. -/
def maskedClass (s : State) (r : Report) : Bool :=
  r.masked || (decide (0x10 ≤ r.cls.toNat ∧ r.cls.toNat ≤ 0x12) && regBit s (.faults 0x07) (r.cls.toNat - 0x10))

/-- R310: the earlier fault whose reaction covers a detection. -/
def causeOf (s : State) (r : Report) : Option Window :=
  s.flt.windows.find? (fun w => decide (w.det < r.tick ∧ r.tick ≤ w.last) && scopeIn r.home w.scope)

/-- R300, R301, R310: the collector takes a detection. -/
def takeReport (s : State) (r : Report) : State :=
  let cls := r.cls.toNat
  let lvl := classLevel cls
  let cause := causeOf s r
  let s1 := if decide (cls ≤ 0x0B ∨ 0x10 ≤ cls ∧ cls ≤ 0x12) && decide (cause = none) then
      bump s (.faults (0x80 + cls)) 23 0 1 else s
  let out := fun (l : Nat) (conseq : Bool) (slot : Nat) =>
    emitFault s1 ⟨0x05, BitVec.ofNat 16 (scopeSrc r.home), r.t,
      word (cls * 2 ^ 16 + lvl * 2 ^ 13 + l * 2 ^ 10 + bitAt conseq 8 + slot), r.detail⟩
  if decide (lvl = 0) || maskedClass s r then
    if regBit s (.faults 0x00) 19 || decide (cls = 0x0A) then
      match cause with
      | some w => out w.level true w.slot
      | none => out 0 false 0x3F
    else s1
  else
    match cause with
    | some w => out w.level true w.slot
    | none => takeFault s1 r

/-- R315: two detections of one tick: ascending class, then ascending Value B. -/
def insertReport (l : List Report) (r : Report) : List Report :=
  match l with
  | [] => [r]
  | q :: t =>
    if r.cls < q.cls ∨ (r.cls = q.cls ∧ r.detail < q.detail) then r :: q :: t else q :: insertReport t r

/-- The detections reported since the last call go through the collector. -/
def collect (s : State) : State :=
  let l := s.flt.reports.foldl insertReport []
  let s1 := updFlt s (fun c => { c with reports := [] })
  if collectorOn s then l.foldl takeReport s1 else s1

/-- R315: a fault of the present tick that is not consequential was applied to a scope or within it. -/
def faultNow (s : State) (x : Scope) : Bool :=
  s.flt.windows.any (fun w => decide (w.det = s.time.tick) && scopeIn w.scope x)

/-! ### Exits -/

/-- R147, R163: a carrier's cells: the block's in DUAL-EDGE mode, or the region's in GANG mode. -/
def carrierCells (s : State) (k : Carrier) : List (Fin 512) :=
  match k with
  | .block b => (cellsOfBlock b).filter (fun c => decide (cellMode s c = 2))
  | .gang r => (cellsOfRegion r).filter (fun c => decide (cellMode s c = 3))

/-- R165, R167: the control parameter of a carrier. -/
def carrierCtrl (k : Carrier) : PLoc :=
  match k with
  | .block b => .block b 0x0C
  | .gang r => .gang r 0x00

/-- R147: the count of a carrier in tick `n`; one that has stopped, or that a HALT holds, keeps its count (R164). -/
def carCountAt (x : CarrierSt) (n : Nat) : Nat :=
  match x.frozen, x.start, x.next with
  | some f, _, _ => f
  | none, some p, some q => if q ≤ n then n - q else n - p
  | none, some p, none => n - p
  | none, none, some q => n - q
  | none, none, none => 0

/-- R147: EN = 0 takes effect in the next tick: the count stops at the value it has then, the latches of the carrier's
cells go to 0 and their pending edges are dropped. In HALT it keeps the count it stands at (R164). -/
def stopCarrier (s : State) (k : Carrier) : State :=
  let s1 := updCarrier (clrReg s (carrierCtrl k) 1) k (fun x =>
    { x with running := false, next := none, ctrigs := [], wait := false,
             frozen := match x.frozen with
               | some f => some f
               | none => some (carCountAt x (s.time.tick + 1)) })
  (carrierCells s k).foldl (fun z c => updCell (dropOuts z c 0) c (fun x =>
    { x with latch := false, pwmEdges := [], pwmIdeal := false })) s1

/-- R163: the cells of a scope that leaves its fault state. -/
def resumeCarriers (s : State) (x : Scope) : State :=
  let ks := (blocksOfScope (liftTo x (max 2 (scopeLevel x)))).map Carrier.block ++
    (if scopeLevel x = 4 then (List.finRange 4).map Carrier.gang
     else match liftTo x 3 with
       | .region r => [Carrier.gang r]
       | _ => [])
  ks.foldl (fun z k =>
    let mine := (carrierCells z k).filter (fun c => scopeHas x c)
    if mine.isEmpty || !regBit z (carrierCtrl k) 0 then z
    else if regBit z (carrierCtrl k) 1 then
      mine.foldl (fun y c => updCell y c (fun w => { w with pwmWait := some s.time.tick })) z
    else stopCarrier z k) s

/-- R312: the offsets of a cell's image. -/
def imageOffsets : List Nat := [0x00, 0x01, 0x09, 0x0B, 0x0C, 0x0D]

/-- The defined bits of an imaged parameter. -/
def imageMask (off : Nat) : Word :=
  match infoCell off with
  | some i => i.rw
  | none => 0

/-- R312: a cell is reloaded from its image. -/
def reloadCell (s : State) (c : Fin 512) : State :=
  imageOffsets.foldl (fun z off =>
    setReg z (.cell c off) (pramAt z (blockOf c) (0x0E00 + 16 * (c.val % 16) + off) &&& imageMask off)) s

/-- R312, L2: the lanes are whole, a rebuild is dropped, the queues are empty, and the block timer starts a new
period. -/
def reloadBlock (s : State) (b : Fin 32) : State :=
  let s1 := endSequencer s b
  let s2 := reload s1 (.block b 0x04) s.time.tick
  let p := (work s2 (.block b 0x04)).toNat
  updBlk s2 b (fun k =>
    { k with voting := 7, rebuildEnd := none,
             timerNext := if regBit s (.block b 0x00) 1 ∧ p ≠ 0 then some (s.time.tick + p) else none })

/-- R301: a slot frees; lost faults then give one COLLECTOR_OVF record. -/
def freeSlotOf (s : State) (k : Fin 64) : State :=
  let s1 := updFlt s (fun c => { c with slots := c.slots.set k none })
  if s.flt.lostSince = 0 then s1
  else takeReport (updFlt s1 (fun c => { c with lostSince := 0 }))
    ⟨0x0A, .chip, word (min 0xFFFFFF s.flt.lostSince), false, s.time.tick, now s⟩

/-- R301, R303: the faults whose reaction applied to a scope are closed; acknowledged ones free their slot. -/
def closeFaults (s : State) (x : Scope) : State :=
  (List.finRange 64).foldl (fun z k =>
    match z.flt.slots[k] with
    | some f =>
      if f.applied = x ∧ f.closed = none then
        let z1 := histUpdate z f.body (fun h =>
          { h with closed := some (now s), exits := BitVec.ofNat 8 (min 255 (exitCount z x)) })
        if f.acked.isSome then freeSlotOf z1 k
        else updFlt z1 (fun c => { c with slots := c.slots.set k (some { f with closed := some (now s) }) })
      else z
    | none => z) s

/-- R312, R313: a scope leaves its fault state: by its exit, or by a release. Its cells ask for their reload, and its pins
leave their safe drive in the next tick. -/
def exitScope (s : State) (x : Scope) (released : Bool) : State :=
  let s1 := (cellsOfScope x).foldl (fun z c => addLate z 1 .supervisor (.reload c)) s
  let s2 := (blocksOfScope x).foldl reloadBlock s1
  let s3 := (regionsOfScope x).foldl (fun z r => updSeq z r (fun q => { q with held := false })) s2
  let s4 := updFlt s3 (fun c =>
    { c with scopes := c.scopes.filter (fun y => !decide (y.scope = x)), leaving := x :: c.leaving,
             exits := if released then c.exits.filter (fun e => !decide (e.1 = x))
               else (x, s.time.tick) :: c.exits.filter (fun e => decide (s.time.tick < e.2 + 2880000000000)) })
  let s5 := resumeCarriers (dutyAdd s4 (32 + scopeLevel x - 1) 1) x
  let s6 := emitFault s5 (scopeRec s5 x (if released then 3 else 1))
  let s7 := closeFaults s6 x
  if decide (x = .chip) && decide (s.sys.mode = .safeHold) then setMode s7 (runMode s7) (if released then 0x07 else 0x06)
  else s7

/-- R311: the active conditions of a scope. -/
def activeCond (s : State) (x : Scope) : Bool :=
  match x with
  | .chip =>
    s.flt.safeReqLow || s.host.hostLost || s.mons.toList.any (fun m => m.crit.crossed) ||
      (List.finRange 64).any (fun w => s.comps[w].trip && decide (regFld s (.comp w 0x1) 12 11 = 2))
  | .region r =>
    (List.finRange 64).any (fun w =>
      decide (regionOfComp w = r) && s.comps[w].trip && decide (regFld s (.comp w 0x1) 12 11 = 1))
  | _ => false

/-- R311: counting starts in the tick after the last active condition ends. -/
def noteActive (s : State) : State :=
  let cond := s.flt.scopes.map (fun y => (y, activeCond s y.scope))
  updFlt s (fun c => { c with scopes := cond.map (fun p =>
    { p.1 with active := p.2, quietFrom := if p.1.active || p.2 then max p.1.quietFrom (s.time.tick + 1) else p.1.quietFrom }) })

/-- R311, R323: the quiet period of a level, in ticks. -/
def quietOf (s : State) (x : Scope) : Nat := (reg s (.faults (0x01 + scopeLevel x))).toNat * 80000

/-- R313, R324: the recovery limit of a level. -/
def recoveryLimit (s : State) (x : Scope) : Nat :=
  let l := scopeLevel x
  regFld s (.faults 0x06) (4 * l - 1) (4 * l - 4)

/-- R311, R313: QUIET_PERIOD_END: the scope exits, or latches at its limit. -/
def doQuietPeriodEnd (x : Scope) (s : State) : State :=
  match s.flt.scopes.find? (fun y => decide (y.scope = x)) with
  | none => s
  | some y =>
    if !collectorOn s || y.latched || activeCond s x || decide (s.time.tick < y.quietFrom + quietOf s x) then s
    else if recoveryLimit s x ≤ exitCount s x then latchScope s x
    else exitScope s x false

/-! ### FAULT_N, SAFE_REQ_N, and detections from outside -/

/-- R316, R331: FAULT_N is asserted. -/
def faultPin (s : State) : Bool :=
  s.flt.pin || s.time.clk.coreLost || decide (s.sys.mode = .boot ∨ s.sys.mode = .powerFail)

/-- R316: PIN_WIDTH_EXPIRY: after an accepted release, FAULT_N deasserts at the end of its least width. -/
def doPinWidthExpiry (s : State) : State :=
  if s.flt.pin && s.flt.pinReleased && decide (s.flt.pinUntil ≤ s.time.tick) then
    updFlt s (fun c => { c with pin := false, pinReleased := false })
  else s

/-- R317: SAFE_REQ_N: the fourth consecutive low tick is the present one; the fault carries the edge's tick. -/
def doSafeReqN (s : State) : State :=
  if s.flt.safeReqLow then s
  else
    let s1 := { s with pins := { s.pins with safeReqN := false }, flt := { s.flt with safeReqLow := true } }
    { s1 with flt := { s1.flt with reports := s1.flt.reports ++
        [⟨0x2B, .chip, 0, false, s.time.tick - 3, now s - 3#48⟩] } }

/-- R311: SAFE_REQ_N_RISE. -/
def doSafeReqNRise (s : State) : State :=
  { s with pins := { s.pins with safeReqN := true }, flt := { s.flt with safeReqLow := false } }

/-- R299: the home scope of a class that a detector reports with an index. -/
def homeOf (cls : Nat) (i : Fin 512) : Scope :=
  match classLevel cls with
  | 0 => if cls = 0x02 ∨ cls = 0x04 ∨ cls = 0x05 then .block (Fin.ofNat 32 i.val) else .chip
  | 1 => .cell i
  | 2 => .block (Fin.ofNat 32 i.val)
  | 3 => .region (Fin.ofNat 4 i.val)
  | _ => .chip

/-- R299: the classes of the table. -/
def classDefined (c : Nat) : Bool :=
  decide (1 ≤ c ∧ c ≤ 0x0B ∨ 0x10 ≤ c ∧ c ≤ 0x12 ∨ 0x18 ≤ c ∧ c ≤ 0x1D ∨ 0x20 ≤ c ∧ c ≤ 0x24 ∨ 0x28 ≤ c ∧ c ≤ 0x30)

/-- R299, R303: the content a class is about is marked uncorrectable. -/
def markLost (s : State) (cls : Nat) (i : Fin 512) (d : Word) : State :=
  if cls = 0x18 then setEccBad s .controlStore (i.val % 32) (fld d 11 0)
  else if cls = 0x19 then setEccBad s .paramRam (i.val % 32) (fld d 12 0)
  else if cls = 0x20 then setEccBad s .regionRam (i.val % 4) (fld d 15 0)
  else if cls = 0x30 then setEccBad s .ringMem 0 (fld d 17 0)
  else s

end Sys2Proof.Machine
end

