-- ==== Sys2Proof/Machine/Domains.lean ====
section
/-!
DEFINITION. Tooth trackers and angle domains (02_angle_domains.md R50 to R80; line-time steps R31): accepting edges,
synthetic and gap teeth, checks, sync states, delivery to the leaves, channel and virtual sources.
-/
namespace Sys2Proof.Machine

/-! ### Configuration -/

/-- R79: DOM_CTRL.EN. -/
def domEn (s : State) (d : Fin 16) : Bool := regBit s (.dom d 0x00) 0

/-- R50: DOM_CFG.SRC_KIND. -/
def domKind (s : State) (d : Fin 16) : Nat := regFld s (.dom d 0x01) 7 6

/-- R53: gear class. -/
def gearClass (s : State) (d : Fin 16) : Bool := regBit s (.dom d 0x01) 8

/-- R79: the ring of a domain's records. -/
def domRing (s : State) (d : Fin 16) : Nat := regFld s (.dom d 0x01) 23 20

/-- R79: GAP_CFG.GAP_KIND, 0 NONE, 1 MISSING, 2 EXTRA; a channel ignores GAP_CFG (R71). -/
def gapKind (s : State) (d : Fin 16) : Nat := if domKind s d = 0 then regFld s (.dom d 0x03) 13 12 else 0

/-- R79: GAP_TEETH. -/
def gapTeeth (s : State) (d : Fin 16) : Nat := regFld s (.dom d 0x03) 11 10

/-- R79: GAP_POS. -/
def gapPos (s : State) (d : Fin 16) : Nat := regFld s (.dom d 0x03) 9 6

/-- R79: GAP_TOL. -/
def gapTol (s : State) (d : Fin 16) : Nat := regFld s (.dom d 0x03) 5 3

/-- R78: GAP_INDEX. -/
def gapIndex (s : State) (d : Fin 16) : Nat := regFld s (.dom d 0x04) 11 0

/-- R51: the tracker a domain selects. -/
def trkOf (s : State) (d : Fin 16) : Fin 16 := Fin.ofNat 16 (regFld s (.dom d 0x01) 5 0)

/-- R51: the enabled domain that a tracker serves. -/
def domOfTrk (s : State) (k : Fin 16) : Option (Fin 16) :=
  (List.finRange 16).find? (fun d => domEn s d && decide (domKind s d = 0) && decide (trkOf s d = k))

/-- R51: another enabled domain than `d` has selected tracker `k`. -/
def trkUsed (s : State) (d k : Fin 16) : Bool :=
  (List.finRange 16).any (fun x => decide (x ≠ d) && domEn s x && decide (domKind s x = 0) && decide (trkOf s x = k))

/-- R51: another enabled domain has the tracker of a domain's selection. -/
def trkTaken (s : State) (d : Fin 16) : Bool := decide (domKind s d = 0) && trkUsed s d (trkOf s d)

/-- R78: the TRK_CFG that a tracker uses, which it takes while its domain is disabled. -/
def trkCfg (s : State) (d : Fin 16) : Word := work s (.dom d 0x05)

/-- R78: the tracker takes TRK_CFG while the domain is disabled. -/
def takeTrkCfg (s : State) (d : Fin 16) : State :=
  if domEn s d then s else setWork s (.dom d 0x05) (reg s (.dom d 0x05))

/-- R36, R52: the ticks between an instant a tracker decides at and its update tick. -/
def trkLead (s : State) (d : Fin 16) : Nat :=
  16 + (match xbar (regionOfTrk (trkOf s d)) (fld (trkCfg s d) 7 0) with
    | some x => pathDelay s x
    | none => 0)

/-- R53: the period of the last delivered tooth in ticks; 0 invalid. -/
def periodTicks (s : State) (d : Fin 16) : Nat := s.doms[d].period.toNat * prescOf s d

/-- A signed distance between line times. -/
def dist (a b : Time) : Int := (a - b).toInt

/-- R64: a state that delivers teeth. -/
def counting (t : SyncState) : Bool := decide (t = .syncing ∨ t = .synced ∨ t = .suspect)

/-- R64: SYNCED or SUSPECT. -/
def trusted (t : SyncState) : Bool := decide (t = .synced ∨ t = .suspect)

/-- R64: the code of a state. -/
def stateCode (t : SyncState) : Nat :=
  match t with
  | .off => 0
  | .syncing => 1
  | .synced => 2
  | .suspect => 3
  | .lost => 4
  | .stopped => 5

/-- R78: a flag of DOM_STAT. -/
def domFlag (s : State) (d : Fin 16) (i : Nat) : State := orReg s (.dom d 0x19) (2 ^ i)

/-- R78: a counter at 0x20 to 0x27. -/
def domCount (s : State) (d : Fin 16) (o : Nat) : State := bump s (.dom d o) 23 0 1

/-! ### The tooth boundary of class H parameters -/

/-- R78: the parameters whose boundary is the tooth; INDEX_SET is taken by the tooth itself. -/
def toothParams : List Nat := [0x06, 0x07, 0x08, 0x09, 0x0A, 0x14, 0x17]

/-- R78: the parameters of the tooth boundary become working in tick `b`; a late write sets LATE_UPDATE. -/
def takeBoundary (s : State) (d : Fin 16) (b : Nat) : State :=
  let late := (0x0D :: toothParams).any (fun o => lateAt s (.dom d o) b)
  let s1 := toothParams.foldl (fun z o => reload z (.dom d o) b) s
  if late then domFlag s1 d 3 else s1

/-- R79: the index that a pending INDEX_SET gives in tick `b`. -/
def pendingIndex (s : State) (d : Fin 16) (b : Nat) : Option Nat :=
  let v := shadowAt s (.dom d 0x0D) b
  if bit v 12 then some (fld v 11 0) else none

/-- R79: the tooth of tick `b` consumes a pending INDEX_SET; a write that reaches the shadow later stays. -/
def consumeIndex (s : State) (d : Fin 16) (b : Nat) : State :=
  if decide (shadowAt s (.dom d 0x0D) b = reg s (.dom d 0x0D)) then clrReg s (.dom d 0x0D) 0x1000 else s

/-! ### State changes and records -/

/-- R75: a DOMAIN_STATE record, and what every state change leaves: LAST_CAUSE and the counts of losses and stops. -/
def stateRecord (s : State) (d : Fin 16) (tick : Nat) (ts : Time) (old new : SyncState) (cause : Nat) (ang : Word) :
    State :=
  let s1 := setReg s (.dom d 0x1F) (word (fld ang 23 12 * 4096 + cause))
  let s2 := if new = .lost then bump s1 (.dom d 0x26) 23 12 1 else if new = .stopped then bump s1 (.dom d 0x26) 11 0 1
    else s1
  emitAt s2 (domRing s d) tick (4 + d.val)
    ⟨0x10, BitVec.ofNat 16 d.val, ts, word (stateCode new * 2 ^ 21 + stateCode old * 2 ^ 18 + cause * 2 ^ 8), ang⟩

/-- R62, R64: the leaves stop following: the micro-tick keeps the value it had in tick `t`. -/
def freezeLeaf (s : State) (d : Fin 16) (t : Time) : State :=
  let m := leafMicro { s with time := { s.time with lt := t } } d
  updDom s d (fun x => { x with leafMicro := some (BitVec.ofNat 12 m), leafPeriod := 0 })

/-- A tooth or change joins those on their way to the leaves, in order of update tick. -/
def insertTooth (l : List Tooth) (t : Tooth) : List Tooth :=
  match l with
  | [] => [t]
  | u :: r => if before t.upd u.upd then t :: u :: r else u :: insertTooth r t

/-- Sending a tooth or change to the leaves. -/
def sendTooth (s : State) (d : Fin 16) (t : Tooth) : State :=
  updDom s d (fun x => { x with flight := insertTooth x.flight t })

/-- A state change that no tooth carries: it takes effect at the tracker side now and at the leaves in tick `upd`,
after what is on its way to them already. -/
def sendChange (s : State) (d : Fin 16) (ts upd : Time) (new : SyncState) (cause : Nat) (ang : Option Word) : State :=
  let old := s.doms[d].st
  let last := match s.doms[d].flight.getLast? with
    | some u => laterOf u.upd upd
    | none => upd
  let t : Tooth := ⟨.change, ts, s.doms[d].idx, 0, last, new, [(old, BitVec.ofNat 8 cause)], false, 0, none, none, none,
    none, ang, none⟩
  sendTooth (updDom s d (fun x => { x with st := new })) d t

/-- R60, R64: a domain that enters LOST, STOPPED or OFF has no valid period and no base. -/
def dropPeriod (s : State) (d : Fin 16) : State := updDom s d (fun x => { x with period := 0, base := false })

/-- R71, R73, R65: a source fault. Its record is stamped with the present line time (log entry 90). -/
def sourceFault (s : State) (d : Fin 16) : State :=
  if counting s.doms[d].st || decide (s.doms[d].st = .stopped) then
    dropPeriod (sendChange (domFlag s d 5) d (now s) (plus (now s) 8) .lost 0x0C none) d
  else s

/-! ### Delivering a tooth -/

/-- What a tooth brings to `deliver`: kind, pin time, update tick, boundary tick, its period, a forced index, a period
jump, whether it confirms or misplaces a gap, residue counts, and an angle or cycle that its source gives. -/
structure ToothIn where
  kind : ToothKind
  pin : Time
  upd : Time
  bound : Nat
  period : Word
  force : Option Nat
  jumped : Bool
  gapOk : Bool
  gapBad : Bool
  clamp : Option Nat
  jump : Option Nat
  cycle : Option Word
  micro : Option (BitVec 12)
  resync : Bool
deriving DecidableEq, Repr

/-- R65: the next state and cause for a tooth in state `cur`, with the counts after it. Where a ratio failure and a misplaced
gap both make the domain SUSPECT, the cause is PERIOD_JUMP (log entry 89). -/
def nextState (s : State) (d : Fin 16) (cur : SyncState) (t : ToothIn) : SyncState × Option Nat × Nat × Nat :=
  let x := s.doms[d]
  let passes := decide (t.kind = .real ∨ t.kind = .generated) && decide (t.period ≠ 0) && !t.jumped
  let need := regFld s (.dom d 0x0C) 7 0
  let recov := regFld s (.dom d 0x0C) 15 8
  let noGap := decide (gapKind s d = 0)
  let twice := x.misplaced || decide (regFld s (.dom d 0x03) 15 14 = 1)
  match cur with
  | .syncing =>
    let n := if passes then x.cntSync + 1 else if noGap then 0 else x.cntSync
    if noGap && decide (need ≤ n) then (.synced, some 0x03, n, 0)
    else if !noGap && t.gapOk && decide (t.period ≠ 0) && decide (need ≤ n) then (.synced, some 0x02, n, 0)
    else (.syncing, none, n, 0)
  | .synced =>
    if t.gapBad && twice then (.lost, some 0x05, 0, 0)
    else if t.jumped then (.suspect, some 0x04, 0, 0)
    else if t.gapBad then (.suspect, some 0x05, 0, 0)
    else (.synced, none, 0, 0)
  | .suspect =>
    let n := if t.jumped || decide (t.kind = .synthetic) then 0 else if passes then x.cntRec + 1 else x.cntRec
    if t.gapBad && twice then (.lost, some 0x05, 0, 0)
    else if t.jumped || t.gapBad then (.suspect, none, 0, n)
    else if noGap && decide (recov ≤ n) then (.synced, some 0x0A, 0, 0)
    else if !noGap && t.gapOk then (.synced, some 0x09, 0, 0)
    else (.suspect, none, 0, n)
  | other => (other, none, 0, 0)

/-- R57: after a delivered tooth, the gap that comes next is pending. -/
def gapAfter (s : State) (d : Fin 16) (st : SyncState) (t : ToothIn) (idx : Nat) (old : Option GapPend) :
    Option GapPend :=
  let n := teethOf s d
  if t.kind = .gap then old.map (fun g => { g with inserted := g.inserted + 1 })
  else if decide (gapKind s d = 1) && trusted st && decide ((idx + gapTeeth s d + 1) % n = gapIndex s d % n) then
    some ⟨t.pin, 0, decide (t.period ≠ 0)⟩
  else none

/-- R57 to R66, R78: a tooth is taken in: index, state, counts and flags; it goes to the leaves unless it makes the domain
LOST. -/
def deliver (s : State) (d : Fin 16) (t : ToothIn) : State :=
  let x := s.doms[d]
  let n := teethOf s d
  let cur := if t.resync then SyncState.syncing else if x.st = .stopped then
      (if t.kind = .generated then SyncState.synced else x.before) else x.st
  let (st, cause0, cs, cr) := nextState s d cur t
  let cause := if t.resync then some 0x0B else match cause0 with
    | some c => some c
    | none => if x.st = .stopped then some 0x08 else none
  let lost := decide (st = .lost)
  let pend := if decide (t.kind = .gap) then none else pendingIndex s d t.bound
  let idx := (match t.force with
    | some i => i
    | none => match pend with
      | some i => i
      | none => if x.started then (x.idx.toNat + 1) % n else 0) % 4096
  let s1 := if t.jumped then domFlag (domCount s d 0x24) d 10 else s
  let s2 := if t.gapBad then domFlag (domCount s1 d 0x25) d 11 else s1
  let s3 := if t.clamp.isSome then domFlag (domCount s2 d 0x22) d 6 else s2
  let s4 := if t.jump.isSome then domFlag (domCount s3 d 0x23) d 7 else s3
  let s5 := if decide (t.kind = .synthetic) then domFlag (domCount s4 d 0x21) d 9 else s4
  let causes := match cause with
    | some c => [(x.st, BitVec.ofNat 8 c)]
    | none => []
  if lost then
    dropPeriod (sendTooth (updDom s5 d (fun y => { y with st := .lost })) d
      ⟨.change, t.pin, BitVec.ofNat 12 idx, 0, t.upd, .lost, causes, false, 0, none, none, none, none,
        some (angleWord idx 0), none⟩) d
  else
    let s6 := takeBoundary (if decide (t.kind = .gap) then s5 else consumeIndex s5 d t.bound) d t.bound
    let s7 := updDom s6 d (fun y =>
      { y with
        st := st
        lastT := some t.pin
        base := true
        period := t.period
        idx := BitVec.ofNat 12 idx
        started := true
        afterStop := false
        gap := gapAfter s d st t idx x.gap
        gapSeen := false
        gapForce := false
        noise := 0
        rev := none
        standFloor := none
        standPast := false
        synthLast := if t.kind = .synthetic then true else if t.kind = .gap then y.synthLast else false
        misplaced := if t.gapBad then true else if t.gapOk then false else y.misplaced
        cntSync := cs
        cntRec := cr })
    sendTooth s7 d ⟨t.kind, t.pin, BitVec.ofNat 12 idx, t.period, t.upd, st, causes, t.gapOk || x.gapSeen, x.noise,
      t.clamp, t.jump, t.cycle, t.micro, none, x.rev⟩

/-- R61: the ratio check of a new period against the one before. -/
def ratioFails (s : State) (d : Fin 16) (pnew pold : Nat) : Bool :=
  let v := work s (.dom d 0x0A)
  decide (pnew ≠ 0 ∧ pold ≠ 0) &&
    (decide (16 * pnew < fld v 7 0 * pold) || decide (fld v 15 8 * pold < 16 * pnew))

/-- R63: the residue in micro-ticks of a real tooth, truncated toward zero, where the tooth before had a valid period. -/
def residueOf (s : State) (d : Fin 16) (t : Time) : Int :=
  let p : Int := periodTicks s d
  match s.doms[d].lastT with
  | some l => if p = 0 then 0 else Int.tdiv (4096 * dist t l - 4096 * p) p
  | none => 0

/-- R63: the counted clamp of a residue. -/
def clampOf (s : State) (d : Fin 16) (r : Int) : Option Nat :=
  if (fld (work s (.dom d 0x17)) 11 0 : Int) < r then some r.toNat else none

/-- R63: the counted jump of a residue. -/
def jumpOf (s : State) (d : Fin 16) (r : Int) : Option Nat :=
  if r < -(fld (work s (.dom d 0x17)) 11 0 : Int) then some (-r).toNat else none

/-- R60: a period in units of 2^PRESC ticks; one beyond 24 bits is invalid. -/
def periodWord (s : State) (d : Fin 16) (ticks : Int) (div : Nat) : Word :=
  let q := ticks / (div * prescOf s d : Nat)
  if q < 0 ∨ 0xFFFFFF < q then 0 else word q.toNat

/-- R57 rule 3: a distance confirms a gap of `g` teeth. -/
def gapRatio (s : State) (d : Fin 16) (ticks : Int) (g : Nat) : Bool :=
  let p := periodTicks s d
  let tol := gapTol s d
  decide (p ≠ 0) && decide (((g + 1) * (16 - tol) * p : Nat) ≤ 16 * ticks) &&
    decide (16 * ticks ≤ ((g + 1) * (16 + tol) * p : Nat))

/-! ### Deadlines -/

/-- R57: the pin time of the next gap tooth. -/
def gapToothDue (s : State) (d : Fin 16) : Option Time :=
  match s.doms[d].gap with
  | some g =>
    if g.checked && decide (g.inserted < gapTeeth s d) && trusted s.doms[d].st && decide (periodTicks s d ≠ 0) then
      some (plus g.tr ((g.inserted + 1) * periodTicks s d)) else none
  | none => none

/-- R54, R55, R57: the miss deadline of a gear-class tracker. -/
def missDue (s : State) (d : Fin 16) : Option Time :=
  let p := periodTicks s d
  let sus := (work s (.dom d 0x09)).toNat * prescOf s d
  if !(gearClass s d && decide (domKind s d = 0) && trusted s.doms[d].st && decide (p ≠ 0)) ||
      (decide (sus ≠ 0) && decide (sus < p)) then none
  else
    let lim := fld (work s (.dom d 0x08)) 5 0 * p / 16
    match s.doms[d].gap with
    | some g => some (plus g.tr (gapTeeth s d * p + lim))
    | none => s.doms[d].lastT.map (fun t => plus t lim)

/-- R68: the standstill deadline. -/
def standDue (s : State) (d : Fin 16) : Option Time :=
  if !(counting s.doms[d].st && decide (domKind s d ≠ 3)) || s.doms[d].standPast then none
  else
    s.doms[d].lastT.map (fun t =>
      let n := min ((reg s (.dom d 0x0B)).toNat * 1024) (0xFFFFFF * prescOf s d)
      match s.doms[d].standFloor with
      | some f => laterOf (plus t n) f
      | none => plus t n)

/-- R68: STOPPED at the deadline. -/
def stopDomain (s : State) (d : Fin 16) (due_ : Time) : State :=
  let st := s.doms[d].st
  dropPeriod (updDom (sendChange s d due_ (plus due_ 8) .stopped 0x07 none) d (fun x =>
    { x with before := st, afterStop := true })) d

/-- R57: a gap tooth is inserted. -/
def insertGapTooth (s : State) (d : Fin 16) (pin : Time) : State :=
  let g := match s.doms[d].gap with
    | some g => g.inserted
    | none => 0
  let n := teethOf s d
  let idx := (gapIndex s d + n + g - gapTeeth s d) % n
  let upd := plus pin (trkLead s d)
  deliver s d ⟨.gap, pin, upd, absOf s (upd - 8#48), s.doms[d].period, some idx, false, false, false, none, none, none,
    none, false⟩

/-- R58: an EXTRA gap is misplaced at a tooth of index GAP_INDEX whose interval had no gap edge; the first tooth after
standstill stands for the state held before it. In SYNCING the index is provisional (R66) and nothing is recorded (log entry
89). -/
def extraBad (s : State) (d : Fin 16) (idx : Nat) : Bool :=
  let st := if s.doms[d].st = .stopped then s.doms[d].before else s.doms[d].st
  decide (gapKind s d = 2) && trusted st && !s.doms[d].gapSeen && decide (idx = gapIndex s d)

/-- The index the next tooth takes where nothing forces it. -/
def plainIndex (s : State) (d : Fin 16) (b : Nat) : Nat :=
  match pendingIndex s d b with
  | some i => i
  | none => if s.doms[d].started then (s.doms[d].idx.toNat + 1) % teethOf s d else 0

/-- R54, R57: a miss deadline passes: a synthetic tooth, or LOST at the second in a row. -/
def passMiss (s : State) (d : Fin 16) (due_ : Time) : State :=
  let x := s.doms[d]
  if x.synthLast then dropPeriod (sendChange s d due_ (plus due_ 8) .lost 0x06 none) d
  else
    let p := periodTicks s d
    let upd := plus due_ (trkLead s d)
    let b := absOf s (upd - 8#48)
    let (pin, force) := match x.gap with
      | some g => (plus g.tr ((gapTeeth s d + 1) * p), some (gapIndex s d))
      | none => (plus (x.lastT.getD 0) p, none)
    let idx := match force with
      | some i => i
      | none => plainIndex s d b
    deliver s d ⟨.synthetic, pin, upd, b, x.period, force, false, false, extraBad s d idx, none, none, none, none, false⟩

/-- R56: what passes first among gap tooth, standstill and miss deadline before the instant `t` ("at or before" for a gap
tooth), applied once. The standstill deadline prevails over a miss deadline of the same tick. -/
def passOne (s : State) (d : Fin 16) (t : Time) : State :=
  let gp := gapToothDue s d
  let st := standDue s d
  let ms := missDue s d
  let le := fun (a : Time) (b : Option Time) => match b with
    | some y => !after a y
    | none => true
  match gp with
  | some g =>
    if !after g t && le g st && le g ms then insertGapTooth s d g
    else match st with
      | some y => if before y t && le y ms then stopDomain s d y
        else match ms with
          | some m => if before m t then passMiss s d m else s
          | none => s
      | none => match ms with
        | some m => if before m t then passMiss s d m else s
        | none => s
  | none => match st with
    | some y => if before y t && le y ms then stopDomain s d y
      else match ms with
        | some m => if before m t then passMiss s d m else s
        | none => s
    | none => match ms with
      | some m => if before m t then passMiss s d m else s
      | none => s

/-- R56: deadlines that lie before an edge have passed when the tracker takes the edge in. -/
def catchUp (s : State) (d : Fin 16) (t : Time) : State :=
  (List.range 8).foldl (fun z _ => passOne z d t) s

/-- Domains run in every mode in which the clock runs and the units work (R328). -/
def domsOn (s : State) : Bool := alive s && decide (s.sys.mode ≠ .powerFail)

/-! ### Edges of a tracker -/

/-- R53: an edge in the noise window of a mark-class tracker. After an enable there is no last tooth and so no window (log
entry 89). -/
def noisy (s : State) (d : Fin 16) (t : Time) : Bool :=
  let x := s.doms[d]
  let p := periodTicks s d
  match x.lastT with
  | none => false
  | some l =>
    if gearClass s d then false
    else if p = 0 then decide (dist t l < (work s (.dom d 0x07)).toNat)
    else
      let nr := fld (work s (.dom d 0x06)) 3 0
      match x.gap with
      | some g => decide (16 * dist t g.tr < (nr * p * (gapTeeth s d + 1) : Nat))
      | none => decide (16 * dist t l < (nr * p : Nat))

/-- R58: an edge is the gap edge of its interval. -/
def isGapEdge (s : State) (d : Fin 16) (t : Time) : Bool :=
  let x := s.doms[d]
  let p := periodTicks s d
  match x.lastT with
  | none => false
  | some l =>
    let next := (x.idx.toNat + 1) % teethOf s d
    decide (gapKind s d = 2) && decide (p ≠ 0) && !x.gapSeen && counting x.st &&
      (decide (x.st = .syncing) || decide (next = gapIndex s d)) &&
      decide (((gapPos s d - gapTol s d) * p : Nat) ≤ 16 * dist t l) &&
      decide (16 * dist t l ≤ ((gapPos s d + gapTol s d) * p : Nat))

/-- R50, R62: the angle word the leaves hold at a line time near the present one. -/
def leafAngleAt (s : State) (d : Fin 16) (t : Time) : Word := leafAngle { s with time := { s.time with lt := t } } d

/-- R58, R65: a gap edge confirms the gap. -/
def takeGapEdge (s : State) (d : Fin 16) (t : Time) : State :=
  let x := s.doms[d]
  let ang := some (leafAngleAt s d t)
  let upd := plus t (trkLead s d)
  let s1 := updDom s d (fun y => { y with gapSeen := true, misplaced := false, gapForce := decide (x.st = .syncing) })
  if x.st = .suspect then sendChange s1 d t upd .synced 0x09 ang
  else if decide (x.st = .syncing) && decide (regFld s (.dom d 0x0C) 7 0 ≤ x.cntSync) then
    sendChange s1 d t upd .synced 0x02 ang
  else s1

/-- R57 to R66: an accepted edge becomes a tooth. -/
def acceptEdge (s : State) (d : Fin 16) (t : Time) : State :=
  let x := s.doms[d]
  let upd := plus t (trkLead s d)
  let b := absOf s (upd - 8#48)
  let g := gapTeeth s d
  let pold := x.period.toNat
  let r := residueOf s d t
  let l := x.lastT.getD t
  match x.gap with
  | some gp =>
    if x.afterStop || !x.base then
      deliver s d ⟨.real, t, upd, b, 0, some (gapIndex s d), false, false, false, none, none, none, none, false⟩
    else
      let p := periodWord s d (dist t gp.tr) (g + 1)
      let ok := gapRatio s d (dist t gp.tr) g
      if gp.checked then
        deliver s d ⟨.real, t, upd, b, p, some (gapIndex s d), ratioFails s d p.toNat pold, ok, !ok, clampOf s d r,
          jumpOf s d r, none, none, false⟩
      else
        deliver s d ⟨.real, t, upd, b, p, some (gapIndex s d), false, false, false, none, none, none, none, false⟩
  | none =>
    let rec_ := decide (x.st = .syncing) && decide (gapKind s d = 1) && gapRatio s d (dist t l) g
    let p := if !x.base then 0 else if rec_ then periodWord s d (dist t l) (g + 1) else periodWord s d (dist t l) 1
    let force := if x.gapForce || rec_ then some (gapIndex s d) else none
    let idx := match force with
      | some i => i
      | none => plainIndex s d b
    deliver s d ⟨.real, t, upd, b, p, force, ratioFails s d p.toNat pold, rec_, extraBad s d idx && !x.gapForce,
      clampOf s d r, jumpOf s d r, none, none, false⟩

/-- R65, R66: a LOST domain with RESYNC_AUTO goes to SYNCING at the next edge that would be a tooth. -/
def clearSync (s : State) (d : Fin 16) : State :=
  updDom s d (fun x =>
    { x with started := false, base := false, period := 0, gap := none, gapSeen := false, gapForce := false,
             synthLast := false, misplaced := false, cntSync := 0, cntRec := 0, afterStop := false })

/-- R48: the edge counts of a tracker: taken in, and rejected. -/
def countEdge (s : State) (k : Fin 16) (t : Time) (rejected : Bool) : State :=
  let l : PLoc := .region (regionOfTrk k) (0x10 + k.val % 4)
  let s1 := bump (updTrk s k (fun x => { x with lastEdge := t })) l 23 12 1
  if rejected then bump s1 l 11 0 1 else s1

/-- R52 to R58: the domain takes in an edge of its tracker with pin time `t`. -/
def takeEdge (s : State) (d : Fin 16) (t : Time) : State :=
  let k := trkOf s d
  let s1 := catchUp s d t
  let noise := fun (z : State) =>
    domFlag (domCount (updDom (countEdge z k t true) d (fun x => { x with noise := x.noise + 1 })) d 0x20) d 8
  if s1.doms[d].st = .lost then
    if regBit s1 (.dom d 0x0C) 16 then
      if noisy s1 d t then noise s1
      else
        let s2 := clearSync (countEdge s1 k t false) d
        let upd := plus t (trkLead s2 d)
        deliver s2 d ⟨.real, t, upd, absOf s2 (upd - 8#48), 0, none, false, false, false, none, none, none, none, true⟩
    else countEdge s1 k t false
  else if isGapEdge s1 d t then takeGapEdge (countEdge s1 k t false) d t
  else if noisy s1 d t then noise s1
  else acceptEdge (countEdge s1 k t false) d t

/-! ### Taking in -/

/-- The instant of what a tracker has seen. -/
def intakeAt (e : Intake) : Time :=
  match e with
  | .edge t => t
  | .miss t => t
  | .gap t => t

/-- R56: what a tracker has seen in order of instant, an edge before a deadline of the same tick. -/
def insertIntake (l : List Intake) (e : Intake) : List Intake :=
  match l with
  | [] => [e]
  | f :: r =>
    if before (intakeAt e) (intakeAt f) ||
        (decide (intakeAt e = intakeAt f) && (match e, f with
          | .edge _, .miss _ => true
          | .edge _, .gap _ => false
          | _, _ => false)) then e :: f :: r
    else f :: insertIntake r e

/-- The domain takes in what its tracker has seen; a deadline that an edge has moved since is none. -/
def takeEvent (s : State) (d : Fin 16) (e : Intake) : State :=
  match e with
  | .edge t => takeEdge s d t
  | .miss t => if missDue s d = some t then passMiss s d t else s
  | .gap t => if gapToothDue s d = some t then insertGapTooth s d t else s

/-- The domain takes in everything its tracker has seen. -/
def flushIntake (s : State) (d : Fin 16) : State :=
  s.doms[d].intake.foldl (fun z e => takeEvent z d e) (updDom s d (fun x => { x with intake := [] }))

/-- R78: the tick of taking in, 8 ticks before the update tick, has come. -/
def takeDue (s : State) (d : Fin 16) (e : Intake) : Bool := due s (plus (intakeAt e) (trkLead s d - 8))

/-- R78: the domain takes in what its tracker has seen, each in its tick. -/
def takeIn (s : State) (d : Fin 16) : State :=
  let l := s.doms[d].intake
  (l.takeWhile (takeDue s d)).foldl (fun z e => takeEvent z d e)
    (updDom s d (fun x => { x with intake := l.dropWhile (takeDue s d) }))

/-- Something a tracker has seen joins what its domain has to take in. -/
def seeIntake (s : State) (d : Fin 16) (e : Intake) : State :=
  takeIn (updDom s d (fun x => { x with intake := insertIntake x.intake e })) d

/-- R78: every domain takes in what is due in the present tick. -/
def takeInAll (s : State) : State :=
  (List.finRange 16).foldl (fun z d => if z.doms[d].intake.isEmpty then z else takeIn z d) s

/-- R52, R53, R58: TOOTH_EDGE. The operand is the edge at the tracker's input with its pin-referred instant. -/
def doToothEdge (k : Fin 16) (rise : Bool) (t16 : T16) (s : State) : State :=
  let t := tickPart t16
  match domOfTrk s k with
  | none => s
  | some d =>
    let e := fld (trkCfg s d) 9 8
    if domsOn s && due s t && (if rise then decide (e = 1 ∨ e = 3) else decide (e = 2 ∨ e = 3)) then seeIntake s d (.edge t)
    else s

/-- R54 to R56: MISS_DEADLINE. The second in a row makes the domain LOST at the deadline. -/
def doMissDeadline (d : Fin 16) (s : State) : State :=
  let z := flushIntake s d
  match missDue z d with
  | some m =>
    let held := match standDue z d with
      | some y => !after y m
      | none => false
    if !(domsOn s && due s m && !held) then s
    else if z.doms[d].synthLast then passMiss z d m
    else seeIntake s d (.miss m)
  | none => s

/-- R57: GAP_TOOTH. -/
def doGapTooth (d : Fin 16) (s : State) : State :=
  match gapToothDue (flushIntake s d) d with
  | some g => if domsOn s && due s g then seeIntake s d (.gap g) else s
  | none => s

/-- R68: STANDSTILL_DEADLINE. -/
def doStandstillDeadline (d : Fin 16) (s : State) : State :=
  let z := flushIntake s d
  match standDue z d with
  | some y => if domsOn s && due s y then stopDomain z d y else s
  | none => s

/-! ### The leaves -/

/-- R77: a DOMAIN_TOOTH record. -/
def toothRecord (s : State) (d : Fin 16) (tick : Nat) (ts : Time) (maskBit code detail : Nat) (ang : Word) : State :=
  if regBit s (.dom d 0x18) maskBit then
    emitAt s (domRing s d) tick (4 + d.val)
      ⟨0x11, BitVec.ofNat 16 d.val, ts, word (code * 2 ^ 16 + min 0xFFFF detail), ang⟩
  else s

/-- R77: the records of a delivered tooth, in the order of REC_MASK. -/
def toothRecords (s : State) (d : Fin 16) (tick : Nat) (t : Tooth) (ang : Word) : State :=
  let opt := fun (z : State) (o : Option Nat) (m c : Nat) => match o with
    | some v => toothRecord z d tick t.pin m c v ang
    | none => z
  let s1 := toothRecord s d tick t.pin 0 0x01 t.period.toNat ang
  let s2 := if t.gapOk then toothRecord s1 d tick t.pin 1 0x02 0 ang else s1
  let s3 := if t.kind = .synthetic then toothRecord s2 d tick t.pin 2 0x03 0 ang else s2
  let s4 := if t.noise ≠ 0 then toothRecord s3 d tick t.pin 3 0x04 t.noise ang else s3
  opt (opt (opt s4 t.clamp 4 0x05) t.jump 5 0x06) t.rev 6 0x07

/-- R113: the requests of a delivered tooth. -/
def toothRequests (s : State) (d : Fin 16) (tick idx : Nat) : State :=
  (List.finRange 32).foldl (fun z b =>
    if regBit z (.block b 0x03) d.val then
      raiseRequest z b 16 (7 * 2 ^ 20 + d.val * 2 ^ 16 + idx) 0x2D tick else z) s

/-- R66, R375: a cycle counter takes a value; its increments are counted. -/
def setCycle (s : State) (d : Fin 16) (c : Word) : State :=
  let old := s.doms[d].leafCycle
  let s1 := updDom s d (fun x => { x with leafCycle := c })
  if c = old + 1 then dutyAdd s1 (8 + d.val) 1 else s1

/-- R62, R64, R75: a state change reaches the leaves without a tooth. -/
def deliverChange (s : State) (d : Fin 16) (t : Tooth) : State :=
  let frozen := decide (t.state = .lost ∨ t.state = .stopped ∨ t.state = .off)
  let s1 := if frozen && !t.causes.isEmpty then freezeLeaf s d (now s - 1#48) else s
  let s2 := if t.causes.isEmpty then s1 else updDom s1 d (fun x => { x with leafSt := t.state })
  let s3 := match t.micro with
    | some m => if frozen then s2 else updDom s2 d (fun x => { x with leafMicro := some m, leafIdx := t.idx })
    | none => s2
  let s4 := match t.cycle with
    | some c => if t.state = .off then s3 else setCycle s3 d c
    | none => s3
  let ang := t.ang.getD (leafAngle s4 d)
  let s5 := t.causes.foldl (fun z c => stateRecord z d (absOf s t.upd) t.pin c.1 t.state c.2.toNat ang) s4
  if frozen && !t.causes.isEmpty then forceEnds s5 d t.upd else s5

/-- R62, R66, R75, R77, R96, R97, R113: a tooth reaches the leaves: angle, cycle, state, records, requests, and the arming
pass. -/
def deliverTooth (s : State) (d : Fin 16) (t : Tooth) : State :=
  let tick := absOf s t.upd
  let s1 := updDom s d (fun x =>
    { x with
      leafSt := t.state
      leafIdx := t.idx
      leafPin := t.pin
      leafPeriod := t.period
      leafMicro := match t.micro with
        | some m => some m
        | none => if t.period = 0 then some 0 else none
      jumpTick := if t.jump.isSome then some s.time.tick else none
      updTick := some tick })
  let s2 := match t.cycle with
    | some c => setCycle s1 d c
    | none => if trusted t.state && decide (t.idx = 0) then setCycle s1 d (s1.doms[d].leafCycle + 1) else s1
  let ang := angleWord t.idx.toNat (match t.micro with
    | some m => m.toNat
    | none => 0)
  let s3 := t.causes.foldl (fun z c => stateRecord z d tick t.pin c.1 t.state c.2.toNat ang) s2
  let s4 := toothRequests (toothRecords s3 d tick t ang) d tick t.idx.toNat
  missedPass (if trusted t.state then armPass s4 d ⟨t.pin, t.period.toNat * prescOf s d, decide (t.kind = .synthetic)⟩
    else s4) d

/-- R62: TOOTH_UPDATE. -/
def doToothUpdate (d : Fin 16) (s : State) : State :=
  match s.doms[d].flight with
  | [] => s
  | t :: rest =>
    if !(domsOn s && due s t.upd) then s
    else
      let s1 := updDom s d (fun x => { x with flight := rest })
      if t.kind = .change then deliverChange s1 d t else deliverTooth s1 d t

/-! ### Channel sources -/

/-- R71: the extended angle of a channel's position. -/
def extAngle (s : State) (d : Fin 16) (p : BitVec 48) : Int :=
  let origin := mkTime (reg s (.dom d 0x12)) (reg s (.dom d 0x11))
  ((p - origin).toInt * ((reg s (.dom d 0x10)).toNat : Int)).fdiv 4096

/-- R71: the index of an extended angle. -/
def extIndex (s : State) (d : Fin 16) (x : Int) : Nat := ((x.fdiv 4096) % (teethOf s d : Int)).toNat

/-- R71: the cycle counter of an extended angle. -/
def extCycle (s : State) (d : Fin 16) (x : Int) : Word := wordOfInt (x.fdiv (4096 * (teethOf s d : Int)))

/-- R71: the micro-tick of an extended angle. -/
def extMicro (x : Int) : BitVec 12 := BitVec.ofInt 12 x

/-- R71: a tooth of a channel source, the crossing of boundary `k` × 4,096. Its index is the one R71 gives, also for the first
tooth of SYNCING and with an INDEX_SET pending, which the tooth consumes without effect (log entry 91). -/
def channelTooth (s : State) (d : Fin 16) (k : Int) (x : Int) (t upd : Time) : State :=
  let b := absOf s (upd - 8#48)
  let l := s.doms[d].lastT.getD t
  let stop := s.doms[d].afterStop
  let p := if !s.doms[d].base || stop then 0 else periodWord s d (dist t l) 1
  let r := residueOf s d t
  let resync := decide (s.doms[d].st = .lost)
  if resync && !regBit s (.dom d 0x0C) 16 then s
  else
    let s0 := if resync then clearSync s d else s
    let m := if x.fdiv 4096 = k ∧ !stop then extMicro x else 0
    updDom (deliver s0 d ⟨.real, t, upd, b, if resync then 0 else p, some (extIndex s d (4096 * k)),
      ratioFails s d p.toNat s.doms[d].period.toNat, false, false, clampOf s d r, jumpOf s d r,
      some (extCycle s d (4096 * k)), some m, resync⟩) d (fun y => { y with chHigh := some (4096 * k + m.toNat) })

/-- R66, R71: what a channel's position gives the leaves between teeth: the angle where the domain counts, and the cycle
counter in every state. -/
def channelMove (s : State) (d : Fin 16) (x : Int) (t upd : Time) : State :=
  let s1 := if counting s.doms[d].st then updDom s d (fun y => { y with chHigh := some x }) else s
  sendTooth s1 d ⟨.change, t, BitVec.ofNat 12 (extIndex s d x), 0, upd, s.doms[d].st, [], false, 0, none, none,
    some (extCycle s d x), some (extMicro x), none, none⟩

/-- R72: a position below the highest angle delivered: the domain holds that angle; the first such fall is counted. -/
def channelHold (s : State) (d : Fin 16) (hi x : Int) : State :=
  if s.doms[d].chHold then s
  else updDom (domFlag (domCount s d 0x27) d 12) d (fun y =>
    { y with chHold := true, base := false, rev := some (hi - x).toNat })

/-- R72: a hold lasts until the position passes the highest angle delivered. -/
def chHeld (y : Dom) (hi x : Int) : Bool := decide (x < hi) || (y.chHold && decide (x = hi))

/-- R71, R72: a count event of a channel moves a domain's angle: teeth at the boundaries it crosses, the hold after a
reversal, and the angle between teeth. -/
def channelAngle (s : State) (d : Fin 16) (p : BitVec 48) (t upd : Time) : State :=
  let x := extAngle s d p
  let y := s.doms[d]
  let s1 := updDom s d (fun z => { z with chExt := x })
  match y.chHigh with
  | none => updDom s1 d (fun z => { z with chHigh := some x })
  | some hi =>
    if chHeld y hi x then channelHold s1 d hi x
    else
      let s2 := updDom s1 d (fun z => { z with chHold := false })
      let k0 := (max hi y.chExt).fdiv 4096
      let n := (x.fdiv 4096 - k0).toNat
      let s3 := (List.range n).foldl (fun (z : State) (i : Nat) => channelTooth z d (k0 + 1 + (i : Int)) x t upd) s2
      if n = 0 || decide (s3.doms[d].st = .lost) then channelMove s3 d x t upd else s3

/-- R180: a position step of a channel moves a domain's angle: back, it holds; forward, the tooth the new position lies in
is delivered with an invalid period. -/
def channelStep (s : State) (d : Fin 16) (p : BitVec 48) (t upd : Time) : State :=
  let x := extAngle s d p
  let y := s.doms[d]
  match y.chHigh with
  | none => channelAngle s d p t upd
  | some hi =>
    if x.fdiv 4096 ≤ (max hi y.chExt).fdiv 4096 then channelAngle s d p t upd
    else
      let s1 := updDom s d (fun z => { z with chExt := x, chHold := false })
      if counting y.st || decide (y.st = .stopped) then
        updDom (deliver s1 d ⟨.real, t, upd, absOf s (upd - 8#48), 0, some (extIndex s d x), false, false, false, none,
          none, some (extCycle s d x), some (extMicro x), false⟩) d (fun z => { z with chHigh := some x })
      else channelMove s1 d x t upd

/-- R71: the enabled domains that a channel feeds. -/
def domsOfChan (s : State) (c : Fin 64) : List (Fin 16) :=
  (List.finRange 16).filter (fun d => domEn s d && decide (domKind s d = 1) && decide (regFld s (.dom d 0x01) 5 0 = c.val))

/-! ### The virtual generator -/

/-- R74: RUN changes from 0 to 1: the shadow becomes working, and the first tooth has pin time *c* + 1. A STOPPED that an
earlier stop still had to bring does not come (log entry 92). -/
def vgStart (s : State) (d : Fin 16) : State :=
  let p := (reg s (.dom d 0x14)).toNat
  let s1 := setWork s (.dom d 0x14) (reg s (.dom d 0x14))
  if !domEn s d || decide (domKind s d ≠ 3) || decide (p = 0) then s1
  else updDom s1 d (fun x => { x with vgNext := some (plus (now s) 1), vgStop := none, vgInterval := p * prescOf s d,
                                      vgStarted := false })

/-- R74: the generator stops: no further tooth comes, and STOPPED follows when the next would have been due. -/
def vgEnd (s : State) (d : Fin 16) : State :=
  match s.doms[d].vgNext with
  | some n => updDom s d (fun x => { x with vgNext := none, vgStop := some n })
  | none => s

/-- R74: VIRTUAL_TOOTH. -/
def doVirtualTooth (d : Fin 16) (s : State) : State :=
  match s.doms[d].vgNext with
  | none => s
  | some t =>
    if !(domsOn s && due s t && domEn s d && decide (domKind s d = 3)) then s
    else
      let first := !s.doms[d].vgStarted
      let w := work s (.dom d 0x14)
      let period := if first then w else word (s.doms[d].vgInterval / prescOf s d)
      let s1 := deliver s d ⟨.generated, t, plus t 3, absOf s (t - 5#48), period, none, false, false, false, none, none, none, none,
        false⟩
      let s2 := if first then setWork s1 (.dom d 0x14) w else s1
      let next := (work s2 (.dom d 0x14)).toNat
      let left := (reg s (.dom d 0x16)).toNat
      let s3 := if left = 0 then s2 else setReg s2 (.dom d 0x16) (word (left - 1))
      let stepOld := s.doms[d].vgInterval
      if left = 1 then
        updDom (clrReg s3 (.dom d 0x15) 1) d (fun x =>
          { x with vgNext := none, vgStop := some (plus t (if next = 0 then stepOld else next * prescOf s d)), vgStarted := true })
      else if next = 0 then
        updDom s3 d (fun x => { x with vgNext := none, vgStop := some (plus t stepOld), vgStarted := true })
      else
        updDom s3 d (fun x => { x with vgNext := some (plus t (next * prescOf s d)), vgInterval := next * prescOf s d,
                                       vgStarted := true })

/-- R74: VIRTUAL_STOP. -/
def doVirtualStop (d : Fin 16) (s : State) : State :=
  match s.doms[d].vgStop with
  | none => s
  | some t =>
    if !(domsOn s && due s t) then s
    else
      let s1 := updDom s d (fun x => { x with vgStop := none })
      if counting s.doms[d].st then stopDomain s1 d t else s1

/-- R74, R79: a write of VG_CTRL. -/
def writeVgCtrl (s : State) (d : Fin 16) (v : Word) : State × Status :=
  let was := regBit s (.dom d 0x15) 0
  let s1 := setReg s (.dom d 0x15) (v &&& 1)
  if bit v 0 && !was then (vgStart s1 d, .ok)
  else if !bit v 0 && was then (vgEnd s1 d, .ok)
  else (s1, .ok)

/-! ### Enabling, disabling, resynchronisation, steps -/

/-- R55, R68, R75: state changes that no delivered tooth brings have come about when they are decided; those on their way to
the leaves give their records where a host write takes their place (log entry 90). Answers the state they leave. -/
def flightChanges (s : State) (d : Fin 16) : State × SyncState :=
  let l := s.doms[d].flight
  l.foldl (fun z t =>
    if t.kind = .change ∧ !t.causes.isEmpty then
      (t.causes.foldl (fun y c => stateRecord y d (absOf s t.upd) t.pin c.1 t.state c.2.toNat
        (t.ang.getD (leafAngle y d))) z.1, t.state)
    else z) (s, if l.isEmpty then s.doms[d].st else s.doms[d].leafSt)

/-- R65, R66: the record and state of a host write that changes a domain's state; a state that a tooth still on its way
brings has not come about. -/
def hostChange (s : State) (d : Fin 16) (new : SyncState) (cause : Nat) : State :=
  let r := flightChanges s d
  let s1 := stateRecord r.1 d s.time.tick (now s) r.2 new cause (leafAngle s d)
  updDom (freezeLeaf s1 d (now s)) d (fun x => { x with st := new, leafSt := new, flight := [], intake := [] })

/-- R51, R65, R66: EN written 1; CONFLICT where the tracker serves another enabled domain. No last tooth is left, so there is
no noise window and no standstill deadline until the first one (log entry 89); the leaves of a channel-sourced domain take
the angle of the present position (R71); a virtual generator whose RUN is 1 starts as if RUN changed now (log entry 92). -/
def domEnable (s : State) (d : Fin 16) : State × Status :=
  if domEn s d then (s, .ok)
  else if trkTaken s d then (s, .conflict)
  else
    let s1 := orReg s (.dom d 0x00) 1
    let vg := decide (domKind s d = 3)
    let s2 := clearSync (hostChange s1 d (if vg then .stopped else .syncing) 0x01) d
    let ext := extAngle s d s.chans[Fin.ofNat 64 (regFld s (.dom d 0x01) 5 0)].pos
    let chan := decide (domKind s d = 1)
    let s3 := updDom s2 d (fun x =>
      { x with lastT := none, idx := if chan then BitVec.ofNat 12 (extIndex s d ext) else 0, before := .synced,
               leafIdx := if chan then BitVec.ofNat 12 (extIndex s d ext) else x.leafIdx,
               leafMicro := if chan then some (extMicro ext) else x.leafMicro,
               leafCycle := if chan then extCycle s d ext else 0, noise := 0, rev := none, standFloor := none,
               standPast := false, chHigh := if domKind s d = 1 then some ext else none, chHold := false, chExt := ext,
               vgNext := none, vgStop := none, rmtFound := false, rmtFrames := 0, rmtMissed := 0, rmtIn := [],
               rmtAccs := [], rmtLast := none, rmtSt := none, rmtCyc := 0,
               rmtHold := false })
    (if vg && regBit s (.dom d 0x15) 0 then vgStart s3 d else s3, .ok)

/-- R65, R67, R105: EN written 0. Answers the number of EVENT_CANCEL records. -/
def domDisable (s : State) (d : Fin 16) : State × Nat :=
  if !domEn s d then (s, 0)
  else
    let s1 := dropPeriod (hostChange (clrReg s (.dom d 0x00) 1) d .off 0x0D) d
    let s2 := updDom s1 d (fun x =>
      { x with gap := none, vgNext := none, vgStop := none, chHigh := none, afterStop := false })
    freeDomain (forceEnds (takeTrkCfg s2 d) d (plus (now s) 1)) d

/-- R68: the standstill deadline of the last tooth has passed. -/
def standGone (s : State) (d : Fin 16) : Bool :=
  match standDue (updDom s d (fun x => { x with st := .syncing, standPast := false })) d with
  | some y => due s y
  | none => false

/-- R65, R66: RESYNC, on a LOST domain only. A standstill deadline that passed before it does not pass again (R68). -/
def domResync (s : State) (d : Fin 16) : State :=
  let s0 := flushIntake s d
  if s0.doms[d].st = .lost then
    updDom (clearSync (hostChange s0 d .syncing 0x0B) d) d (fun x =>
      { x with rmtHold := false, rmtSt := none, standPast := standGone s0 d })
  else s

/-- R65, R79: a write of DOM_CTRL. -/
def writeDomCtrl (s : State) (d : Fin 16) (v : Word) : State × Status :=
  if bit v 0 then
    let r := domEnable s d
    if r.2 ≠ .ok then r else (if bit v 1 then domResync r.1 d else r.1, .ok)
  else ((domDisable s d).1, .ok)

/-- R68: a write of STANDSTILL_TIME moves the running deadline, which passes in *c* + 1 at the earliest. -/
def writeStandstill (s : State) (d : Fin 16) (v : Word) : State × Status :=
  if v = 0 then (s, .addrInvalid)
  else (updDom (setReg s (.dom d 0x0B) v) d (fun x =>
    { x with standFloor := some (plus (now s) 1), standPast := false }), .ok)

/-- R78, R79: a write of INDEX_SET; an index beyond the cycle is refused. -/
def writeIndexSet (s : State) (d : Fin 16) (v : Word) : State × Status :=
  if teethOf s d ≤ fld v 11 0 then (s, .addrInvalid) else (writeShadow s (.dom d 0x0D) (v &&& 0x1FFF), .ok)

/-- R31: a line-time step breaks the tooth periods of domains fed by trackers and channels. -/
def domTimeStep (s : State) : State :=
  (List.finRange 16).foldl (fun z d =>
    if domEn z d && decide (domKind z d ≤ 1) then
      updDom (freezeLeaf (domFlag (flushIntake z d) d 4) d (now s)) d (fun x =>
        { x with period := 0, base := false, flight := x.flight.map (fun t => { t with period := 0 }) })
    else z) s

/-- R31, R343: a line-time step also leaves no channel a speed reference. -/
def timeStep (s : State) : State :=
  let s1 := domTimeStep s
  { s1 with chans := s1.chans.map (fun c => { c with speedRef := none }) }

/-- R80: a read of ANGLE captures the domain's state for the requester. -/
def domStatus (s : State) (d : Fin 16) : Word :=
  word (stateCode s.doms[d].leafSt * 2 ^ 21 + bitAt (decide (s.doms[d].leafPeriod ≠ 0)) 20 +
    bitAt (decide (leafMicro s d = 4095)) 19) ||| (reg s (.dom d 0x19) &&& 0x001FF8)

/-- R80: reading ANGLE. -/
def readAngle (s : State) (who : Requester) (d : Fin 16) : Word × State :=
  let cap := fun (z : State) (o : Nat) (v : Word) => setCap z who (.dom d o) v
  let x := s.doms[d]
  let s1 := cap (cap (cap (cap (cap s 0x1B x.leafCycle) 0x1C x.leafPeriod) 0x1D (loWord x.leafPin)) 0x1E (hiWord x.leafPin))
    0x19 (domStatus s d)
  (leafAngle s d, s1)

end Sys2Proof.Machine
end

