-- ==== Sys2Proof/Machine/Pwm.lean ====
section
/-!
DEFINITION. PWM carriers and trips (05_pwm_and_trips.md R147 to R168), and the store of a parameter-RAM word with the PWM
table's shadows (R150).
-/
namespace Sys2Proof.Machine

/-! ### Parameter RAM -/

/-- R44, R150, R352: a parameter-RAM word takes a value: its error clears, and a word of the PWM table carries its shadow
with it. -/
def storePram (s : State) (b : Fin 32) (w : Nat) (v : Word) : State :=
  let s1 := if 0x0F00 ≤ w ∧ w < 0x0F40 then
      { s with par := { s.par with hlog := ⟨paOf (.pram b w .direct), pramAt s b w, s.time.tick + 1⟩ :: s.par.hlog } }
    else s
  clearEcc (setPramRaw s1 b w v) .paramRam b.val w

/-- R11, R149: the shadow of a PWM table word as a reload in tick `p` samples it. -/
def tableAt (s : State) (b : Fin 32) (w p : Nat) : Word :=
  match (s.par.hlog.filter (fun h => decide (h.pa = paOf (.pram b w .direct) ∧ p ≤ h.tick))).getLast? with
  | some h => h.old
  | none => pramAt s b w

/-- R149: a table write reaches its shadow in the tick of the reload. -/
def tableLate (s : State) (b : Fin 32) (w p : Nat) : Bool :=
  s.par.hlog.any (fun h => decide (h.pa = paOf (.pram b w .direct) ∧ h.tick = p))

/-! ### Carriers -/

/-- R165, R167: the period parameter. -/
def carPeriod (k : Carrier) : PLoc :=
  match k with
  | .block b => .block b 0x0E
  | .gang r => .gang r 0x01

/-- R165, R167: the status parameter. -/
def carStat (k : Carrier) : PLoc :=
  match k with
  | .block b => .block b 0x10
  | .gang r => .gang r 0x03

/-- R165, R167: a trigger compare. -/
def carTrig (k : Carrier) (i : Nat) : PLoc :=
  match k with
  | .block b => .block b (0x12 + i)
  | .gang r => .gang r (0x06 + i)

/-- R165, R167: TRIPSEL. -/
def carTripSel (k : Carrier) : PLoc :=
  match k with
  | .block b => .block b 0x16
  | .gang r => .gang r 0x04

/-- R165, R167: TRIPPIN. -/
def carTripPin (k : Carrier) : PLoc :=
  match k with
  | .block b => .block b 0x17
  | .gang r => .gang r 0x05

/-- R8: the region of a carrier. -/
def carRegion (k : Carrier) : Fin 4 :=
  match k with
  | .block b => regionOfBlock b
  | .gang r => r

/-- R286: the Source of a carrier's records. -/
def carSource (k : Carrier) : BitVec 16 :=
  match k with
  | .block b => BitVec.ofNat 16 b.val
  | .gang r => BitVec.ofNat 16 (0x8000 + r.val)

/-- R147: the count in the present tick. -/
def carCount (s : State) (k : Carrier) : Nat := carCountAt (carrier s k) s.time.tick

/-- R164, R328: carriers count outside HALT, POWER-FAIL, BOOT and RETENTION. -/
def carriersOn (s : State) : Bool := alive s && decide (s.sys.mode ≠ .powerFail ∧ s.sys.mode ≠ .halt)

/-- A record of a carrier (R162). -/
def emitCarrier (s : State) (k : Carrier) (tick typ a b : Nat) : State :=
  if regBit s (carrierCtrl k) 7 then
    emitRegion s (carRegion k) (regFld s (carrierCtrl k) 11 8) tick
      ⟨BitVec.ofNat 8 typ, carSource k, ltAt s tick, word a, word b⟩
  else s

/-! ### Edges of a period -/

/-- Edges in order of instant; of two at one instant the later listed comes after. -/
def insertEdge (l : List (Nat × Bool)) (e : Nat × Bool) : List (Nat × Bool) :=
  match l with
  | [] => [e]
  | f :: t => if e.1 < f.1 then e :: f :: t else f :: insertEdge t e

/-- R151: the edges of the latch, or of the ideal signal, in a period of `n` ticks that starts at tick `p`, in
sixteenths. -/
def dualEdges (p n rise fall rt ft : Nat) : List (Nat × Bool) :=
  let r := (16 * (p + rise) + rt, true)
  let f := (16 * (p + fall) + ft, false)
  if rise = fall then [(16 * p, false)]
  else if rise < n ∧ fall < n then (if rise < fall then [r, f] else [f, r])
  else if fall < n then [f]
  else if rise < n then [r]
  else []

/-- R154: the edges of a gang output, with the working duty. -/
def gangEdges (p n duty ft : Nat) : List (Nat × Bool) :=
  if duty = 0 then [(16 * p, false)]
  else if n ≤ duty then [(16 * p, true)]
  else [(16 * p, true), (16 * (p + duty) + ft, false)]

/-- R154: a duty is clamped. -/
def gangClamped (n duty : Nat) : Bool := decide (1 ≤ duty ∧ duty ≤ 3 ∨ n - 3 ≤ duty ∧ duty < n)

/-- R154: the working duty of a gang output. -/
def gangDuty (n duty : Nat) : Nat := if gangClamped n duty then max 4 (min (n - 4) duty) else duty

/-- R153: an off edge drops the turn-ons of the same output at or after it. -/
def addOff (l : List (Nat × Bool)) (e : Nat) : List (Nat × Bool) :=
  insertEdge (l.filter (fun x => !(x.2 && decide (e ≤ x.1)))) (e, false)

/-- R153: the outputs of a pair for one change of the ideal signal. -/
def pairEdge (dt : Nat) (o : List (Nat × Bool) × List (Nat × Bool)) (e : Nat × Bool) :
    List (Nat × Bool) × List (Nat × Bool) :=
  if e.2 then (insertEdge o.1 (e.1 + dt, true), addOff o.2 e.1)
  else (addOff o.1 e.1, insertEdge o.2 (e.1 + dt, true))

/-- The changes among edges, given the level before: an edge that leaves the level unchanged is none (R151). -/
def changesOf (l : Bool) (es : List (Nat × Bool)) : List (Nat × Bool) × Bool :=
  es.foldl (fun x e => if e.2 = x.2 then x else (x.1 ++ [e], e.2)) ([], l)

/-- R153: cell `c` belongs to a formed pair, as the main (true) or the complement. -/
def pairRole (s : State) (c : Fin 512) : Option Bool :=
  let b := blockOf c
  let k := (c.val % 16) / 2
  let other := cellOf b (Fin.ofNat 16 (if c.val % 2 = 0 then c.val % 16 + 1 else c.val % 16 - 1))
  if regBit s (.block b 0x0D) (16 + k) && decide (cellMode s c = 2) && decide (cellMode s other = 2) then
    some (decide (c.val % 2 = 0))
  else none

/-- R84, R148, R150: a cell in DUAL-EDGE mode takes its working values from its table words; compares A and B hold its
rising and falling edge. -/
def reloadTable (s : State) (c : Fin 512) (p : Nat) : State :=
  let b := blockOf c
  let w := 0x0F00 + 4 * (c.val % 16)
  let rise := tableAt s b w p
  let fall := tableAt s b (w + 1) p
  let trims := tableAt s b (w + 2) p
  updCell s c (fun x =>
    { x with pwmRise := rise, pwmFall := fall, pwmTrims := BitVec.ofNat 8 (fld trims 7 0),
             cmpA := { x.cmpA with value := rise.setWidth 48, trim := BitVec.ofNat 4 (fld trims 3 0) },
             cmpB := { x.cmpB with value := fall.setWidth 48, trim := BitVec.ofNat 4 (fld trims 7 4) } })

/-- R84, R148, R154: a cell in GANG mode takes its duty, clamped against the period `n`, and its trim; compare A holds
them. -/
def reloadGang (s : State) (k : Carrier) (n : Nat) (c : Fin 512) (p : Nat) : State :=
  let b := blockOf c
  let w := 0x0F00 + 4 * (c.val % 16)
  let duty := (tableAt s b (w + 1) p).toNat
  let trims := tableAt s b (w + 2) p
  let d := word (gangDuty n duty)
  let s1 := if gangClamped n duty then orReg s (carStat k) 0x010000 else s
  updCell s1 c (fun x =>
    { x with pwmFall := d, pwmTrims := BitVec.ofNat 8 (fld trims 7 0),
             cmpA := { x.cmpA with value := d.setWidth 48, trim := BitVec.ofNat 4 (fld trims 7 4) } })

/-- R148, R149: the words of a cell's table that a reload of the carrier takes: all three in DUAL-EDGE mode, duty and trim in
GANG mode. -/
def tableWords (k : Carrier) : List Nat :=
  match k with
  | .block _ => [0, 1, 2]
  | .gang _ => [1, 2]

/-- R148, R149: the carrier's reload in tick `p`. -/
def reloadCarrier (s : State) (k : Carrier) (p : Nat) : State :=
  let cs := carrierCells s k
  let hs := carPeriod k :: (match k with
      | .block b => [PLoc.block b 0x11]
      | .gang _ => []) ++ (List.range 4).map (carTrig k)
  let late := hs.any (fun l => lateAt s l p) ||
    cs.any (fun c => (tableWords k).any (fun i => tableLate s (blockOf c) (0x0F00 + 4 * (c.val % 16) + i) p))
  let s1 := hs.foldl (fun z l => reload z l p) s
  let s2 := cs.foldl (fun z c => match k with
    | .block _ => reloadTable z c p
    | .gang _ => reloadGang z k (work s1 (carPeriod k)).toNat c p) s1
  if late then orReg s2 (carStat k) 0x080000 else s2

/-- R148: UPDLOCK as it was in tick `t`, the present one or the one before. -/
def updlockAt (s : State) (k : Carrier) (t : Nat) : Bool :=
  let x := carrier s k
  match x.lockAt with
  | some a => if t ≤ a then x.lockPrev else regBit s (carrierCtrl k) 2
  | none => regBit s (carrierCtrl k) 2

/-- R160, R163: a cell resumes in the period that starts in tick `p`: its carrier resumes, or its wait after a fault exit
ends. -/
def cellResumes (x : Cell) (p : Nat) (resume : Bool) : Bool :=
  resume || (match x.pwmWait with
    | some w => decide (w < p)
    | none => false)

/-- Edges of a cell that are still to come when the period of tick `p` starts; a disabled cell has placed none of them. -/
def edgesLeft (s : State) (c : Fin 512) (p : Nat) : List (Nat × Bool) :=
  if cellEn s c then s.cells[c].pwmEdges else s.cells[c].pwmEdges.filter (fun e => decide (16 * p ≤ e.1))

/-- R153: a side of a pair whose level `s` asks for and that neither is on nor has its turn-on pending is turned on `dt` after
instant `e`, as if `s` had changed there (R153, R160; log entry 36). -/
def pairStart (on : Bool) (latch : Bool) (l : List (Nat × Bool)) (e dt : Nat) : List (Nat × Bool) :=
  if on && !latch && !l.any (fun x => x.2) then insertEdge l (e + dt, true) else l

/-- R151, R154, R160, R163: the edges of the period that starts in tick `p` join those still to come of a cell of its own.
`tripped` drops them (R159). -/
def cellEdges (s : State) (k : Carrier) (p n : Nat) (tripped resume : Bool) (c : Fin 512) : State :=
  let x := s.cells[c]
  let rt := fld x.pwmTrims 3 0
  let ft := fld x.pwmTrims 7 4
  let es := match k with
    | .gang _ => gangEdges p n x.pwmFall.toNat ft
    | .block _ => dualEdges p n x.pwmRise.toNat x.pwmFall.toNat rt ft
  let es1 := if cellResumes x p resume && x.pwmIdeal then (16 * p, true) :: es else es
  updCell s c (fun y =>
    { y with pwmIdeal := (changesOf x.pwmIdeal es).2,
             latch := if resume then false else y.latch,
             pwmEdges := if tripped then [] else es1.foldl insertEdge (edgesLeft s c p) })

/-- R153, R160, R163: the edges of the period that starts in tick `p` for a formed pair, by its main cell. -/
def pairEdges (s : State) (b : Fin 32) (p n : Nat) (tripped resume : Bool) (c : Fin 512) : State :=
  let x := s.cells[c]
  let comp := cellOf b (Fin.ofNat 16 (c.val % 16 + 1))
  let y := s.cells[comp]
  let dt := fld (work s (.block b 0x11)) 15 0
  let ds := changesOf x.pwmIdeal (dualEdges p n x.pwmRise.toNat x.pwmFall.toNat (fld x.pwmTrims 3 0) (fld x.pwmTrims 7 4))
  let main := if resume then [] else edgesLeft s c p
  let other := if resume then [] else edgesLeft s comp p
  let start := (pairStart x.pwmIdeal (!resume && x.latch) main (16 * p) dt,
    pairStart (!x.pwmIdeal) (!resume && y.latch) other (16 * p) dt)
  let es := if tripped then ([], []) else ds.1.foldl (pairEdge dt) start
  let s1 := updCell s c (fun z =>
    { z with pwmIdeal := ds.2, latch := if resume then false else z.latch, pwmEdges := es.1 })
  updCell s1 comp (fun z => { z with latch := if resume then false else z.latch, pwmEdges := es.2 })

/-- R151, R153, R154: the edges that a cell's carrier gives it in the period that starts in tick `p`. -/
def periodEdges (s : State) (k : Carrier) (p n : Nat) (tripped resume : Bool) (c : Fin 512) : State :=
  match k, pairRole s c with
  | .block b, some true => pairEdges s b p n tripped resume c
  | .block _, some false => s
  | _, _ => cellEdges s k p n tripped resume c

/-! ### Trips -/

/-- R157: a trip pin is at its active level. -/
def tripPinActive (s : State) (k : Carrier) (b : Bool) : Bool :=
  let v := reg s (carTripPin k)
  let sel := if b then fld v 15 8 else fld v 7 0
  bit v (if b then 17 else 16) && (xbarLevel s (carRegion k) sel != bit v (if b then 19 else 18))

/-- R157: SAFE_REQ_N is an active source. -/
def tripSafe (s : State) (k : Carrier) : Bool := bit (reg s (carTripPin k)) 20 && !s.pins.safeReqN

/-- R157: software is an active source in the present tick, the one after the write. -/
def tripSoftware (s : State) (k : Carrier) : Bool :=
  s.agenda.jobs.any (fun j => decide (j.1 = s.time.tick) && (match j.2 with
    | .trip x _ sw => decide (x = k) && sw
    | _ => false))

/-- R157, R162: the enabled comparators that trip, as bits. -/
def tripComps (s : State) (k : Carrier) : Nat :=
  (List.range 16).foldl (fun a n =>
    a + bitAt (bit (reg s (carTripSel k)) n && s.comps[Fin.ofNat 64 (16 * (carRegion k).val + n)].trip) n) 0

/-- R157: an enabled source is active. -/
def tripLive (s : State) (k : Carrier) : Bool :=
  decide (tripComps s k ≠ 0) || tripPinActive s k false || tripPinActive s k true || tripSafe s k || tripSoftware s k

/-- R157, R159, R161, R162: the trip latch is set in the present tick. -/
def setTripLatch (s : State) (k : Carrier) : State :=
  if (carrier s k).trip then s
  else
    let cs := tripComps s k
    let a := tripPinActive s k false
    let b := tripPinActive s k true
    let sr := tripSafe s k
    let kind := if cs ≠ 0 then 1 else if a then 2 else if b then 3 else if sr then 4 else 5
    let s1 := updCarrier s k (fun x =>
      { x with trip := true, resumeWait := false, tripKind := BitVec.ofNat 4 kind,
               tripCnt := BitVec.ofNat 8 (satAdd 8 x.tripCnt.toNat 1) })
    let s2 := (carrierCells s k).foldl (fun z c => updCell z c (fun y => { y with pwmEdges := [] })) s1
    emitCarrier s2 k s.time.tick 0x30
      (bitAt (tripSoftware s k) 19 + bitAt sr 18 + bitAt b 17 + bitAt a 16 + cs) (carCount s k)

/-- R157: TRIP_SOURCE_ACTIVE: the source is active in the present tick. Pin 0 is A and pin 1 is B. SAFE_REQ_N reads low from
its edge on; the fault of R317 comes by a row of its own. -/
def doTripSource (k : Carrier) (src : TripSource) (s : State) : State :=
  if !(alive s) then s
  else
    match src with
    | .comparator w =>
      if decide (regionOfComp w = carRegion k) && bit (reg s (carTripSel k)) (w.val % 16) && s.comps[w].trip then
        setTripLatch s k else s
    | .pin n =>
      if (decide (n.val = 0) && tripPinActive s k false) || (decide (n.val = 1) && tripPinActive s k true) then
        setTripLatch s k else s
    | .software => if tripSoftware s k then setTripLatch s k else s
    | .safeReq =>
      let s1 := { s with pins := { s.pins with safeReqN := false } }
      if tripSafe s1 k then setTripLatch s1 k else s1

/-- R157, R160, R161: the examination of a write of BPWM_CTRL or GANG_CTRL at the end of the tick after it: a clear is refused
where a source is active in that tick, and the software source sets the latch. -/
def examineTrip (s : State) (k : Carrier) (clear software : Bool) : State :=
  let s1 := if !(clear && (carrier s k).trip) then s
    else if tripLive s k then orReg s (carStat k) 0x100000
    else updCarrier s k (fun x => { x with trip := false, resumeWait := true, clearTick := s.time.tick })
  if software then setTripLatch s1 k else s1

/-! ### Rows of a period -/

/-- R148, R151, R154, R160, R161: PERIOD_START. -/
def doPeriodStart (k : Carrier) (s : State) : State :=
  let x := carrier s k
  match x.next with
  | none => s
  | some p =>
    if !(carriersOn s && x.running && decide (p ≤ s.time.tick)) then s
    else
      let s1 := if updlockAt s k (p - 1) then s else reloadCarrier s k p
      let n := (work s1 (carPeriod k)).toNat
      let trigs := (List.finRange 4).filterMap (fun i =>
        let v := (work s1 (carTrig k i.val)).toNat
        if v < n then some (p + v, i) else none)
      let s2 := updCarrier s1 k (fun y => { y with start := some p, next := some (p + n), ctrigs := y.ctrigs ++ trigs })
      let s3 := if tripLive s2 k then setTripLatch s2 k else s2
      let y := carrier s3 k
      let resume := y.resumeWait && decide (y.clearTick < p)
      let s4 := if resume then
          emitCarrier (updCarrier s3 k (fun z => { z with resumeWait := false })) k p 0x31 (match k with
            | .block _ => 0
            | .gang _ => 1) y.tripCnt.toNat
        else s3
      let tripped := y.trip || (y.resumeWait && !resume)
      let cs := carrierCells s4 k
      let s5 := cs.foldl (fun z c => periodEdges z k p n tripped resume c) s4
      cs.foldl (fun z c => updCell z c (fun w => { w with pwmWait := if cellResumes w p false then none else w.pwmWait })) s5

/-- R151 to R154: PWM_EDGE: the cell's next edge appears at the ball; on the block carrier one that would end a level held
less than 4 ticks is delayed (R152). -/
def doPwmEdge (c : Fin 512) (s : State) : State :=
  let x := s.cells[c]
  match x.pwmEdges, carrierOf s c with
  | e :: rest, some k =>
    if !(carriersOn s && cellEn s c && decide (e.1 / 16 ≤ s.time.tick)) then s
    else
      let block := match k with
        | .block _ => true
        | .gang _ => false
      if block && decide (e.2 ≠ x.latch) && decide (e.1 < leastEdge s c) then
        orReg (updCell s c (fun y => { y with pwmEdges := insertEdge rest (leastEdge s c, e.2) })) (carStat k) 0x040000
      else
        edgesOut (placeEdge (updCell s c (fun y => { y with pwmEdges := rest })) c (if e.2 then .set else .clear)
          (at16 s e.1) false (fun _ => .pwm))
  | _, _ => s

/-- R156: CTRIG: a trigger compare reaches its count. -/
def doCtrig (k : Carrier) (i : Fin 4) (s : State) : State :=
  match (carrier s k).ctrigs.find? (fun e => decide (e.2 = i ∧ e.1 ≤ s.time.tick)) with
  | some e =>
    if carriersOn s then
      carrierTrigger (updCarrier s k (fun y => { y with ctrigs := y.ctrigs.filter (fun f => !decide (f = e)) })) k i e.1
    else s
  | none => s

/-! ### The control parameters -/

/-- R147: EN written 1. In HALT the count stands at 0 until it ends (R164). -/
def startCarrier (s : State) (k : Carrier) (align : Bool) : State :=
  let held := decide (s.sys.mode = .halt)
  updCarrier s k (fun x =>
    { x with running := true, start := none, next := if align || held then none else some (s.time.tick + 1), wait := align,
             frozen := if held then some 0 else none, ctrigs := [] })

/-- R147: an ALIGN start that is waited for comes in the tick whose line time has bits [11:0] equal to 0. -/
def alignStart (s : State) (x : CarrierSt) : CarrierSt :=
  if x.wait && decide (fld (now s) 11 0 = 0) then { x with wait := false, next := some s.time.tick } else x

/-- R147: the carriers whose ALIGN start comes in the present tick. -/
def alignCarriers (s : State) : State :=
  if carriersOn s then { s with bcar := s.bcar.map (alignStart s), gcar := s.gcar.map (alignStart s) } else s

/-- R148: UPDLOCK changes after the present tick; the value it held in this tick is kept. -/
def noteLock (s : State) (k : Carrier) (old : Bool) : State :=
  updCarrier s k (fun x => if x.lockAt = some s.time.tick then x else { x with lockPrev := old, lockAt := some s.time.tick })

/-- R147, R157, R160, R166: a write of BPWM_CTRL or GANG_CTRL takes effect. TRIP_SW is active, and TRIP_CLR is examined, in
the tick after the write. -/
def writeCarrierCtrl (s : State) (k : Carrier) (v : Word) : State × Status :=
  let l := carrierCtrl k
  let old := reg s l
  let s1 := noteLock (setReg s l (v &&& 0x000FA7)) k (bit old 2)
  let s2 := if bit v 0 && !bit old 0 then startCarrier s1 k (bit v 5)
    else if !bit v 0 && bit old 0 then stopCarrier s1 k
    else s1
  (if bit v 3 || bit v 4 then addJob s2 (s.time.tick + 1) (.trip k (bit v 3) (bit v 4)) else s2, .ok)

/-- R166: BPWM_STAT or GANG_STAT as a read shows it. -/
def carStatus (s : State) (k : Carrier) : Word :=
  let x := carrier s k
  word (bitAt x.trip 23 + bitAt (tripLive s k) 22 + bitAt x.resumeWait 21 + x.tripKind.toNat * 256 + x.tripCnt.toNat) |||
    (reg s (carStat k) &&& 0x1D0000)

end Sys2Proof.Machine
end

