-- ==== Sys2Proof/Machine/PewterEng.lean ====
section
/-!
DEFINITION. Pewter engines (07_pewter_engines.md R198 to R217): inputs and output bits, the divider, the step cycle, the
ten instruction types, the LUT machine, and the writes and reads of an engine's parameters.
-/
namespace Sys2Proof.Machine

/-- An engine after a change of it. -/
def updPe (s : State) (p : Fin 32) (f : Pewter → Pewter) : State := { s with pes := s.pes.set p (f s.pes[p]) }

/-- R215: engines step outside BOOT, RETENTION and HALT while the core clock runs. -/
def pewtersOn (s : State) : Bool := alive s && decide (s.sys.mode ≠ .halt)

/-- PE_CTRL.EN. -/
def peEn (s : State) (p : Fin 32) : Bool := regBit s (.pewter p 0x00) 0

/-- PE_CFG.MODE: the LUT machine. -/
def peLutMode (s : State) (p : Fin 32) : Bool := regBit s (.pewter p 0x01) 23

/-! ### Inputs and output bits -/

/-- R198: the crossbar code of input `i`. -/
def peInCode (s : State) (p : Fin 32) (i : Nat) : Nat :=
  regFld s (.pewter p (0x04 + i / 2)) (8 * (i % 2) + 7) (8 * (i % 2))

/-- R198, R201: the level of input `i` in tick `n`, before an edge that the engine has not yet seen; no input reads 0. -/
def peIn (s : State) (p : Fin 32) (i n : Nat) : Bool :=
  match (s.pes[p].seen[Fin.ofNat 4 i]).find? (fun g => decide (n < g.at_)) with
  | some g => !g.rise
  | none => xbarLevel s (regionOfBlock p) (peInCode s p i)

/-- The four inputs in tick `n`, IN0 as bit 0. -/
def peInputs (s : State) (p : Fin 32) (n : Nat) : Nat := (List.range 4).foldl (fun a i => a + bitAt (peIn s p i n) i) 0

/-- The first tick whose edges a WAIT of the engine can still ask for. -/
def seenFrom (s : State) (e : Pewter) : Nat :=
  match e.waitFrom, e.nextStep with
  | some f, _ => f
  | none, some n => min n s.time.tick
  | none, none => s.time.tick

/-- An input takes note of an edge that it first sees in tick `k`. -/
def noteSeen (s : State) (p : Fin 32) (i : Fin 4) (rise : Bool) (k : Nat) : State :=
  updPe s p (fun e =>
    { e with seen := e.seen.set i (e.seen[i].filter (fun g => decide (seenFrom s e ≤ g.at_)) ++ [⟨rise, k⟩]) })

/-- Every input whose crossbar selection `f` gives a tick notes an edge first seen in that tick. -/
def noteInputs (s : State) (rise : Bool) (f : XSrc → Option Nat) : State :=
  (List.finRange 32).foldl (fun z p => (List.finRange 4).foldl (fun y i =>
    match xbar (regionOfBlock p) (peInCode y p i.val) with
    | some x =>
      match f x with
      | some k => noteSeen y p i rise k
      | none => y
    | none => y) z) s

/-- R179: the channels whose Z input is a source of `f` note an edge of pin time `t`. -/
def noteZ (s : State) (rise : Bool) (t : T16) (f : XSrc → Bool) : State :=
  (List.finRange 64).foldl (fun z c =>
    match xbar (regionOfChan c) (regFld z (.chan c 0x02) 23 16) with
    | some x =>
      if f x then
        updChan z c (fun y => { y with zLog := (t, rise) :: y.zLog.filter (fun r => decide ((t - r.1).toNat < 16 * 512)) })
      else z
    | none => z) s

/-- R179, R201: an edge at the ball of TIO `n` is first seen FILT_LEN + 1 ticks after its instant, and 4 more through a chip-wide
line. -/
def pewterSee (s : State) (n : Fin 512) (rise : Bool) (t : T16) : State :=
  let k := absOf s (tickPart t) + filtLen s n + 1
  noteInputs (noteZ s rise t (fun x => match x with
    | .tio m => decide (m = n)
    | .line j => decide (lineSel s j = (1, n.val)))) rise (fun x => match x with
    | .tio m => if m = n then some k else none
    | .line j => if lineSel s j = (1, n.val) then some (k + 4) else none)

/-- R23, R93, R201: a comparator or an engine changes the line `k` in the present tick, with an edge stamped `t`: the cells
that measure it and the engines that select it see it 4 ticks later; the channels that select it as Z note it (R179). -/
def lineChange (s : State) (k : Fin 16) (rise : Bool) (t : T16) : State :=
  let s1 := (List.finRange 512).foldl (fun z c =>
    if measures z c && decide (capSrc z c = some (.line k)) then
      addJob z (z.time.tick + 4) (.measure c (rise != regBit z (.cell c 0x0C) 11) t) else z) s
  noteInputs (noteZ s1 rise t (fun x => decide (x = .line k))) rise (fun x => if x = .line k then some (s.time.tick + 4) else none)

/-- R23, R201, R234: the stamp of an edge that the source of a line makes in the present tick: a comparator's change less
its mode's propagation, an engine's step + 3. -/
def lineStamp (s : State) (k : Fin 16) : T16 :=
  let sel := lineSel s k
  if sel.1 = 2 then mk16 (now s - BitVec.ofNat 48 (compProp (regFld s (.comp (Fin.ofNat 64 sel.2) 0x1) 1 0))) 0
  else mk16 (plus (now s) 3) 0

/-- R23: at the end of a tick: the lines whose comparator or engine has changed, and the levels that the sources gave in the
last 4 ticks. -/
def noteLines (s : State) : State :=
  let w := lineSources s
  let old := (s.pins.lines.head?).getD 0
  let s1 := (List.finRange 16).foldl (fun z k =>
    if decide (2 ≤ (lineSel z k).1) && (bit w k.val != bit old k.val) then lineChange z k (bit w k.val) (lineStamp z k)
    else z) s
  { s1 with pins := { s1.pins with lines := (w :: s1.pins.lines).take 4 } }

/-- R176, R199: the enabled SERIAL channels that read engine `p`. -/
def serialChans (s : State) (p : Fin 32) : List (Fin 64) :=
  (List.finRange 64).filter (fun c => decide (regionOfChan c = regionOfBlock p) && regBit s (.chan c 0x00) 0 &&
    decide (regFld s (.chan c 0x01) 2 0 = 4) && decide (regFld s (.chan c 0x0B) 2 0 = p.val % 8))

/-- R201, R208: the output bits take new levels in the step of tick `n` and are on their way to the balls, which they reach
at `n` + 3; the first fall of its clock bit there latches a SERIAL channel's reading (R176). -/
def setOuts (s : State) (p : Fin 32) (n : Nat) (o : BitVec 16) : State :=
  let old := s.pes[p].out
  if o = old then s
  else
    let s1 := updPe s p (fun e => { e with out := o, outs := e.outs ++ [(n + 3, o)] })
    (serialChans s p).foldl (fun z c =>
      let k := regFld z (.chan c 0x0B) 18 15
      if bit old k && !bit o k then
        updChan z c (fun x => { x with serLatch := match x.serLatch with
          | some l => some l
          | none => some (mk16 (ltAt s (n + 3)) 0) })
      else z) s1

/-- R201, R373: output bits of an engine appear at the balls of the cells that carry them. -/
def outAppears (p : Fin 32) (s : State) (o : BitVec 16) : State :=
  let old := s.pes[p].ball
  (cellsOfBlock p).foldl (fun z c =>
    let k := regFld z (.cell c 0x0D) 7 4
    if regFld z (.cell c 0x0D) 1 0 = 2 ∧ bit o k ≠ bit old k then wearEdge z c (bit o k) else z)
    (updPe s p (fun e => { e with ball := o }))

/-- R201: at the start of a tick, the output bits whose tick has come appear. -/
def outsAppear (s : State) : State :=
  (List.finRange 32).foldl (fun z p =>
    let l := z.pes[p].outs
    if l.isEmpty then z
    else
      let come := l.filter (fun q => decide (q.1 ≤ z.time.tick))
      let z1 := updPe z p (fun e => { e with outs := l.filter (fun q => !decide (q.1 ≤ z.time.tick)) })
      come.foldl (fun y q => outAppears p y q.2) z1) s

/-- R206: window bits 0 to `cnt` − 1 of the data window take the bits of `v`. -/
def windowWrite (s : State) (p : Fin 32) (o : BitVec 16) (v cnt : Nat) : BitVec 16 :=
  let base := regFld s (.pewter p 0x01) 16 13
  (List.range (min cnt (min 16 (regFld s (.pewter p 0x01) 12 8)))).foldl
    (fun a k => setFld a ((base + k) % 16) ((base + k) % 16) (bitAt (v.testBit k) 0)) o

/-! ### Words -/

/-- R205: a word the engine executes. -/
def peLegal (w : PewterWord) : Bool :=
  let cnt := fld w 8 4
  let op := fld w 15 12
  if op = 0 then decide (fld w 11 4 = 0)
  else if op = 1 then decide (fld w 11 10 ≠ 3)
  else if op = 2 then decide (fld w 11 9 ≠ 7) && decide (fld w 8 6 ≠ 7)
  else if op = 3 then true
  else if op = 4 then decide (fld w 11 10 ≠ 3) && !bit w 8 && (decide (fld w 11 10 = 2) || decide (fld w 7 4 ≤ 3))
  else if op = 5 then decide (fld w 11 9 ≠ 7) && decide (1 ≤ cnt ∧ cnt ≤ 24)
  else if op = 6 then decide (fld w 11 10 ≠ 3) && decide (fld w 7 4 = 0)
  else if op = 7 then decide (fld w 11 9 ≤ 4) && decide (1 ≤ cnt ∧ cnt ≤ 24)
  else if op = 8 then decide (fld w 11 10 ≠ 3) && decide (fld w 8 4 = 0)
  else if op = 9 then decide (fld w 10 9 = 0)
  else false

/-- R209: the program store of an engine's group. -/
def peGroup (p : Fin 32) : Nat := p.val / 4

/-- R209: the place of a store word in the log of recent writes. -/
def peStoreKey (p : Fin 32) (a : Nat) : Nat := 0x300000 + peGroup p * 64 + a

/-- A word of the program store. -/
def peStoreAt (s : State) (p : Fin 32) (a : Nat) : PewterWord :=
  memGet (zeroMem 16) s.mem.peProg (peGroup p * 64 + a)

/-- R209: the word a fetch in tick `n` reads: a write takes effect in the tick after it commits. -/
def peFetch (s : State) (p : Fin 32) (a n : Nat) : PewterWord :=
  match (s.par.hlog.filter (fun h => decide (h.pa = peStoreKey p a ∧ n < h.tick))).getLast? with
  | some h => h.old.setWidth 16
  | none => peStoreAt s p a

/-- R209: a word of the program store is written in the present tick. -/
def setPeStore (s : State) (p : Fin 32) (a : Nat) (v : PewterWord) : State :=
  let h : HWrite := ⟨peStoreKey p a, (peStoreAt s p a).setWidth 24, s.time.tick + 1⟩
  let s1 := { s with par := { s.par with hlog := h :: s.par.hlog } }
  clearEcc { s1 with mem := { s1.mem with peProg := memPut (zeroMem 16) s1.mem.peProg (peGroup p * 64 + a) v } }
    .pewterStore (peGroup p) a

/-! ### The step cycle -/

/-- What trying a word gives: the state, whether it completed, the output bits it leaves, and the PC it jumped to or
wrote. -/
structure PeTry where
  st : State
  complete : Bool
  out : BitVec 16
  target : Option (BitVec 6)

/-- A word that stalls. -/
def peStall (s : State) (p : Fin 32) : PeTry := ⟨s, false, s.pes[p].out, none⟩

/-- A word that completes and goes on. -/
def peDone (s : State) (p : Fin 32) : PeTry := ⟨s, true, s.pes[p].out, none⟩

/-- A word that completes and writes output bits. -/
def peOuts (s : State) (o : BitVec 16) : PeTry := ⟨s, true, o, none⟩

/-- R206, R217: IN_LIMIT. -/
def inLimit (s : State) (p : Fin 32) : Nat := regFld s (.pewter p 0x02) 15 11

/-- R206, R217: OUT_LIMIT. -/
def outLimit (s : State) (p : Fin 32) : Nat := regFld s (.pewter p 0x02) 10 6

/-- R199: the pops of the block sequencer that wait for the end of the present tick. -/
def rxPops (s : State) (p : Fin 32) : Nat :=
  (s.agenda.late.filter (fun l => decide (l.op = .pePop p))).length

/-- R199: the receive FIFO has room for a push, which a pop of the same tick can make. -/
def rxRoom (s : State) (p : Fin 32) : Bool := decide (s.pes[p].rx.length < 4 + rxPops s p)

/-- R207: ISR enters the receive FIFO in the step of tick `n`, and ISR and ISC clear unless kept. -/
def pushRx (s : State) (p : Fin 32) (n : Nat) (keep : Bool) : State :=
  updPe s p (fun e =>
    { e with rx := e.rx ++ [(n, e.isr)], isr := if keep then e.isr else 0, isc := if keep then e.isc else 0 })

/-- R207: a word of the transmit FIFO enters OSR. -/
def pullTx (s : State) (p : Fin 32) (w : Word) (rest : List Word) : State :=
  updPe s p (fun e => { e with tx := rest, osr := w, lastTx := w, osc := 0 })

/-- R207: a frame push, made now or pending. -/
def framePushNow (s : State) (p : Fin 32) (n : Nat) : State :=
  if rxRoom s p then pushRx (updPe s p (fun e => { e with framePush := false })) p n false
  else updPe s p (fun e => { e with framePush := true })

/-- R207: a frame pull, made now or pending. -/
def framePullNow (s : State) (p : Fin 32) : State :=
  match s.pes[p].tx with
  | w :: rest => pullTx (updPe s p (fun e => { e with framePull := false })) p w rest
  | [] => updPe s p (fun e => { e with framePull := true })

/-- R207: a pending frame push is made before an IN or a PUSH acts, or stalls it. -/
def afterFramePush (s : State) (p : Fin 32) (n : Nat) (f : State → PeTry) : PeTry :=
  if s.pes[p].framePush then (if rxRoom s p then f (framePushNow s p n) else peStall s p) else f s

/-- R207: a pending frame pull is made before an OUT or a PULL acts, or stalls it. -/
def afterFramePull (s : State) (p : Fin 32) (f : State → PeTry) : PeTry :=
  if s.pes[p].framePull then
    (if s.pes[p].tx.isEmpty then peStall s p else f (framePullNow s p))
  else f s

/-- R204: SET. -/
def trySet (s : State) (p : Fin 32) (w : PewterWord) : PeTry :=
  let d := fld w 9 4
  let dst := fld w 11 10
  if dst = 0 then peOuts s (windowWrite s p s.pes[p].out d 6)
  else if dst = 1 then peDone (updPe s p (fun e => { e with x := word d })) p
  else peDone (updPe s p (fun e => { e with y := word d })) p

/-- R204: the source of a MOV in tick `n`. -/
def movSource (s : State) (p : Fin 32) (n k : Nat) : Word :=
  let e := s.pes[p]
  if k = 0 then word (peInputs s p n) else if k = 1 then e.x else if k = 2 then e.y else if k = 3 then e.isr
  else if k = 4 then e.osr else if k = 5 then 0 else word (e.rx.length * 8 + e.tx.length)

/-- R204: the bit order reversed. -/
def revWord (v : Word) : Word := (List.range 24).foldl (fun a i => if bit v i then a ||| word (2 ^ (23 - i)) else a) 0

/-- R204: Gray code to binary, bit 23 the most significant. -/
def grayWord (v : Word) : Word :=
  (List.range 24).foldl (fun a i => a ^^^ (v >>> i)) 0

/-- R204: the function of a MOV. -/
def movFn (f : Nat) (v : Word) : Word :=
  if f = 0 then v else if f = 1 then ~~~v else if f = 2 then revWord v else grayWord v

/-- R204: MOV. -/
def tryMov (s : State) (p : Fin 32) (n : Nat) (w : PewterWord) : PeTry :=
  let v := movFn (fld w 5 4) (movSource s p n (fld w 8 6))
  let dst := fld w 11 9
  if dst = 0 then peOuts s (windowWrite s p s.pes[p].out v.toNat 16)
  else if dst = 1 then peDone (updPe s p (fun e => { e with x := v })) p
  else if dst = 2 then peDone (updPe s p (fun e => { e with y := v })) p
  else if dst = 3 then peDone (updPe s p (fun e => { e with isr := v, isc := 0 })) p
  else if dst = 4 then peDone (updPe s p (fun e => { e with osr := v, osc := 0 })) p
  else if dst = 5 then ⟨s, true, s.pes[p].out, some (v.setWidth 6)⟩
  else peDone (updPe s p (fun e => { e with holds := e.holds.set 3 (v.setWidth 6) })) p

/-- R204: JMP. XLOOP and YLOOP count in the step in which the JMP completes. -/
def tryJmp (s : State) (p : Fin 32) (n : Nat) (w : PewterWord) : PeTry :=
  let e := s.pes[p]
  let c := fld w 11 9
  let jmpIn := peIn s p (regFld s (.pewter p 0x01) 18 17) n
  let target := e.pc + ((w.extractLsb' 4 5).signExtend 6)
  let go := fun (z : State) (b : Bool) => (⟨z, true, e.out, if b then some target else none⟩ : PeTry)
  if c = 0 then go s true
  else if c = 1 then
    (if e.x = 0 then go s false else go (updPe s p (fun k => { k with x := k.x - 1 })) (decide (e.x ≠ 1)))
  else if c = 2 then
    (if e.y = 0 then go s false else go (updPe s p (fun k => { k with y := k.y - 1 })) (decide (e.y ≠ 1)))
  else if c = 3 then go s jmpIn
  else if c = 4 then go s (!jmpIn)
  else if c = 5 then go s (decide (outLimit s p ≤ e.osc))
  else if c = 6 then go s (decide (inLimit s p ≤ e.isc))
  else go s (if regBit s (.pewter p 0x02) 18 then bit e.osr 0 else bit e.osr 23)

/-- R204: WAIT, tried in the step of tick `n`. An edge or a tooth counts from the step in which it was first tried. -/
def tryWait (s : State) (p : Fin 32) (n : Nat) (w : PewterWord) : PeTry :=
  let e := s.pes[p]
  let k := fld w 11 10
  let pol := bit w 9
  let i := fld w 7 4
  let from_ := match e.waitFrom with
    | some f => f
    | none => n
  let holds :=
    if k = 0 then decide (peIn s p i n = pol)
    else if k = 1 then
      (e.seen[Fin.ofNat 4 i]).any (fun g => decide (g.rise = pol) && decide (from_ ≤ g.at_ ∧ g.at_ ≤ n))
    else match s.doms[Fin.ofNat 16 i].updTick with
      | some t => decide (from_ ≤ t ∧ t ≤ n)
      | none => false
  if holds then peDone (updPe s p (fun x => { x with waitFrom := none })) p
  else peStall (updPe s p (fun x => { x with waitFrom := some from_ })) p

/-- R204: the source bits of an IN in tick `n`. -/
def inSource (s : State) (p : Fin 32) (n k : Nat) : Nat :=
  let e := s.pes[p]
  if k = 0 then peInputs s p n else if k = 1 then 0 else if k = 2 then 0xFFFFFF else if k = 3 then e.x.toNat
  else if k = 4 then e.y.toNat else if k = 5 then e.osr.toNat else e.out.toNat

/-- R206: IN. -/
def tryIn (s : State) (p : Fin 32) (n : Nat) (w : PewterWord) : PeTry :=
  afterFramePush s p n (fun z =>
    let k := fld w 8 4
    let b := inSource z p n (fld w 11 9) % 2 ^ k
    let e := z.pes[p]
    let v := if regBit z (.pewter p 0x02) 19 then (e.isr >>> k) ||| word (b * 2 ^ (24 - k)) else (e.isr <<< k) ||| word b
    let c := min 24 (e.isc + k)
    let z1 := updPe z p (fun x => { x with isr := v, isc := c })
    peDone (if regBit z (.pewter p 0x02) 17 && decide (inLimit z p ≤ c) then framePushNow z1 p n else z1) p)

/-- R207: PUSH. -/
def tryPush (s : State) (p : Fin 32) (n : Nat) (w : PewterWord) : PeTry :=
  afterFramePush s p n (fun z =>
    let e := z.pes[p]
    let keep := bit w 8
    let drop := fun (y : State) => bump (orReg y (.pewter p 0x09) 0x100) (.pewter p 0x13) 23 12 1
    let clear := fun (x : Pewter) => { x with isr := if keep then x.isr else 0, isc := if keep then x.isc else 0 }
    if bit w 9 && decide (e.isc < inLimit z p) then peDone z p
    else if rxRoom z p then peDone (pushRx z p n keep) p
    else if fld w 11 10 = 0 then peStall z p
    else if fld w 11 10 = 1 then peDone (drop (updPe z p clear)) p
    else peDone (drop (updPe z p (fun x => clear { x with rx := x.rx.dropLast ++ [(n, x.isr)] }))) p)

/-- R206: OUT. -/
def tryOut (s : State) (p : Fin 32) (w : PewterWord) : PeTry :=
  afterFramePull s p (fun z =>
    let k := fld w 8 4
    let low := regBit z (.pewter p 0x02) 18
    let e := z.pes[p]
    let v : Word := if low then e.osr &&& word (2 ^ k - 1) else e.osr >>> (24 - k)
    let c := min 24 (e.osc + k)
    let dst := fld w 11 9
    let z1 := updPe z p (fun x =>
      { x with osr := if low then x.osr >>> k else x.osr <<< k, osc := c, x := if dst = 1 then v else x.x,
               y := if dst = 2 then v else x.y, isr := if dst = 4 then v else x.isr, isc := if dst = 4 then k else x.isc })
    peOuts (if regBit z (.pewter p 0x02) 16 && decide (outLimit z p ≤ c) then framePullNow z1 p else z1)
      (if dst = 0 then windowWrite z p e.out v.toNat k else e.out))

/-- R207: PULL. -/
def tryPull (s : State) (p : Fin 32) (w : PewterWord) : PeTry :=
  afterFramePull s p (fun z =>
    let e := z.pes[p]
    let under := fun (v : Word) =>
      peDone (updPe (orReg z (.pewter p 0x09) 0x80) p (fun x => { x with osr := v, osc := 0 })) p
    if bit w 9 && decide (e.osc < outLimit z p) then peDone z p
    else
      match e.tx with
      | h :: rest => peDone (pullTx z p h rest) p
      | [] => if fld w 11 10 = 0 then peStall z p else if fld w 11 10 = 1 then under 0 else under e.lastTx)

/-- R204, R207, R113: IRQ. -/
def tryIrq (s : State) (p : Fin 32) (n : Nat) (w : PewterWord) : PeTry :=
  let full := queueFull s p 19
  if bit w 11 && full then peStall s p
  else
    let s1 := if full then bump s (.pewter p 0x13) 11 0 1 else s
    peDone (raiseRequest s1 p 19 (0x800000 + fld w 8 4) 0x2F n) p

/-- R204: trying a legal word. -/
def peTry (s : State) (p : Fin 32) (n : Nat) (w : PewterWord) : PeTry :=
  match fld w 15 12 with
  | 1 => trySet s p w
  | 2 => tryMov s p n w
  | 3 => tryJmp s p n w
  | 4 => tryWait s p n w
  | 5 => tryIn s p n w
  | 6 => tryPush s p n w
  | 7 => tryOut s p w
  | 8 => tryPull s p w
  | 9 => tryIrq s p n w
  | _ => peDone s p

/-- R203, R208: the output bits after the side field of a completed word, which prevails over the word itself. -/
def sideOut (s : State) (p : Fin 32) (w : PewterWord) (o : BitVec 16) : BitVec 16 :=
  let k := regFld s (.pewter p 0x01) 7 4
  let f := fld w 3 2
  if f = 0 then o
  else setFld o k k (bitAt (if f = 1 then false else if f = 2 then true else !bit s.pes[p].out k) 0)

/-- R202, R210: where the PC goes when a word completes; at a wrap the shadow of PE_WRAP becomes working. -/
def pePc (s : State) (p : Fin 32) (n : Nat) (injected : Bool) (target : Option (BitVec 6)) : State :=
  match target with
  | some t => updPe s p (fun e => { e with pc := t })
  | none =>
    if injected then s
    else if s.pes[p].pc.toNat = fld (work s (.pewter p 0x07)) 11 6 then
      let s1 := if lateAt s (.pewter p 0x07) n then orReg s (.pewter p 0x09) 0x20 else s
      let s2 := reload s1 (.pewter p 0x07) n
      updPe s2 p (fun e => { e with pc := BitVec.ofNat 6 (fld (work s2 (.pewter p 0x07)) 5 0) })
    else updPe s p (fun e => { e with pc := e.pc + 1 })

/-- R202: one try of a word, and what its completion does. -/
def peStep (s : State) (p : Fin 32) (n : Nat) (w : PewterWord) (injected : Bool) : State :=
  let r := peTry s p n w
  if r.complete then
    let s1 := setOuts r.st p n (sideOut r.st p w r.out)
    let s2 := updPe s1 p (fun e =>
      { e with hold := (e.holds[Fin.ofNat 4 (fld w 1 0)]).toNat, ir := none, irInj := false })
    pePc s2 p n injected r.target
  else updPe r.st p (fun e => { e with ir := some w, irInj := injected })

/-- R200: the next step after the step of tick `n`; a new PE_CLKDIV becomes working here. -/
def peNext (s : State) (p : Fin 32) (n : Nat) : State :=
  let s1 := if lateAt s (.pewter p 0x06) n then orReg s (.pewter p 0x09) 0x20 else s
  let s2 := reload s1 (.pewter p 0x06) n
  let v := work s2 (.pewter p 0x06)
  let a := s.pes[p].acc + fld v 7 0
  let i := max 1 (fld v 23 8)
  if peEn s2 p then
    updPe s2 p (fun e =>
      { e with acc := if 256 ≤ a then a - 256 else a, nextStep := some (n + (if 256 ≤ a then i + 1 else i)) })
  else updPe s2 p (fun e => { e with nextStep := none })

/-- R205, R209: an engine stops with a flag of PE_STAT; its output bits and PC stay. -/
def peStop (s : State) (p : Fin 32) (flag : Nat) : State :=
  updPe (orReg (clrReg s (.pewter p 0x00) 1) (.pewter p 0x09) flag) p (fun e =>
    { e with ir := none, irInj := false, nextStep := none })

/-- R209: an uncorrectable word at address `a` stops the fetching engine and raises PE_STORE. -/
def peStoreErr (s : State) (p : Fin 32) (a : Nat) : State :=
  let s1 := updPe (orReg (clrReg s (.pewter p 0x00) 1) (.pewter p 0x09) 0x40) p (fun e => { e with nextStep := none })
  report s1 0x1D (.block p) ((p.val % 4) * 64 + a) false

/-- R202: the word an engine has in a step, and whether it was injected; none where its fetch fails. -/
def peWord (s : State) (p : Fin 32) (n : Nat) : Option (PewterWord × Bool) :=
  let e := s.pes[p]
  match e.ir, e.inj.filter (fun q => decide (q.1 < n)) with
  | some w, _ => some (w, e.irInj)
  | none, some q => some (q.2, true)
  | none, none =>
    if eccBad s .pewterStore (peGroup p) e.pc.toNat then none else some (peFetch s p e.pc.toNat n, false)

/-- The tick of the step that is due, on an enabled engine in the configuration `lut`. -/
def peDue (s : State) (p : Fin 32) (lut : Bool) : Option Nat :=
  match s.pes[p].nextStep with
  | some n =>
    if pewtersOn s && peEn s p && decide (peLutMode s p = lut) && decide (n ≤ s.time.tick) then some n else none
  | none => none

/-- R202: a step of a sequencer whose word satisfies `want`. A fetch that fails stops the engine (R209). -/
def pewterStep (p : Fin 32) (want : PewterWord → Bool) (s : State) : State :=
  match peDue s p false with
  | none => s
  | some n =>
    if s.pes[p].hold ≠ 0 then s
    else
      match peWord s p n with
      | none => peStoreErr s p s.pes[p].pc.toNat
      | some (w, injected) =>
        if want w then
          (if peLegal w then
            peNext (peStep (updPe s p (fun e => { e with inj := if injected && e.ir.isNone then none else e.inj })) p n w
              injected) p n
          else peStop (updPe s p (fun e => { e with inj := if injected && e.ir.isNone then none else e.inj })) p 0x200)
        else s

/-- R202: a word of one instruction type that the engine executes. -/
def peOp (op : Nat) (w : PewterWord) : Bool := decide (fld w 15 12 = op) && peLegal w

/-- R202: PEWTER_HOLD_STEP. -/
def doPewterHold (p : Fin 32) (s : State) : State :=
  match peDue s p false with
  | none => s
  | some n => if s.pes[p].hold = 0 then s else peNext (updPe s p (fun e => { e with hold := e.hold - 1 })) p n

/-- R214: LUT_STEP. -/
def doLutStep (p : Fin 32) (s : State) : State :=
  match peDue s p true with
  | none => s
  | some n =>
    let v := memGet (zeroMem 8) s.mem.lut (p.val * 256 + s.pes[p].lut.toNat * 16 + peInputs s p n)
    let base := regFld s (.pewter p 0x01) 16 13
    let o := (List.range 4).foldl
      (fun a k => setFld a ((base + k) % 16) ((base + k) % 16) (bitAt (bit v k) 0)) s.pes[p].out
    peNext (setOuts (updPe s p (fun e => { e with lut := BitVec.ofNat 4 (fld v 7 4) })) p n o) p n

/-- R202: the step that is due, with whatever word the engine has. -/
def pewterAny (p : Fin 32) (s : State) : State :=
  if peLutMode s p then doLutStep p s
  else if s.pes[p].hold ≠ 0 then doPewterHold p s
  else pewterStep p (fun _ => true) s

/-! ### Commands on an engine -/

/-- R213: a clean start at the end of the tick of its write, for the next tick. X, Y and the output bits keep their values;
with EN = 1 the first step falls in the tick after that. -/
def pewterRestart (s : State) (p : Fin 32) : State :=
  let s1 := setWork s (.pewter p 0x07) (reg s (.pewter p 0x07))
  let h := reg s (.pewter p 0x03)
  updPe s1 p (fun e =>
    { e with isr := 0, isc := 0, osr := 0, osc := outLimit s p, lastTx := 0, rx := [], tx := [], ir := none,
             irInj := false, waitFrom := none, hold := 0, framePush := false, framePull := false, inj := none,
             holds := Vector.ofFn (fun (i : Fin 4) => BitVec.ofNat 6 (fld h (6 * i.val + 5) (6 * i.val))),
             pc := BitVec.ofNat 6 (fld (reg s (.pewter p 0x07)) 5 0), acc := 0, lut := 0,
             nextStep := if peEn s p then some (s.time.tick + 2) else none })

/-- R9, R200, R205, R213: a write of PE_CTRL as it takes effect, at the end of its tick: an engine that it enables or
restarts is enabled in the next tick and takes its first step in the one after. -/
def writePeCtrl (s : State) (p : Fin 32) (v : Word) : State × Status :=
  let was := peEn s p
  let s1 := setReg s (.pewter p 0x00) (v &&& 1)
  (if bit v 1 then pewterRestart s1 p
   else if !bit v 0 then updPe s1 p (fun e => { e with nextStep := none })
   else if was then s1
   else updPe s1 p (fun e => { e with acc := 0, nextStep := some (s.time.tick + 2) }), .ok)

/-- R211: an instruction is placed as pending. -/
def injectPewter (s : State) (p : Fin 32) (w : PewterWord) : State × Status :=
  if (s.pes[p].inj).isSome then (s, .targetBusy)
  else (updPe s p (fun k => { k with inj := some (s.time.tick, w) }), .ok)

/-- R211: in the tick after its write, a disabled engine whose IR is empty executes the injected word as one step, with its
hold ignored. -/
def stepInjected (p : Fin 32) (s : State) : State :=
  match s.pes[p].inj with
  | none => s
  | some (t, w) =>
    if t + 1 = s.time.tick ∧ peEn s p = false ∧ pewtersOn s ∧ peLutMode s p = false ∧ s.pes[p].ir = none then
      let h := s.pes[p].hold
      let s1 := updPe s p (fun k => { k with inj := none })
      if peLegal w then updPe (peStep s1 p s.time.tick w true) p (fun k => { k with hold := h })
      else orReg s1 (.pewter p 0x09) 0x200
    else s

/-- R211: `stepInjected` for every engine, at the start of a tick. -/
def stepInjections (s : State) : State :=
  if s.pes.toList.any (fun e => e.inj.isSome) then (List.finRange 32).foldl (fun z p => stepInjected p z) s else s

/-- R128: the PEPUSH effects among some. -/
def pushes (l : List Effect) : Nat :=
  (l.filter (fun e => match e with
    | .pePush _ => true
    | _ => false)).length

/-- R132, R133: the pushes of a routine that waits for its commit tick. -/
def txOwed (s : State) (b : Fin 32) : Nat :=
  match s.blks[b].run with
  | some r =>
    match r.phase with
    | .commitDue _ => pushes r.buf
    | _ => 0
  | none => 0

/-- R199: the pushes to a transmit FIFO that wait for the end of their tick. -/
def txLate (s : State) (p : Fin 32) : Nat :=
  (s.agenda.late.filter (fun l => match l.op with
    | .pePush q _ => decide (q = p)
    | .write _ (.pewter q 0x10) _ => decide (q = p)
    | _ => false)).length

/-- R199: a write of PE_TXDATA. The pushes of a routine that waits for its commit tick come first. -/
def writePeTxdata (s : State) (p : Fin 32) (v : Word) : State × Status :=
  if 4 ≤ s.pes[p].tx.length + txOwed s p then (s, .queueFull) else (updPe s p (fun e => { e with tx := e.tx ++ [v] }), .ok)

/-- R199: the place of the word that the next pop takes, after the pops of the block sequencer: a word pushed in an earlier
tick. -/
def rxPlace (s : State) (p : Fin 32) : Option (Nat × Word) :=
  let k := rxPops s p
  match s.pes[p].rx[k]? with
  | some q => if q.1 < s.time.tick then some (k, q.2) else none
  | none => none

/-- R199: a read of PE_RXDATA. -/
def readPeRxdata (s : State) (p : Fin 32) : Word × State :=
  if !(serialChans s p).isEmpty then (0, s)
  else
    match rxPlace s p with
    | none => (0, s)
    | some (k, v) => (v, updPe s p (fun e => { e with rx := e.rx.eraseIdx k }))

/-- R128, R176: the word PEPEEK reads. -/
def rxHead (s : State) (p : Fin 32) : Option Word :=
  if !(serialChans s p).isEmpty then none
  else
    match s.pes[p].rx with
    | q :: _ => if q.1 < s.time.tick then some q.2 else none
    | [] => none

/-- R128, R199: a PEPOP takes effect. -/
def popRx (s : State) (p : Fin 32) : State :=
  if (rxHead s p).isSome then updPe s p (fun e => { e with rx := e.rx.drop 1 }) else s

/-- R299: a detector reports an uncorrectable word of an engine's store: the word is marked and the engine stops. -/
def storeFault (s : State) (b : Fin 32) (d : Word) : State :=
  let p : Fin 32 := Fin.ofNat 32 (4 * (b.val / 4) + fld d 7 6)
  peStoreErr (setEccBad s .pewterStore (peGroup p) (fld d 5 0)) p (fld d 5 0)

/-- R209, R217: a write of PE_PROG. -/
def writePeProg (s : State) (who : Requester) (p : Fin 32) (v : Word) : State × Status :=
  let s1 := setSel s who (.pewter p 0x11) (v &&& 0x3F0000)
  (if bit v 23 then setPeStore s1 p (fld v 21 16) (v.setWidth 16) else s1, .ok)

/-- R217: a read of PE_PROG. -/
def readPeProg (s : State) (who : Requester) (p : Fin 32) : Word :=
  let a := selOf s who (.pewter p 0x11)
  a ||| (peStoreAt s p (fld a 21 16)).setWidth 24

/-- R214, R217: a write of PE_LUT, class S. -/
def writePeLut (s : State) (who : Requester) (p : Fin 32) (v : Word) : State × Status :=
  if peEn s p then (s, .staticLocked)
  else
    let s1 := setSel s who (.pewter p 0x12) (v &&& 0xFF0000)
    (if bit v 15 then
      { s1 with mem := { s1.mem with lut := memPut (zeroMem 8) s1.mem.lut (p.val * 256 + fld v 23 16) (v.setWidth 8) } }
    else s1, .ok)

/-- R217: a read of PE_LUT. -/
def readPeLut (s : State) (who : Requester) (p : Fin 32) : Word :=
  let a := selOf s who (.pewter p 0x12)
  a ||| (memGet (zeroMem 8) s.mem.lut (p.val * 256 + fld a 23 16)).setWidth 24

/-- R217: PE_STAT as a read shows it. -/
def peStatus (s : State) (p : Fin 32) : Word :=
  let e := s.pes[p]
  word (e.pc.toNat * 2 ^ 18 + bitAt e.ir.isSome 17 + (e.rx.length - rxPops s p) * 2 ^ 14 + e.tx.length * 2 ^ 11 +
    bitAt e.inj.isSome 10 + e.lut.toNat) ||| (reg s (.pewter p 0x09) &&& 0x0003E0)

end Sys2Proof.Machine
end

