-- ==== Sys2Proof/Machine/Micro.lean ====
section
/-!
DEFINITION. Block sequencers and microcode (04_microengine.md R113 to R146): scheduling and abandonment, the microword,
the commit buffer and its application, violations and microcode faults, the block timer and the sequencer's parameters.
-/
namespace Sys2Proof.Machine

/-- R328, R345, R346: sequencers run outside BOOT, RETENTION, POWER-FAIL and HALT. -/
def seqsOn (s : State) : Bool := alive s && decide (s.sys.mode ≠ .powerFail ∧ s.sys.mode ≠ .halt)

/-! ### Requests -/

/-- R115, R146: the level of a source. -/
def srcLevel (s : State) (b : Fin 32) (src : Fin 20) : Nat :=
  if src.val < 12 then regFld s (.block b 0x01) (2 * src.val + 1) (2 * src.val)
  else if src.val < 16 then regFld s (.block b 0x02) (2 * (src.val - 12) + 1) (2 * (src.val - 12))
  else regFld s (.block b 0x02) (8 + 2 * (src.val - 16) + 1) (8 + 2 * (src.val - 16))

/-- The head of a source's queue. -/
def headOf (s : State) (b : Fin 32) (src : Fin 20) : Option Request := s.blks[b].queues[src].head?

/-- The queue of a source after a change of it. -/
def updQueue (s : State) (b : Fin 32) (src : Fin 20) (f : List Request → List Request) : State :=
  updBlk s b (fun k => { k with queues := k.queues.set src (f k.queues[src]) })

/-- R293: the host command of a request completes. -/
def finishHost (s : State) (q : Request) (t : Status) (v : Word) : State :=
  match q.host with
  | some e => complete s 0x42 e t v
  | none => s

/-- R114: a request is discarded. -/
def discardRequest (s : State) (b : Fin 32) (q : Request) : State :=
  finishHost (orReg s (.block b 0x06) 0x400) q .entryInvalid 0

/-- R114: the queue of a source that no routine of it holds. -/
def freeQueue (s : State) (b : Fin 32) (src : Fin 20) : List Request :=
  if runsSource s b src then [] else s.blks[b].queues[src]

/-- R141: the dispatch table entry of a request. -/
def entryWord (s : State) (b : Fin 32) (q : Request) : MicroWord := cstoreAt s b (0xC00 + q.entry.toNat)

/-- R114: the requests at the head of a source's queue that arrived while CUST_EN was 0 or whose entry is not VALID are
discarded. -/
def dropInvalid (s : State) (b : Fin 32) (src : Fin 20) : State :=
  let bad := fun (q : Request) => decide (q.at_ < s.time.tick) && (q.refused || !bit (entryWord s b q) 28)
  let l := (freeQueue s b src).takeWhile bad
  if l.isEmpty then s
  else l.foldl (fun z q => discardRequest z b q) (updQueue s b src (fun x => x.drop l.length))

/-- R114: `dropInvalid` for every source. -/
def dropAll (s : State) (b : Fin 32) : State := (List.finRange 20).foldl (fun z src => dropInvalid z b src) s

/-- R114: at the start of a tick, the heads that have become visible and cannot be served are discarded. -/
def dropHeads (s : State) : State :=
  if seqsOn s then
    (List.finRange 32).foldl (fun z b => if z.blks[b].queues.toList.all (fun l => l.isEmpty) then z else dropAll z b) s
  else s

/-- R114, R143: with CUST_EN = 0 every request that no routine runs is discarded. -/
def purgeRequests (s : State) (b : Fin 32) : State :=
  (List.finRange 20).foldl (fun z src =>
    let l := z.blks[b].queues[src]
    let kept := if runsSource z b src then l.take 1 else []
    (l.drop kept.length).foldl (fun y q => discardRequest y b q) (updQueue z b src (fun _ => kept))) s

/-- R116: a head that the scheduler sees. -/
def visible (s : State) (b : Fin 32) (src : Fin 20) : Option Request :=
  match headOf s b src with
  | some q => if q.at_ < s.time.tick then some q else none
  | none => none

/-- R118: the promoted head that was promoted first. -/
def promotedSrc (s : State) (b : Fin 32) : Option (Fin 20) :=
  ((List.finRange 20).foldl (fun (m : Option (Fin 20 × Nat)) src =>
    match visible s b src with
    | some q => match q.promoted, m with
      | some n, some (_, k) => if n < k then some (src, n) else m
      | some n, none => some (src, n)
      | none, _ => m
    | none => m) none).map (fun p => p.1)

/-- R115: the sources in the round-robin order of a level. -/
def roundRobin (s : State) (b : Fin 32) (lvl : Nat) : List (Fin 20) :=
  let last := (s.blks[b].lastServed[Fin.ofNat 4 lvl]).val
  (List.range 20).map (fun i => Fin.ofNat 20 (last + 1 + i))

/-- R115: the source the scheduler chooses. -/
def chooseSrc (s : State) (b : Fin 32) : Option (Fin 20) :=
  match promotedSrc s b with
  | some src => some src
  | none =>
    [3, 2, 1, 0].findSome? (fun lvl =>
      (roundRobin s b lvl).find? (fun src => decide (srcLevel s b src = lvl) && (visible s b src).isSome))

/-! ### Ends of routines -/

/-- R116, R118: a routine ends with the present tick; its request leaves the queue. -/
def endRoutine (s : State) (b : Fin 32) (r : Routine) : State :=
  updQueue (updBlk s b (fun k => { k with run := none, freeAt := s.time.tick + 1 })) b r.src (fun l => l.drop 1)

/-- R132: COMMIT_RQ raises a new request at the head of the source's queue. -/
def requeue (s : State) (b : Fin 32) (r : Routine) : State :=
  if r.again then
    updQueue s b r.src (fun l => ⟨r.req.arg, r.req.entry, 0, none, none, s.time.tick, custOff s b⟩ :: l)
  else s

/-- R146: SEQ_ERR takes a kind, a cause and an address. -/
def seqErr (micro : Bool) (cause : Nat) (a : BitVec 12) : Nat := bitAt micro 23 + cause * 2 ^ 19 + a.toNat

/-- R131: a microcode fault ends the routine; the block reacts at L2. -/
def microFault (s : State) (b : Fin 32) (r : Routine) (cause : Nat) : State :=
  let e := seqErr true cause r.pc
  let s1 := endRoutine (noteCount (setReg s (.block b 0x08) (word e)) b r) b r
  scopeFaultOf (report s1 0x1C (.block b) e false) r.req

/-- R142, R298: a violation ends the routine with nothing applied. -/
def microViolation (s : State) (b : Fin 32) (r : Routine) (a : BitVec 12) (cause : Nat) (isWrite : Bool) : State :=
  let e := seqErr false cause a
  let s1 := orReg (setReg s (.block b 0x08) (word e)) (.block b 0x06) 0x100
  let s2 := violation s1 a.toNat 3 (bitAt isWrite 0) 4 b.val cause 0
  let s3 := noteCount (report s2 0x05 (.block b) e false) b r
  finishHost (endRoutine s3 b r) r.req .routineAbort 0

/-- R117, R118: a routine is abandoned; its request stays at the head of its queue, promoted at its fourth time. Where
CUST_EN has been cleared it is pending again, to be discarded (R143). -/
def abandon (s : State) (b : Fin 32) (r : Routine) : State :=
  let n := r.req.abandons + 1
  let k := s.blks[b].promoCount
  let q : Request :=
    { r.req with abandons := n, promoted := if 4 ≤ n then some k else none, refused := r.req.refused || custOff s b }
  let s1 := updQueue (updBlk (noteCount s b r) b (fun x => { x with run := none, freeAt := s.time.tick + 1 })) b r.src
    (fun l => q :: l.drop 1)
  let s2 := bump s1 (.block b 0x07) 23 12 1
  if 4 ≤ n then
    updBlk (orReg (bump s2 (.block b 0x07) 11 0 1) (.block b 0x06) 0x80) b (fun x => { x with promoCount := k + 1 })
  else s2

/-! ### Dispatch -/

/-- R116: a routine at its first word: registers 0, flags clear, stack and buffer empty. -/
def routineAt (s : State) (b : Fin 32) (src : Fin 20) (q : Request) (e : MicroWord) : Routine :=
  { src := src, level := srcLevel s b src, req := q,
    own := BitVec.ofNat 16 (fld e 27 12) &&& BitVec.ofNat 16 (regFld s (.block b 0x05) 15 0),
    pc := BitVec.ofNat 12 (fld e 11 0), readyAt := s.time.tick + 3, firstAt := s.time.tick + 3, phase := .body,
    again := false, waits := false, u := Vector.replicate 16 0, lc := 0, mdr := 0, crd := 0, tacc := 0, tres := 0, tfrac := 0,
    angle := 0, period := 0, cycle := 0, toothT := 0, z := false, n := false, c := false, v := false, tpast := false,
    tfut := false, memFwd := false, stack := [], buf := [] }

/-- R115, R116, R141, R142: ROUTINE_DISPATCH: the scheduler chooses and dispatch begins in the present tick. -/
def doRoutineDispatch (b : Fin 32) (s : State) : State :=
  if !(seqsOn s && decide (s.blks[b].run = none) && decide (s.blks[b].freeAt ≤ s.time.tick)) then s
  else
    let s1 := dropAll s b
    match chooseSrc s1 b with
    | none => s1
    | some src =>
      match headOf s1 b src with
      | none => s1
      | some q =>
        let a := 0xC00 + q.entry.toNat
        let e := entryWord s1 b q
        let r := routineAt s1 b src q e
        let s2 := updBlk s1 b (fun k =>
          { k with run := some r, lastServed := k.lastServed.set (Fin.ofNat 4 r.level) src })
        if eccBad s .controlStore b.val a then report s1 0x18 (.block b) a false
        else if r.pc < 0xC40 then microViolation s2 b r (BitVec.ofNat 12 a) 0x9 false
        else s2

/-! ### Microwords -/

/-- R123: the defined COND codes. -/
def condDefined (k : Nat) : Bool :=
  decide (k ≤ 0x0E ∨ 0x10 ≤ k ∧ k ≤ 0x16 ∨ 0x18 ≤ k ∧ k ≤ 0x1D ∨ k = 0x20 ∨ k = 0x21 ∨ 0x24 ≤ k ∧ k ≤ 0x29)

/-- R120, R131: a word without reserved codes or bits. -/
def microLegal (w : MicroWord) : Bool :=
  decide (fld w 127 124 ≤ 0xA) && condDefined (fld w 123 118) && aluDefined (fld w 105 100) &&
    decide (fld w 89 85 ≤ 0x11) && decide (fld w 60 56 ≤ 0x0A ∨ 0x10 ≤ fld w 60 56 ∧ fld w 60 56 ≤ 0x1C) &&
    !bit w 54 && decide (fld w 49 46 ≤ 0xD) && decide (fld w 33 30 ≤ 2) && decide (fld w 25 24 ≠ 3) &&
    decide (fld w 23 20 ≤ 9) && decide (fld w 15 0 = 0)

/-- R126: the cell a word names. -/
def microCell (r : Routine) (w : MicroWord) : Fin 16 :=
  if bit w 55 then Fin.ofNat 16 (r.u[(12 : Fin 16)]).toNat else Fin.ofNat 16 (fld w 53 50)

/-- The domain a word names. -/
def microDom (w : MicroWord) : Fin 16 := Fin.ofNat 16 (fld w 19 16)

/-- R125: a source. -/
def microSource (r : Routine) (w : MicroWord) (k : Nat) : Word :=
  if k < 0x10 then r.u[Fin.ofNat 16 k]
  else if k = 0x10 then word (fld w 84 61)
  else if k = 0x11 then 0
  else if k = 0x12 then r.mdr
  else if k = 0x13 then r.crd
  else if k = 0x14 then loWord r.tacc
  else if k = 0x15 then hiWord r.tacc
  else if k = 0x16 then r.tres
  else if k = 0x17 then r.tfrac.setWidth 24
  else if k = 0x18 then r.angle
  else if k = 0x19 then r.period
  else if k = 0x1A then r.cycle
  else if k = 0x1B then loWord r.toothT
  else if k = 0x1C then hiWord r.toothT
  else if k = 0x1D then r.req.arg
  else if k = 0x1E then word ((if r.req.promoted.isSome then 4 else r.level) * 2 ^ 21 + r.req.abandons * 2 ^ 18 + r.src.val)
  else r.lc

/-- R123: a request above the routine's level is pending. -/
def pendHigher (s : State) (b : Fin 32) (r : Routine) : Bool :=
  (List.finRange 20).any (fun src => decide (r.level < srcLevel s b src) && (visible s b src).isSome)

/-- R123: a condition. -/
def microCond (s : State) (b : Fin 32) (r : Routine) (w : MicroWord) : Bool :=
  let k := fld w 123 118
  let d := s.doms[microDom w]
  let c := cellOf b (microCell r w)
  let x := s.cells[c]
  if k = 0x00 then true
  else if k = 0x01 then r.z else if k = 0x02 then !r.z
  else if k = 0x03 then r.n else if k = 0x04 then !r.n
  else if k = 0x05 then r.c else if k = 0x06 then !r.c
  else if k = 0x07 then r.v else if k = 0x08 then !r.v
  else if k = 0x09 then r.n != r.v else if k = 0x0A then r.n == r.v
  else if k = 0x0B then !r.z && r.n == r.v else if k = 0x0C then r.z || r.n != r.v
  else if k = 0x0D then r.c && !r.z else if k = 0x0E then !r.c || r.z
  else if k = 0x10 then r.tpast else if k = 0x11 then r.tfut
  else if k = 0x12 then decide (d.leafSt = .synced)
  else if k = 0x13 then decide (d.leafSt = .synced ∨ d.leafSt = .suspect)
  else if k = 0x14 then decide (d.leafPeriod ≠ 0)
  else if k = 0x15 then decide (d.leafSt = .stopped)
  else if k = 0x16 then decide (d.leafSt = .lost)
  else if k = 0x18 then !x.fifo.isEmpty
  else if k = 0x19 then cmpArmed s c .a else if k = 0x1A then cmpArmed s c .b
  else if k = 0x1B then ballLevel s c
  else if k = 0x1C then pinSafe s c
  else if k = 0x1D then (match x.fifo with
    | h :: _ => h.rise
    | [] => false)
  else if k = 0x20 then (rxHead s b).isSome
  else if k = 0x21 then decide (s.pes[b].tx.length < 4)
  else if k = 0x24 then decide (r.lc = 0)
  else if k = 0x25 then r.buf.isEmpty
  else if k = 0x26 then decide (8 ≤ r.buf.length)
  else if k = 0x27 then pendHigher s b r
  else if k = 0x28 then r.memFwd
  else decide (r.req.abandons ≠ 0)

/-- R126: the value of a CELL read. -/
def cellReadOp (s : State) (b : Fin 32) (c : Fin 512) (op : Nat) : Word :=
  let x := s.cells[c]
  let h := x.fifo.head?
  if op = 0x01 then cellStatus s (.block b) c
  else if op = 0x02 then (match h with
    | some p => loWord (tickPart p.t)
    | none => 0)
  else if op = 0x03 then (match h with
    | some p => hiWord (tickPart p.t)
    | none => 0)
  else if op = 0x04 then loWord (tickPart (cmpShown s c .a))
  else if op = 0x05 then hiWord (tickPart (cmpShown s c .a))
  else if op = 0x06 then loWord (tickPart (cmpShown s c .b))
  else if op = 0x07 then hiWord (tickPart (cmpShown s c .b))
  else if op = 0x08 then reg s (.cell c 0x01)
  else if op = 0x09 then trimShown s c
  else (match h with
    | some p => word (bitAt p.rise 4 + (fracPart p.t).toNat)
    | none => 0)

/-- R146, R165: a block parameter without the effects of a read. -/
def peekBlock (s : State) (b : Fin 32) (off : Nat) : Word :=
  if off = 0x06 then
    let pend := (List.finRange 20).filter (fun src => !(s.blks[b].queues[src]).isEmpty && !runsSource s b src ||
      decide (2 ≤ s.blks[b].queues[src].length))
    let idle := if pend.isEmpty then 7 else pend.foldl (fun m src => max m (srcLevel s b src)) 0
    let run := match s.blks[b].run with
      | some r => (if r.req.promoted.isSome then 4 else r.level) * 2 ^ 21 + r.src.val * 2 ^ 16
      | none => 0xFF0000
    word (run + idle * 2 ^ 13) ||| (reg s (.block b 0x06) &&& 0x000F80)
  else if off = 0x0A then word (s.boot.patch.toNat * 256 + s.blks[b].traps.length)
  else if off = 0x0B then
    word (s.blks[b].rebuildCnt.toNat * 2 ^ 16 + bitAt (s.blks[b].rebuildEnd).isSome 3 + s.blks[b].voting.toNat)
  else if off = 0x0F then word (carCount s (.block b))
  else if off = 0x10 then carStatus s (.block b)
  else reg s (.block b off)

/-! ### Effects -/

/-- R128: the address of a MEM op. The sum of U10 and the offset wraps at 24 bits before its range is checked (log entry 93). -/
def memAddr (r : Routine) (w : MicroWord) : Nat :=
  let op := fld w 49 46
  let off := fld w 45 34
  if op = 0x1 ∨ op = 0x3 then 0x1000 + off
  else if op = 0x9 ∨ op = 0xA then off % 32
  else ((r.u[(10 : Fin 16)]) + word off).toNat

/-- R128, R131: the address is out of its range. -/
def memOutOfRange (r : Routine) (w : MicroWord) : Bool :=
  let op := fld w 49 46
  let a := memAddr r w
  if 1 ≤ op ∧ op ≤ 6 then decide (0x1FFF < a)
  else if op = 7 ∨ op = 8 then decide (0xFFFF < a)
  else if op = 9 ∨ op = 0xA then decide (0x17 < a)
  else false

/-- R128: a load with what the buffer holds for its word: the value and whether it was forwarded. -/
def forwarded (buf : List Effect) (region : Bool) (a : Nat) (v : Word) : Word × Bool :=
  buf.foldl (fun (x : Word × Bool) e =>
    match e with
    | .pramStore k d => if !region && k = a then (d, true) else x
    | .pramSet k d => if !region && k = a then (x.1 ||| d, true) else x
    | .pramClear k d => if !region && k = a then (x.1 &&& ~~~d, true) else x
    | .regionStore k d => if region && k = a then (d, true) else x
    | _ => x) (v, false)

/-- R120, R121: the effects of a word, in the order CELL, MEM, REC. -/
def wordEffects (r : Routine) (w : MicroWord) (data : Word) : List Effect :=
  let c := microCell r w
  let cop := fld w 60 56
  let mop := fld w 49 46
  let a := memAddr r w
  let rop := fld w 33 30
  (if 0x10 ≤ cop then [Effect.cell (BitVec.ofNat 5 cop) c data] else []) ++
  (if mop = 3 ∨ mop = 4 then [Effect.pramStore a data]
   else if mop = 5 then [Effect.pramSet a data]
   else if mop = 6 then [Effect.pramClear a data]
   else if mop = 8 then [Effect.regionStore a data]
   else if mop = 0xA then [Effect.blockParam a data]
   else if mop = 0xC then [Effect.pePop]
   else if mop = 0xD then [Effect.pePush data]
   else []) ++
  (if rop = 0 then []
   else [Effect.record ((r.u[(13 : Fin 16)]).setWidth 8) c (Fin.ofNat 16 (fld w 29 26)) data r.u[(15 : Fin 16)]
     (if rop = 2 then some r.tacc else none)])

/-- R142: the violation of a word before its next address: cause, and whether it is a write. -/
def wordViolation (s : State) (b : Fin 32) (r : Routine) (w : MicroWord) : Option (Nat × Bool) :=
  let c := microCell r w
  let cop := fld w 60 56
  let mop := fld w 49 46
  let a := memAddr r w
  let owned := bit r.own c.val
  let rec_ := fld w 33 30
  let typ := fld (r.u[(13 : Fin 16)]) 7 0
  if cop = 0x19 then some (0x3, true)
  else if cop = 0x1C && !owned then some (0x2, true)
  else if 0x10 ≤ cop && decide (cop ≠ 0x1C) && !(owned && decide (cellMode s (cellOf b c) = 7)) then some (0x1, true)
  else if 1 ≤ mop && mop ≤ 6 && !decide (0x1000 ≤ a ∧ a ≤ 0x1FFF) then some (0x4, decide (3 ≤ mop))
  else if (mop = 7 || mop = 8) && decide (a < 0xC000) then some (0x5, decide (mop = 8))
  else if mop = 0xA && decide (a ≠ 0x04) then some (0x6, true)
  else if rec_ ≠ 0 && !decide (0xE0 ≤ typ ∧ typ ≤ 0xEF) then some (0x7, true)
  else none

/-- R145: a write of BLK_TIMER; a timer stopped at 0 starts a period with the new value. -/
def writeBlkTimer (s : State) (b : Fin 32) (v : Word) : State × Status :=
  if 1 ≤ v.toNat ∧ v.toNat < 16 then (s, .addrInvalid)
  else
    let s1 := writeShadow s (.block b 0x04) v
    if regBit s (.block b 0x00) 1 && decide (s.blks[b].timerNext = none) && decide (v ≠ 0) then
      (updBlk (setWork s1 (.block b 0x04) v) b (fun k => { k with timerNext := some (s.time.tick + 1 + v.toNat) }), .ok)
    else (s1, .ok)

/-- R129: a record of microcode, committed in the present tick; a source's timestamps never fall. -/
def userRecord (s : State) (b : Fin 32) (typ : Byte) (n : Fin 16) (ring : Fin 16) (a v : Word) (at_ : Option Time) :
    State :=
  let c := cellOf b n
  let t0 : Time := match at_ with
    | some t => if after t (now s) then now s else t
    | none => now s
  let last : Time := (s.cells[c].lastUser).getD t0
  let ts : Time := if after last t0 then last else t0
  let s1 : State := if after last t0 then orReg s (.block b 0x06) 0x800 else s
  emitRegion (updCell s1 c (fun x => { x with lastUser := some ts })) (regionOfBlock b) ring.val s.time.tick
    ⟨typ, BitVec.ofNat 16 (b.val * 16 + n.val), ts, a, v⟩

/-- R126, R127: a buffered CELL op is applied in the commit tick. The low words and the capture FIFO change in it; a compare,
HRES_TRIM, CELL_CTRL, CELL_STAT and the latch change with the block's grant (R17, R132). -/
def applyCell (s : State) (b : Fin 32) (op : BitVec 5) (c : Fin 512) (v : Word) : State :=
  let who : Requester := .block b
  let late := addLate s 2 who
  let k := op.toNat
  if k = 0x10 then setLow s who (.cell c 0x02) v
  else if k = 0x11 then (writeCmpHi s who c .a (lowOf s who (.cell c 0x02)) v).1
  else if k = 0x12 then setLow s who (.cell c 0x04) v
  else if k = 0x13 then (writeCmpHi s who c .b (lowOf s who (.cell c 0x04)) v).1
  else if k = 0x14 then late (.write 0 (.cell c 0x0B) v)
  else if k = 0x15 then late (.latch c (if bit v 0 then .set else .clear))
  else if k = 0x16 then late (.latch c .toggle)
  else if k = 0x17 then (readCapLo s who c).2
  else if k = 0x18 then late (.write 0 (.cell c 0x08) v)
  else if k = 0x19 then late (.write 0 (.cell c 0x01) v)
  else if k = 0x1A then late (.disarm c .a)
  else if k = 0x1B then late (.disarm c .b)
  else cellTrigger (wearKind s c 5) c s.time.tick

/-- R132: one effect of the buffer is applied in the commit tick: parameters and RAM words take their new values in the tick
after it, and region-RAM stores go to their banks (R18). -/
def applyEffect (b : Fin 32) (s : State) (e : Effect) : State :=
  let late := addLate s 2 (.block b)
  match e with
  | .cell op n v => applyCell s b op (cellOf b n) v
  | .pramStore a v => late (.write 0 (.pram b a .direct) v)
  | .pramSet a v => late (.write 0 (.pram b a .set) v)
  | .pramClear a v => late (.write 0 (.pram b a .clear) v)
  | .regionStore a v => askBank s (regionOfBlock b) a (Fin.ofNat 9 (b.val % 8)) (some v)
  | .blockParam off v => if off = 0x04 then (writeBlkTimer s b v).1 else s
  | .pePop => late (.pePop b)
  | .pePush v => late (.pePush b v)
  | .record typ n ring a v at_ => userRecord s b typ n ring a v at_

/-! ### Executing a word -/

/-- R117: a request of a higher level that became visible while the routine was abandonable. -/
def abandonedBy (s : State) (b : Fin 32) (r : Routine) : Bool :=
  r.req.promoted.isNone && (List.finRange 20).any (fun src => decide (r.level < srcLevel s b src) &&
    (s.blks[b].queues[src]).any (fun q => decide (r.firstAt ≤ q.at_ + 1 ∧ q.at_ + 1 ≤ s.time.tick)))

/-- R130: the TIME op of a word. -/
def timeOp (s : State) (r : Routine) (w : MicroWord) (data : Word) : Routine :=
  let k := fld w 23 20
  let d := microDom w
  if k = 1 then { r with tacc := now s }
  else if k = 2 then
    { r with angle := leafAngle s d, cycle := s.doms[d].leafCycle, period := s.doms[d].leafPeriod,
             toothT := s.doms[d].leafPin }
  else if k = 3 then { r with tacc := mkTime (hiWord r.tacc) data }
  else if k = 4 then { r with tacc := mkTime data (loWord r.tacc) }
  else if k = 5 then { r with tacc := r.tacc + data.setWidth 48 }
  else if k = 6 then { r with tacc := r.tacc - data.setWidth 48 }
  else if k = 7 then { r with tpast := !after r.tacc (now s), tfut := after r.tacc (now s) }
  else if k = 8 then { r with tres := wordOfInt (max (-0x7FFFFF) (min 0x7FFFFF (r.tacc - now s).toInt)) }
  else if k = 9 then
    let p := r.period.toNat * prescOf s d
    let f := mk16 r.toothT 0 + BitVec.ofNat 52 (fld data 12 0 * p / 256)
    if p = 0 then { r with tacc := r.toothT, tfrac := 0 } else { r with tacc := tickPart f, tfrac := fracPart f }
  else r

/-- R121, R128, R353: the MEM load of a word, whose address comes from the registers `r0` at its start; an uncorrectable
word loads 0 and is reported. -/
def loadOp (s : State) (b : Fin 32) (r0 r : Routine) (w : MicroWord) : State × Routine :=
  let op := fld w 49 46
  let a := memAddr r0 w
  if op = 1 ∨ op = 2 then
    if eccBad s .paramRam b.val a then
      (report s 0x19 (.block b) a false, { r with mdr := 0, memFwd := false })
    else
      let f := forwarded r.buf false a (pramSeen s b a false)
      (s, { r with mdr := f.1, memFwd := f.2 })
  else if op = 7 then
    let g := regionOfBlock b
    if eccBad s .regionRam g.val a then
      (report s 0x20 (.region g) a false, { r with mdr := 0, memFwd := false })
    else
      let f := forwarded r.buf true a (rramAt s g a)
      (s, { r with mdr := f.1, memFwd := f.2 })
  else if op = 9 then (s, { r with mdr := peekBlock s b a, memFwd := false })
  else if op = 0xB then
    (s, { r with mdr := (rxHead s b).getD 0 })
  else (s, r)

/-- R121: an ALU result is used by a word: as a destination's value, or as the data of an effect or a TIME op. -/
def dataUsed (w : MicroWord) : Bool :=
  let m := fld w 49 46
  let t := fld w 23 20
  decide (0x10 ≤ fld w 60 56) || decide (3 ≤ m ∧ m ≤ 6 ∨ m = 8 ∨ m = 0xA ∨ m = 0xD) || decide (fld w 33 30 ≠ 0) ||
    decide (3 ≤ t ∧ t ≤ 6 ∨ t = 9)

/-- R122: the next address of a word. -/
def nextAddr (r : Routine) (w : MicroWord) (cond : Bool) : BitVec 12 :=
  let k := fld w 127 124
  let t := BitVec.ofNat 12 (fld w 117 106)
  let go := r.pc + 1
  if k = 1 ∨ k = 4 then t
  else if k = 2 then (if cond then t else go)
  else if k = 3 then (if cond then go else t)
  else if k = 5 then r.stack.head?.getD go
  else if k = 6 then (if r.lc - 1 ≠ 0 then t else go)
  else if k = 7 then t + ((microSource r w (fld w 99 95)).extractLsb' 0 4).setWidth 12
  else if k = 8 then (if cond then go else r.pc)
  else go

/-- R121, R122, R125: the registers after a word, its next address aside. LOOP and an ALU write of LC in one word leave LC
a value the spec does not give. -/
def wordRegs (s : State) (b : Fin 32) (r : Routine) (w : MicroWord) (data : Word) : Routine :=
  let op := fld w 105 100
  let a := microSource r w (fld w 99 95)
  let bb := microSource r w (fld w 94 90)
  let f := aluFlags op a bb ⟨r.z, r.n, r.c, r.v⟩
  let dst := fld w 89 85
  let cop := fld w 60 56
  let k := fld w 127 124
  let loops := decide (k = 6)
  let r1 := { r with z := f.z, n := f.n, c := f.c, v := f.v,
                     u := if op ≠ 0 ∧ dst < 0x10 then r.u.set (Fin.ofNat 16 dst) data else r.u,
                     lc := if op ≠ 0 ∧ dst = 0x11 then (if loops then freeVal s 24 else data)
                       else if loops then r.lc - 1 else r.lc,
                     crd := if 1 ≤ cop ∧ cop ≤ 0x0A then cellReadOp s b (cellOf b (microCell r w)) cop else r.crd,
                     stack := if k = 4 then (r.pc + 1) :: r.stack else if k = 5 then r.stack.drop 1 else r.stack }
  timeOp s r1 w data

/-- R131: the microcode fault of a word: its SEQ_ERR cause. `tail` counts the tail words before it. -/
def wordFault (r : Routine) (w : MicroWord) (tail : Option Nat) (effects : Nat) : Option Nat :=
  let k := fld w 127 124
  let commit := fld w 25 24
  if !microLegal w then some 0x1
  else if tail.isSome && (decide (commit ≠ 0) || decide (fld w 49 46 = 7)) then some 0x4
  else if decide (8 ≤ tail.getD 0) then some 0x4
  else if memOutOfRange r w then some 0x5
  else if (decide (k = 4) && decide (4 ≤ r.stack.length)) || (decide (k = 5) && r.stack.isEmpty) then some 0x6
  else if tail.isNone && decide (16 < r.buf.length + effects) then some 0x2
  else if tail.isNone && decide (k = 9 ∧ commit = 0 ∧ r.buf.length + effects ≠ 0) then some 0x3
  else none

/-- R133, R199: the transmit FIFO has no room for some effects' pushes, after the pull of a step that is due and the pushes
that come first. -/
def pushStalls (s : State) (b : Fin 32) (buf : List Effect) : Bool :=
  decide (pushes buf ≠ 0 ∧ 4 < ((pewterAny b s).pes[b].tx).length + txLate s b + pushes buf)

/-- R307: the buffer holds an effect on a held cell. -/
def buffersHeld (s : State) (b : Fin 32) (buf : List Effect) : Bool :=
  buf.any (fun e => match e with
    | .cell _ n _ => cellHeld s (cellOf b n)
    | _ => false)

/-- The block goes on with a routine. -/
def setRun (s : State) (b : Fin 32) (r : Routine) : State := updBlk s b (fun k => { k with run := some r })

/-- R132 to R134: what follows a word's registers: the end of the routine, its commit, its tail, or its next word. -/
def afterWord (s : State) (b : Fin 32) (r0 r : Routine) (w : MicroWord) (go : Bool) (effs : List Effect) : State :=
  let k := fld w 127 124
  let commit := fld w 25 24
  let next := { r with readyAt := s.time.tick + 1 }
  match r0.phase with
  | .tail n =>
    if pushStalls s b effs then setRun s b { r0 with readyAt := s.time.tick + 1 }
    else
      let s1 := inTick s 1 (fun z => effs.foldl (applyEffect b) z)
      if k = 9 then requeue (endRoutine s1 b r) b r
      else setRun s1 b { next with phase := .tail (n + 1) }
  | _ =>
    let buf := r0.buf ++ effs
    if k = 0xA then finishHost (endRoutine (noteCount s b r) b r) r.req .routineAbort 0
    else if go && decide (commit ≠ 0) then
      if pushStalls s b buf then setRun s b { r0 with readyAt := s.time.tick + 1 }
      else if buffersHeld s b buf then scopeFaultOf (endRoutine (noteCount s b r) b r) r.req
      else setRun (noteCount s b r) b { next with buf := buf, phase := .commitDue (decide (k = 9)), again := decide (commit = 2) }
    else if k = 9 then
      finishHost (nextFree (endRoutine (noteCount s b r) b r)) r.req .ok (freeVal s 24)
    else
      let s1 := setRun s b { next with buf := buf }
      if decide (commit = 0) && abandonedBy s1 b r then abandon s1 b { r with buf := [] } else s1

/-- R121 to R134, R142: one word of routine `r`, executed in the present tick. -/
def execWord (s : State) (b : Fin 32) (r : Routine) (w : MicroWord) : State :=
  let tail := match r.phase with
    | .tail n => some n
    | _ => none
  let op := fld w 105 100
  let a := microSource r w (fld w 99 95)
  let bb := microSource r w (fld w 94 90)
  let open_ := decide (op = 0) && dataUsed w
  let data := if open_ then freeVal s 24 else aluResult op a bb r.c
  let cond := microCond s b r w
  let k := fld w 127 124
  let go := decide (k ≠ 8) || cond
  let effs := if go then wordEffects r w data else []
  let na := nextAddr r w cond
  match wordFault r w tail effs.length with
  | some cause => microFault s b r cause
  | none =>
    match wordViolation s b r w with
    | some (cause, wr) => microViolation s b r r.pc cause wr
    | none =>
      if k ≠ 9 ∧ k ≠ 0xA ∧ na < 0xC40 then microViolation s b r r.pc 0x8 false
      else
        let s0 := if open_ || decide (k = 6) then nextFree s else s
        let (s1, r1) := loadOp s0 b r (wordRegs s b r w data) w
        afterWord s1 b r { r1 with pc := na } w go effs

/-- R136: the watchdog of a routine has reached 257: it is ended and ROUTINE_WATCHDOG is raised. -/
def doRoutineWatchdog (b : Fin 32) (s : State) : State :=
  match s.blks[b].run with
  | none => s
  | some r =>
    if seqsOn s && decide (r.phase = .body) && decide (r.firstAt + 256 ≤ s.time.tick) then
      let s1 := noteCount (setReg s (.block b 0x08) (word (seqErr true 0x8 r.pc))) b r
      scopeFaultOf (endRoutine (report s1 0x1B (.block b) r.pc.toNat false) b r) r.req
    else s

/-- R144: the address a fetch reads: the target of a trap at that address. -/
def trapped (s : State) (b : Fin 32) (a : BitVec 12) : BitVec 12 :=
  match s.blks[b].traps.find? (fun p => decide (p.1 = a)) with
  | some p => p.2
  | none => a

/-- R18, R121: a word that loads from region RAM waits for its bank: it executes in the tick that grants the access. -/
def startLoad (s : State) (b : Fin 32) (r : Routine) (w : MicroWord) : State :=
  askBank (setRun s b { r with waits := true }) (regionOfBlock b) (memAddr r w) (Fin.ofNat 9 (b.val % 8)) none

/-- R121: a word that executes only once its bank grants it. -/
def loadsRegion (s : State) (b : Fin 32) (r : Routine) (w : MicroWord) : Bool :=
  decide (fld w 49 46 = 7) && decide (r.phase = .body) && (wordFault r w none 0).isNone && (wordViolation s b r w).isNone

/-- R121: MICROWORD. -/
def doMicroword (b : Fin 32) (s : State) : State :=
  match s.blks[b].run with
  | none => s
  | some r =>
    let runs := match r.phase with
      | .commitDue _ => false
      | _ => true
    if !(seqsOn s && runs && decide (r.readyAt ≤ s.time.tick) && !r.waits) then s
    else if decide (r.phase = .body) && decide (r.firstAt + 256 ≤ s.time.tick) then doRoutineWatchdog b s
    else
      let pc := trapped s b r.pc
      if eccBad s .controlStore b.val pc.toNat then report s 0x18 (.block b) pc.toNat false
      else
        let w := cstoreAt s b pc.toNat
        let r1 := { r with pc := pc }
        if loadsRegion s b r1 w then startLoad s b r1 w else execWord s b r1 w

/-- R132, R293: COMMIT: the buffer is applied; the host command of the request completes with U14. -/
def doCommit (b : Fin 32) (s : State) : State :=
  match s.blks[b].run with
  | none => s
  | some r =>
    match r.phase with
    | .commitDue ends =>
      if !(seqsOn s && decide (r.readyAt ≤ s.time.tick)) then s
      else
        let s1 := r.buf.foldl (applyEffect b) s
        let s2 := finishHost s1 r.req .ok r.u[(14 : Fin 16)]
        let r1 : Routine := { r with buf := [], phase := .tail 0, req := { r.req with host := none } }
        if ends then
          requeue (updBlk (endRoutine s2 b r1) b (fun k => { k with freeAt := r.readyAt })) b r1
        else
          updQueue (setRun s2 b r1) b r.src (fun l => r1.req :: l.drop 1)
    | _ => s

/-! ### Banks of region RAM -/

/-- R18: the bank of a region-RAM word (log entry 85). -/
def bankOf (q : BankReq) : Fin 8 := Fin.ofNat 8 q.word.val

/-- R18: a request that its requester still makes: a store, an access of the port, or the load of a routine that waits. -/
def stillAsks (s : State) (q : BankReq) : Bool :=
  q.store.isSome || decide (q.who = 8) ||
    (match s.blks[(Fin.ofNat 32 (8 * q.region.val + q.who.val) : Fin 32)].run with
     | some r => r.waits
     | none => false)

/-- R18: the request a bank grants: of the requesters that wait, the first in the round after the one served last, with its
oldest request. -/
def bankPick (l : List BankReq) (last : Fin 9) : Option BankReq :=
  ((List.range 9).map (fun i => Fin.ofNat 9 (last.val + 1 + i))).findSome? (fun w => l.find? (fun q => decide (q.who = w)))

/-- R18, R121: an access reaches its bank: a store changes the word from the next tick on, and a routine's load executes its
word. -/
def bankAccess (s : State) (q : BankReq) : State :=
  match q.store with
  | some v => clearEcc (setRramRaw s q.region q.word.val v) .regionRam q.region.val q.word.val
  | none =>
    let b : Fin 32 := Fin.ofNat 32 (8 * q.region.val + q.who.val)
    if q.who = 8 then s
    else
      match s.blks[b].run with
      | some r => execWord s b { r with waits := false } (cstoreAt s b r.pc.toNat)
      | none => s

/-- R48: RRAM_WAIT keeps the longest wait, at most 8 ticks, and BANK_BUSY of a bank counts the ticks in which a requester
waits. -/
def noteWait (s : State) (r : Fin 4) (k : Fin 8) (wait : Nat) (busy : Bool) : State :=
  let n := min 8 wait
  let s1 := if regFld s (.region r 0x02) 3 0 < n then
      setReg (noteFresh s (.region r 0x02) (fun a => if a.toNat < n then word n else a)) (.region r 0x02) (word n)
    else s
  if busy then bump s1 (.region r (0x28 + k.val)) 23 0 1 else s1

/-- R18: one bank serves one access of the present tick. -/
def serveBank (s : State) (r : Fin 4) (k : Fin 8) : State :=
  let l := s.agenda.banks.filter (fun q => decide (q.region = r ∧ bankOf q = k ∧ q.tick ≤ s.time.tick) &&
    (q.store.isSome || decide (q.who = 8) || seqsOn s))
  match bankPick l s.agenda.bankLast[(Fin.ofNat 32 (8 * r.val + k.val) : Fin 32)] with
  | none => s
  | some q =>
    let s1 := { s with agenda := { s.agenda with banks := s.agenda.banks.erase q,
                                                 bankLast := s.agenda.bankLast.set (Fin.ofNat 32 (8 * r.val + k.val)) q.who } }
    bankAccess (noteWait s1 r k (s.time.tick - q.tick) (decide (1 < l.length))) q

/-- R117: a routine whose load still waits is abandoned by a request of a higher level that has become visible. -/
def abandonWaiting (s : State) (b : Fin 32) : State :=
  match s.blks[b].run with
  | some r => if r.waits && abandonedBy s b r then abandon s b { r with buf := [], waits := false } else s
  | none => s

/-- R18: the banks of region RAM serve the accesses of the present tick. -/
def serveBanks (s : State) : State :=
  if s.agenda.banks.isEmpty then s
  else
    let s1 := { s with agenda := { s.agenda with banks := s.agenda.banks.filter (stillAsks s) } }
    let s2 := (List.finRange 4).foldl (fun z r => (List.finRange 8).foldl (fun y k => serveBank y r k) z) s1
    (List.finRange 32).foldl abandonWaiting s2

/-! ### Timer, lanes and parameters -/

/-- R113, R145: BLK_TIMER_EXPIRY: a period of the block timer ends and the next starts. -/
def doBlkTimer (b : Fin 32) (s : State) : State :=
  match s.blks[b].timerNext with
  | none => s
  | some t =>
    if !(seqsOn s && decide (t ≤ s.time.tick)) then s
    else
      let s1 := reload s (.block b 0x04) t
      let p := (work s1 (.block b 0x04)).toNat
      let n := s.blks[b].timerCount + 1
      let s2 := updBlk s1 b (fun k => { k with timerCount := n, timerNext := if p = 0 then none else some (t + p) })
      raiseRequest s2 b 18 n.toNat 0x2E t

/-- R119: a lane is outvoted: excluded from the vote and rebuilt over 2,048 ticks. -/
def startRebuild (s : State) (b : Fin 32) (lanes : Nat) : State :=
  if (s.blks[b].rebuildEnd).isSome then s
  else
    updBlk s b (fun k =>
      { k with voting := 7 &&& ~~~(BitVec.ofNat 3 lanes), rebuildEnd := some (s.time.tick + 2048),
               rebuildCnt := BitVec.ofNat 8 (satAdd 8 k.rebuildCnt.toNat 1) })

/-- R119, R318: LANE_REBUILD_DONE. -/
def doLaneRebuildDone (b : Fin 32) (s : State) : State :=
  match s.blks[b].rebuildEnd with
  | some t => if alive s && decide (t ≤ s.time.tick) then updBlk s b (fun k => { k with voting := 7, rebuildEnd := none })
    else s
  | none => s

/-- R143, R145: a write of SEQ_CTRL. -/
def writeSeqCtrl (s : State) (b : Fin 32) (v : Word) : State × Status :=
  let was := regBit s (.block b 0x00) 1
  let s1 := setReg s (.block b 0x00) (v &&& 3)
  let s2 := if bit v 0 then s1 else purgeRequests s1 b
  if bit v 1 && !was then
    let p := reg s2 (.block b 0x04)
    (updBlk (setWork s2 (.block b 0x04) p) b (fun k =>
      { k with timerNext := if p = 0 then none else some (s.time.tick + 1 + p.toNat) }), .ok)
  else if bit v 1 then (s2, .ok)
  else (updBlk s2 b (fun k => { k with timerNext := none }), .ok)

end Sys2Proof.Machine
end

