-- ==== Sys2Proof/Machine/Channels.lean ====
section
/-!
DEFINITION. Position channels (06_position_channels.md R169 to R197): decoding of the five input modes, count events,
position, speed, sensor faults, the compare at regular spacing, encoder emulation, enabling, and reads.
-/
namespace Sys2Proof.Machine

/-- CH_CTRL.EN. -/
def chanEn (s : State) (c : Fin 64) : Bool := regBit s (.chan c 0x00) 0

/-- CH_CFG.MODE (R169). -/
def chanMode (s : State) (c : Fin 64) : Nat := regFld s (.chan c 0x01) 2 0

/-- R193: an enabled channel counts in every mode in which line time runs. -/
def chanOn (s : State) (c : Fin 64) : Bool := alive s && chanEn s c

/-- R193: an enabled channel reads its sensor in a mode. -/
def chanMakes (s : State) (c : Fin 64) (mode : Nat) : Bool := chanOn s c && decide (chanMode s c = mode)

/-- R186, R192: an edge or a sample at pin time `t` counts: it lies after the tick in which counting starts. -/
def chanCounts (s : State) (c : Fin 64) (t : Time) : Bool :=
  match s.chans[c].base with
  | some b => after t b
  | none => true

/-- R8: flat cell 128 × region + `k` of a channel's region. -/
def chanCell (c : Fin 64) (k : Nat) : Fin 512 := Fin.ofNat 512 (128 * (regionOfChan c).val + k)

/-- R189: the target cell of the compare. -/
def cmpCell (s : State) (c : Fin 64) : Fin 512 := chanCell c (regFld s (.chan c 0x11) 6 0)

/-- R191: the cells that carry the emulated A and B. -/
def emuCell (s : State) (c : Fin 64) (b : Bool) : Fin 512 :=
  chanCell c (if b then regFld s (.chan c 0x16) 13 7 else regFld s (.chan c 0x16) 6 0)

/-- A flag of CH_STAT. -/
def chanFlag (s : State) (c : Fin 64) (i : Nat) : State := orReg s (.chan c 0x1A) (2 ^ i)

/-- R177: the ticks from the pin to the update tick through an input. -/
def chanLead (s : State) (c : Fin 64) (code : Nat) : Nat :=
  6 + (match xbar (regionOfChan c) code with
    | some x => pathDelay s x
    | none => 0)

/-- R170: the code of A, B or Z, by its place 0, 1 or 2. -/
def chanIn (s : State) (c : Fin 64) (k : Nat) : Nat := regFld s (.chan c 0x02) (8 * k + 7) (8 * k)

/-- R170: the channel has an input A, B or Z. -/
def chanHas (s : State) (c : Fin 64) (k : Nat) : Bool := (xbar (regionOfChan c) (chanIn s c k)).isSome

/-- R177, R179: the ticks from the pin time of an index event of Z to its update tick. -/
def indexLead (s : State) (c : Fin 64) : Nat := (if chanMode s c = 3 then 90 else 0) + chanLead s c (chanIn s c 2)

/-- R177, R194: the ticks from a pin time to the last update tick that an event of this pin time can have, in the modes that
know it. -/
def chanSpan (s : State) (c : Fin 64) : Nat :=
  let m := chanMode s c
  if m = 3 then max 96 (indexLead s c)
  else if m = 2 then chanLead s c (chanIn s c 0)
  else max (max (chanLead s c (chanIn s c 0)) (chanLead s c (chanIn s c 1))) (indexLead s c)

/-- R194: a record of a channel with timestamp `ts`, of update tick `tick`: it is committed when no record of an earlier
timestamp can follow, so that the records stay in order of timestamp (log entry 94). -/
def emitChan (s : State) (c : Fin 64) (tick typ : Nat) (ts : Time) (a b : Nat) : State :=
  let k := if chanMode s c = 4 then tick else max tick (absOf s ts + chanSpan s c)
  emitRegion s (regionOfChan c) (regFld s (.chan c 0x01) 23 20) k
    ⟨BitVec.ofNat 8 typ, BitVec.ofNat 16 c.val, ts, word a, word b⟩

/-! ### Speed -/

/-- R177: the entries of a channel's speed queue that show by the present tick, and those that do not yet. -/
def spdDue (s : State) (c : Fin 64) : List (Time × SpeedView) × List (Time × SpeedView) :=
  s.chans[c].spdQueue.partition (fun q => due s q.1)

/-- R177, R182, R183: SPEED and its flags as they read in the present tick. -/
def spdView (s : State) (c : Fin 64) : SpeedView :=
  let v := match (spdDue s c).1.getLast? with
    | some q => q.2
    | none => s.chans[c].spdShown
  if s.chans[c].stand.isSome then ⟨0, false, true, v.reversed⟩ else v

/-- R177: a new SPEED shows from line time `t` on. -/
def setSpd (s : State) (c : Fin 64) (v : SpeedView) (t : Time) : State :=
  let q := spdDue s c
  let shown := match q.1.getLast? with
    | some x => x.2
    | none => s.chans[c].spdShown
  updChan s c (fun x => { x with spd := v, spdShown := shown, spdQueue := q.2 ++ [(t, v)] })

/-- SPEED takes a value at once. -/
def nowSpd (s : State) (c : Fin 64) (v : SpeedView) : State :=
  updChan s c (fun x => { x with spd := v, spdShown := v, spdQueue := [] })

/-- R183, R186, R192: SPEED and SPEED_VALID read 0 and the reference is none. -/
def dropSpeed (s : State) (c : Fin 64) : State :=
  let v := s.chans[c].spd
  updChan (nowSpd s c ⟨0, false, v.standstill, v.reversed⟩) c (fun x => { x with speedRef := none })

/-- R182: the ticks of a second. -/
def ticksPerSec (s : State) : Int := if s.sys.core640 then 640000000 else 800000000

/-- R182, R184: the speed of a count event of amount `n` at instant `t`, shown 8 ticks after update tick `u`. -/
def countSpeed (s : State) (c : Fin 64) (n : Int) (t : T16) (u : Time) : State :=
  let x := s.chans[c]
  let acc := x.acc + n
  let s1 := updChan s c (fun y => { y with acc := acc, lastSign := n.sign })
  let show_ := fun (z : State) (v : SpeedView) => setSpd z c v (plus u 8)
  let refer := fun (z : State) => updChan z c (fun y => { y with speedRef := some (t, acc) })
  let motion := fun (z : State) (k : Nat) =>
    if regBit z (.chan c 0x01) 19 then
      emitChan z c (absOf z u) 0x42 (tickPart t) (k * 65536) (loWord x.pos).toNat
    else z
  match x.speedRef with
  | none =>
    let s2 := show_ (refer s1) ⟨0, false, false, x.spd.reversed⟩
    if x.spd.standstill then motion s2 2 else s2
  | some (rt, ra) =>
    if n.sign ≠ x.lastSign then
      let s2 := show_ (refer s1) ⟨0, false, x.spd.standstill, true⟩
      let s3 := chanFlag (bump s2 (.chan c 0x22) 23 0 1) c 8
      if x.spd.valid then motion s3 3 else s3
    else
      let dt := (t - rt).toNat
      if !x.spd.valid || decide (16 * regFld s (.chan c 0x0C) 19 0 ≤ dt) then
        let v := ((acc - ra) * ticksPerSec s * 16).tdiv dt
        let w := v.tdiv (2 ^ regFld s (.chan c 0x0C) 23 20 : Nat)
        let s2 := if w < -0x7FFFFF ∨ 0x7FFFFF < w then chanFlag s1 c 9 else s1
        show_ (refer s2) ⟨wordOfInt (max (-0x7FFFFF) (min 0x7FFFFF w)), true, x.spd.standstill, false⟩
      else s1

/-- R183: the standstill deadline. -/
def chanDeadline (s : State) (c : Fin 64) : Option Time :=
  match s.chans[c].lastCount with
  | none => none
  | some t =>
    let d := plus t ((reg s (.chan c 0x0D)).toNat * 1024)
    match s.chans[c].spdFloor with
    | some f => some (laterOf d f)
    | none => some d

/-- R183: a count event on its way with a pin time at or before `d`: it is motion. -/
def movesBy (s : State) (c : Fin 64) (d : Time) : Bool :=
  s.chans[c].flight.any (fun e => decide (e.amount ≠ 0) && !after (tickPart e.t) d)

/-- R183: CHANNEL_STANDSTILL: the deadline passes. Until no count event of a pin time at or before it can arrive, such a one
still takes the deadline's effect back. -/
def doChannelStandstill (c : Fin 64) (s : State) : State :=
  match chanDeadline s c with
  | none => s
  | some d =>
    let x := s.chans[c]
    if !(chanOn s c) || !due s d || movesBy s c d || x.spd.standstill || x.stand.isSome then s
    else updChan s c (fun y => { y with stand := some d })

/-- R183: count events of a pin time at or before `d` can still arrive. -/
def standOpen (s : State) (c : Fin 64) (d : Time) : Bool :=
  movesBy s c d ||
    (if chanMode s c = 4 then
      match s.chans[c].serLatch with
      | some l => !after (tickPart l) d
      | none => false
    else !due s (plus d (chanSpan s c)))

/-- R183: a standstill deadline that nothing can take back any more: the reference is none, and CH_MOTION is emitted. -/
def standEnds (c : Fin 64) (s : State) : State :=
  match s.chans[c].stand with
  | none => s
  | some d =>
    if standOpen s c d then s
    else
      let v := s.chans[c].spd
      let s1 := updChan (nowSpd s c ⟨0, false, true, v.reversed⟩) c (fun x =>
        { x with speedRef := none, stand := none,
                 lastPulse := x.lastPulse.filter (fun p => decide (chanMode s c ≠ 2) || after (tickPart p) d),
                 prevIval := none })
      if regBit s (.chan c 0x01) 19 then
        emitChan s1 c (absOf s d) 0x42 d 0x010000 (loWord s.chans[c].pos).toNat
      else s1

/-- R183: `standEnds` for every channel, at the start of a tick. -/
def chanStands (s : State) : State :=
  if s.chans.toList.any (fun x => x.stand.isSome) then (List.finRange 64).foldl (fun z c => standEnds c z) s else s

/-! ### Compare at regular spacing -/

/-- R187: a compare value is ahead of a position. -/
def cmpAhead (down : Bool) (v p : BitVec 48) : Bool :=
  let d := if down then p - v else v - p
  decide (1 ≤ d.toNat ∧ d.toNat ≤ 2 ^ 47 - 1)

/-- R187, R188: the whole steps that bring a behind value ahead. -/
def cmpSteps (down : Bool) (v p : BitVec 48) (step : Nat) : Nat :=
  (if down then v - p else p - v).toNat / step + 1

/-- A compare value moved by whole steps in its direction of travel. -/
def cmpMove (down : Bool) (v : BitVec 48) (n : Nat) : BitVec 48 :=
  if down then v - BitVec.ofNat 48 n else v + BitVec.ofNat 48 n

/-- R187: a compare is checked against the position, as after a write or a step. Its advance takes the step last written,
which need not have reached the working copy at a hit (log entry 95). -/
def checkCmp (s : State) (c : Fin 64) : State :=
  let x := s.chans[c]
  let down := regBit s (.chan c 0x11) 16
  let step := (reg s (.chan c 0x10)).toNat
  if !x.pcmpArmed || cmpAhead down x.pcmp x.pos then s
  else
    let s1 := chanFlag s c 11
    if regBit s (.chan c 0x11) 15 && decide (step ≠ 0) then
      let k := cmpSteps down x.pcmp x.pos step
      updChan (bump s1 (.chan c 0x13) 23 0 k) c (fun y => { y with pcmp := cmpMove down y.pcmp (k * step) })
    else s1

/-- R189: the pulse of a hit: instants of rise and fall, and whether it is late. -/
def hitPulse (s : State) (c : Fin 64) (hit : T16) (u : Time) : T16 × T16 × Bool :=
  let r := addTicks hit (regFld s (.chan c 0x12) 23 12)
  let least := mk16 (plus u 6) 0
  let late := after16 least r
  let rise := if late then least else r
  (rise, addTicks rise (regFld s (.chan c 0x12) 11 0), late)

/-- R84, R189: the compares of a cell take a channel's write. -/
def takesChannel (s : State) (k : Fin 512) : Bool := cellEn s k && decide (cellMode s k = 1)

/-- R189: a compare of the cell still holds an unfired value, or is about to take one. -/
def unfired (s : State) (k : Fin 512) : Bool :=
  s.cells[k].cmpA.armed || s.cells[k].cmpB.armed || s.agenda.late.any (fun l => match l.op with
    | .compare c _ _ _ _ _ arms => arms && decide (c = k)
    | _ => false)

/-- R17, R189, R191: a channel writes a compare of a cell through its update port. -/
def chanWrite (s : State) (k : Fin 512) (u : CmpUnit) (e : T16) : State :=
  addLate s 3 .supervisor (.compare k u (tickPart e) (fracPart e) none .channel true)

/-- R189: the actions of a hit in update tick `u`; answers LATE and MISS. -/
def hitActions (s : State) (c : Fin 64) (hit : T16) (u : Time) : State × Bool × Bool :=
  if !regBit s (.chan c 0x00) 1 then (s, false, false)
  else
    let k := cmpCell s c
    let (rise, fall, late) := hitPulse s c hit u
    let pulse := regBit s (.chan c 0x11) 13
    let busy := unfired s k
    let s1 := if pulse && busy then chanFlag s c 10
      else if pulse && takesChannel s k then chanWrite (chanWrite s k .a rise) k .b fall
      else s
    let s2 := if regBit s (.chan c 0x11) 12 then cellTrigger (wearKind s1 k 5) k (absOf s (tickPart rise)) else s1
    (s2, pulse && late && !busy, pulse && busy)

/-- R188: a count event from position `p0` hits the armed compare. -/
def cmpHits (s : State) (c : Fin 64) (n : Int) (p0 p1 : BitVec 48) : Bool :=
  let x := s.chans[c]
  let down := regBit s (.chan c 0x11) 16
  x.pcmpArmed && decide (n.sign = if down then -1 else 1) && cmpAhead down x.pcmp p0 && !cmpAhead down x.pcmp p1

/-- R188, R189, R194: a hit. -/
def hitCompare (s : State) (c : Fin 64) (hit : T16) (u : Time) (p1 : BitVec 48) : State :=
  let v := s.chans[c].pcmp
  let tick := absOf s u
  let down := regBit s (.chan c 0x11) 16
  let (s1, late, miss) := hitActions s c hit u
  let s2 := if lateAt s1 (.chan c 0x10) tick then chanFlag s1 c 6 else s1
  let s3 := reload s2 (.chan c 0x10) tick
  let step := (work s3 (.chan c 0x10)).toNat
  let next := cmpMove down v step
  let k := if cmpAhead down next p1 then 0 else cmpSteps down next p1 step
  let s4 := if step = 0 then updChan s3 c (fun y => { y with pcmpArmed := false })
    else updChan (bump s3 (.chan c 0x13) 23 0 k) c (fun y => { y with pcmp := cmpMove down next (k * step) })
  if regBit s (.chan c 0x01) 17 then
    emitChan s4 c tick 0x41 (tickPart hit) (loWord v).toNat
      (bitAt late 23 + bitAt miss 22 + (if step = 0 then 0 else min 0x3FFFFF k))
  else s4

/-! ### Encoder emulation -/

/-- R190: the output counts of a count event. -/
def emuCount (s : State) (c : Fin 64) (n : Int) (t : T16) (u : Time) : State :=
  if !regBit s (.chan c 0x00) 2 then s
  else
    let e := s.chans[c].eacc + n * ((reg s (.chan c 0x14)).toNat : Int)
    let den : Int := ((reg s (.chan c 0x15)).toNat : Int)
    let q := e.fdiv den
    updChan s c (fun x =>
      { x with eacc := e - q * den, emuQueue := x.emuQueue ++ List.replicate q.natAbs (addTicks t 12, u, decide (0 < q)) })

/-- R191: EMULATION_OUTPUT_COUNT: the next output count is placed on the cell it toggles. -/
def doEmuOutput (c : Fin 64) (s : State) : State :=
  let x := s.chans[c]
  match x.emuQueue with
  | [] => s
  | (t, u, up) :: rest =>
    let onB := if up then decide (x.emuA ≠ x.emuB) else decide (x.emuA = x.emuB)
    let k := emuCell s c onB
    if !(chanOn s c && regBit s (.chan c 0x00) 2) || unfired s k || !due s u then s
    else
      let least := mk16 (laterOf (plus u 6) (plus (now s) 3)) 0
      let t1 := if after16 least t then least else t
      let t2 := match x.emuLast with
        | some p => if after16 (addTicks p (regFld s (.chan c 0x16) 23 16)) t1 then addTicks p (regFld s (.chan c 0x16) 23 16)
          else t1
        | none => t1
      let s1 := if takesChannel s k then chanWrite s k .a t2 else s
      updChan s1 c (fun y =>
        { y with emuQueue := rest, emuLast := some t2, emuA := if onB then y.emuA else !y.emuA,
                 emuB := if onB then !y.emuB else y.emuB })

/-! ### Position -/

/-- R179, R180: the domains of a channel see a position step, and the compare is checked again. -/
def afterStep (s : State) (c : Fin 64) (t u : Time) : State :=
  let s1 := (domsOfChan s c).foldl (fun z d => channelStep z d z.chans[c].pos t (plus u 12)) s
  checkCmp s1 c

/-- R180: a position step. -/
def posStep (s : State) (c : Fin 64) (p : BitVec 48) (t u : Time) : State :=
  afterStep (chanFlag (updChan s c (fun x => { x with pos := p })) c 12) c t u

/-- R179: what an index event at instant `t` and update tick `u` does. Count events later than it that were taken first
stay outside the latched position and add to the reset. -/
def indexApply (s : State) (c : Fin 64) (t : T16) (u : Time) : State :=
  let x := s.chans[c]
  let later : Int := (x.recent.filter (fun r => after16 r.1 t)).foldl (fun a r => a + r.2) 0
  let p := x.pos - BitVec.ofInt 48 later
  let s1 := updChan s c (fun y => { y with idxPos := p, idxT := tickPart t })
  let s2 := if regBit s (.chan c 0x01) 16 then
      emitChan s1 c (absOf s u) 0x40 (tickPart t) (loWord p).toNat (hiWord p).toNat
    else s1
  let mode := regFld s (.chan c 0x03) 5 4
  let resets := !x.fault && (decide (mode = 1) || (decide (mode = 2) && regBit s (.chan c 0x00) 3))
  if !resets then s2
  else
    let v := mkTime (reg s (.chan c 0x05)) (reg s (.chan c 0x04)) + BitVec.ofInt 48 later
    let s3 := updChan (if mode = 2 then clrReg s2 (.chan c 0x00) 8 else s2) c (fun y => { y with posValid := true })
    if v = x.pos then s3 else posStep s3 c v (tickPart t) u

/-- R185, R186: a checked item takes effect in update tick `u`, with the cause it has where it is bad: its flags, its count,
and the sensor fault that it completes. -/
def checkItem (s : State) (c : Fin 64) (bad : Option Nat) (track : Bool) (t : T16) (u : Time) : State :=
  let n := regFld s (.chan c 0x0A) 7 4
  let items := (bad.isSome :: s.chans[c].items).take n
  let count := (items.filter (fun b => b)).length
  let s1 := updChan (if track then chanFlag s c 14 else s) c (fun x => { x with items := items })
  match bad with
  | none => s1
  | some cause =>
    let s2 := bump (if cause = 1 then chanFlag (updChan s1 c (fun x => { x with posValid := false })) c 15
      else if cause = 4 then chanFlag s1 c 13 else s1) (.chan c 0x21) 23 12 1
    if s.chans[c].fault || decide (count < regFld s (.chan c 0x0A) 3 0) then s2
    else
      let s4 := dropSpeed (bump s2 (.chan c 0x21) 11 0 1) c
      let s5 := updChan s4 c (fun x => { x with fault := true, posValid := false })
      let s6 := if regBit s (.chan c 0x01) 18 then
          emitChan s5 c (absOf s u) 0x43 (tickPart t) (cause * 65536 + count) (loWord s5.chans[c].pos).toNat
        else s5
      (domsOfChan s6 c).foldl sourceFault s6

/-- R177 to R190: a count event takes effect; in sensor fault none is made (R186). -/
def countMoves (s : State) (c : Fin 64) (e : CountEvt) : State :=
  let p0 := s.chans[c].pos
  let p1 := p0 + BitVec.ofInt 48 e.amount
  if e.amount = 0 ∨ s.chans[c].fault then s
  else
    let a := updChan s c (fun x =>
      { x with pos := p1, posT := tickPart e.t, lastCount := some (tickPart e.t), spdFloor := none,
               recent := (e.t, e.amount) :: x.recent.filter (fun r => decide ((e.t - r.1).toNat < 16 * 128)) })
    let b := countSpeed a c e.amount e.t e.upd
    let d := if cmpHits b c e.amount p0 p1 then hitCompare b c e.t e.upd p1 else b
    let f := emuCount d c e.amount e.t e.upd
    (domsOfChan f c).foldl (fun z k => channelAngle z k p1 (tickPart e.t) (plus e.upd 12)) f

/-- R177: what is on its way takes effect: the item, the count, the index event. -/
def applyCount (s : State) (c : Fin 64) (e : CountEvt) : State :=
  let s0 := match e.item with
    | some bad => checkItem s c bad e.track e.t e.upd
    | none => s
  let s1 := countMoves s0 c e
  if e.index then indexApply s1 c e.t e.upd else s1

/-- Count events in order of update tick, then of pin time (R177). -/
def insertCount (l : List CountEvt) (e : CountEvt) : List CountEvt :=
  match l with
  | [] => [e]
  | f :: t => if after f.upd e.upd || (decide (f.upd = e.upd) && after16 f.t e.t) then e :: f :: t else f :: insertCount t e

/-- R169, R185: a count event of amount `n`, with DIR_INV, or a checked item is on its way. A count whose pin time lies at or
before a standstill deadline that has passed takes the deadline's effect back (R183). -/
def sendCount (s : State) (c : Fin 64) (n : Int) (t : T16) (u : Time) (index : Bool) (item : Option (Option Nat))
    (track : Bool) : State :=
  let m := if regBit s (.chan c 0x01) 3 then -n else n
  updChan s c (fun x =>
    { x with flight := insertCount x.flight ⟨m, t, u, index, item, track⟩,
             stand := x.stand.filter (fun d => decide (m = 0) || x.fault || after (tickPart t) d) })

/-- R169: a count event is made. -/
def makeCount (s : State) (c : Fin 64) (n : Int) (t : T16) (u : Time) (index : Bool) : State :=
  sendCount s c n t u index none false

/-- The count events on their way that satisfy `p` take effect, in order. -/
def flushCounts (s : State) (c : Fin 64) (p : CountEvt → Bool) : State :=
  (s.chans[c].flight.filter p).foldl (fun z e => applyCount z c e)
    (updChan s c (fun x => { x with flight := x.flight.filter (fun e => !p e) }))

/-- R177: COUNT_EVENT. -/
def doCountEvent (c : Fin 64) (s : State) : State :=
  match s.chans[c].flight with
  | [] => s
  | e :: rest =>
    if chanOn s c && due s e.upd then applyCount (updChan s c (fun x => { x with flight := rest })) c e else s

/-! ### The input modes -/

/-- R171: the place of an A/B state in the counting order 00, 10, 11, 01. -/
def quadPlace (ab : BitVec 2) : Nat := if ab = 0 then 0 else if ab = 2 then 1 else if ab = 3 then 2 else 3

/-- R171: QUAD_EDGE. An input that is not connected reads 0 (R170). -/
def doQuadEdge (c : Fin 64) (ab : BitVec 2) (t : T16) (s : State) : State :=
  if !(chanMakes s c 0 && due s (tickPart t)) then s
  else
    let new := ab &&& BitVec.ofNat 2 (bitAt (chanHas s c 0) 1 + bitAt (chanHas s c 1) 0)
    let old := s.chans[c].ab
    let d := (quadPlace new + 4 - quadPlace old) % 4
    let s1 := updChan s c (fun x =>
      { x with ab := new, abLog := (t, old) :: x.abLog.filter (fun r => decide ((t - r.1).toNat < 16 * 128)) })
    let u := plus (tickPart t) (chanLead s c (chanIn s c (if bit new 1 ≠ bit old 1 then 0 else 1)))
    if d = 0 ∨ chanCounts s c (tickPart t) = false then s1
    else if d = 2 then sendCount s1 c 0 t u false (some (some 1)) false
    else sendCount s1 c (if d = 1 then 1 else -1) t u false (some none) false

/-- R172: STEP_EDGE. -/
def doStepEdge (c : Fin 64) (dir : Bool) (t : T16) (s : State) : State :=
  if chanMakes s c 1 && chanHas s c 0 && due s (tickPart t) && chanCounts s c (tickPart t) then
    makeCount s c (if dir && chanHas s c 1 then 1 else -1) t (plus (tickPart t) (chanLead s c (chanIn s c 0))) false
  else s

/-- R173: an interval against the window around `k` intervals `p` of `g` sixteenths. -/
def refWindow (iv p lo hi : Nat) : Bool := decide (lo * p ≤ 16 * iv ∧ 16 * iv ≤ hi * p)

/-- R173, R183: an edge after a standstill deadline has no interval from before it. -/
def sinceStand (x : Channel) (t : T16) : Channel :=
  match x.stand with
  | some d => if after (tickPart t) d && !(x.lastPulse.any (fun p => after (tickPart p) d)) then
      { x with lastPulse := none, prevIval := none } else x
  | none => x

/-- R173: PULSE_REF_EDGE. -/
def doPulseRefEdge (c : Fin 64) (t : T16) (s : State) : State :=
  if !(chanMakes s c 2 && chanHas s c 0 && due s (tickPart t) && chanCounts s c (tickPart t)) then s
  else
    let x := sinceStand s.chans[c] t
    let v := reg s (.chan c 0x06)
    let g := fld v 11 10
    let tol := fld v 5 3
    let pos := fld v 9 6
    let iv := match x.lastPulse with
      | some p => some (t - p).toNat
      | none => none
    let u := plus (tickPart t) (chanLead s c (chanIn s c 0))
    let within := fun (lo hi : Nat) => match iv, x.prevIval with
      | some i, some p => refWindow i p lo hi
      | _, _ => false
    let count := fun (n : Int) (index : Bool) =>
      makeCount (updChan s c (fun y => { y with lastPulse := some t, prevIval := iv })) c n t u index
    if fld v 13 12 = 1 then
      (if within ((g + 1) * (16 - tol)) ((g + 1) * (16 + tol)) then count (g + 1) true else count 1 false)
    else if fld v 13 12 = 2 then
      (if within (pos - tol) (pos + tol) then makeCount s c 0 t u true else count 1 false)
    else count 1 false

/-- R174: a difference of two counts of a signal period, wrapped. -/
def wrapBits (d : Int) (bits : Nat) : Int := (d + 2 ^ (bits - 1)) % 2 ^ bits - 2 ^ (bits - 1)

/-- R174: floor of 2^`n` times the angle of the vector (`x`, `y`) in turns: each bit says whether the vector lies in the lower
half turn, and squaring the vector doubles its angle. -/
def turnBits (n : Nat) (x y : Int) : Nat :=
  match n with
  | 0 => 0
  | k + 1 => (if y < 0 ∨ (y = 0 ∧ x < 0) then 2 ^ k else 0) + turnBits k (x * x - y * y) (2 * x * y)

/-- R174: the count of a sample's corrected sine and cosine, within one count of the arctangent (log entry 19). -/
def sincosCount (sn cs : Int) (n : Nat) : Int :=
  if sn = 0 ∧ cs = 0 then ((Config.sincosOrigin n % 2 ^ n : Nat) : Int)
  else (((turnBits n cs sn + bitAt (Config.sincosUp sn cs n) 0) % 2 ^ n : Nat) : Int)

/-- R223: the sample instant `t` is one of a pair's instants that has not been taken: a multiple of 80 after the channel was
enabled. -/
def sincosInstant (s : State) (c : Fin 64) (t : Time) : Bool :=
  decide (t.toNat % 80 = 0) && chanCounts s c t &&
    (match s.chans[c].lastPulse with
     | some p => after t (tickPart p)
     | none => true)

/-- R174, R175, R220, R223: SINCOS_SAMPLE: the pair's results go to the converters and to the channel. Conversions stop in
POWER-FAIL (R229). -/
def doSincosSample (c : Fin 64) (a b : BitVec 14) (t : Time) (s : State) : State :=
  if !(chanMakes s c 3 && adcOn s && due s (plus t 72) && sincosInstant s c t) then s
  else
    let pair := regFld s (.chan c 0x07) 9 8
    let ad := fun (k : Nat) => (Fin.ofNat 32 (8 * (regionOfChan c).val + 2 * pair + k) : Fin 32)
    let inp := fun (k : Fin 32) => (regionOfAdc k).val * 24 + regFld s (.adc k 0x0) 4 0
    let s1 := deliverResult s (ad 0) t (resultWord false false (inp (ad 0)) a.toNat)
    let s2 := deliverResult s1 (ad 1) t (resultWord false false (inp (ad 1)) b.toNat)
    let s3 := if lateAt s2 (.chan c 0x08) s.time.tick then chanFlag s2 c 6 else s2
    let s4 := reload s3 (.chan c 0x08) s.time.tick
    let o := work s4 (.chan c 0x08)
    let sn : Int := (a.toNat : Int) - 8192 - (o.extractLsb' 12 12).toInt
    let cs : Int := (b.toNat : Int) - 8192 - (o.extractLsb' 0 12).toInt
    let interp := regFld s (.chan c 0x07) 3 0
    let phi := sincosCount sn cs interp
    let sq := (sn * sn + cs * cs).toNat
    let lo := 2 * regFld s (.chan c 0x09) 11 0
    let hi := 2 * regFld s (.chan c 0x09) 23 12
    let at_ := mk16 t 0
    let s5 := updChan s4 c (fun x => { x with raw := word (Nat.sqrt sq % 2 ^ 14), lastPulse := some at_ })
    let d : Int := match s.chans[c].phiPrev with
      | some p => wrapBits (phi - p) interp
      | none => 0
    let track := decide (2 ^ (interp - 2) < d.natAbs)
    let bad := if sq < lo * lo ∨ hi * hi < sq then some 2 else if track then some 3 else none
    sendCount (if bad = none then updChan s5 c (fun x => { x with phiPrev := some phi }) else s5) c
      (if bad = none then d else 0) at_ (plus t 96) false (some bad) track

/-- R176: Gray code to binary. -/
def gray47 (v : BitVec 47) : BitVec 47 := (List.range 47).foldl (fun a i => a ^^^ (v >>> i)) 0

/-- R176: a reading of SERIAL mode, taken in the present tick. -/
def serialTake (s : State) (c : Fin 64) (w0 w1 : Word) : State :=
  let open_ := decide (s.chans[c].serLatch = none)
  let at_ : T16 := match s.chans[c].serLatch with
    | some l => l
    | none => freeVal s 52
  let bits := regFld s (.chan c 0x0B) 13 8
  let raw : BitVec 47 := (w1.extractLsb' 0 23) ++ w0
  let low : BitVec 47 := raw &&& BitVec.ofNat 47 (2 ^ bits - 1)
  let v := if regBit s (.chan c 0x0B) 14 then gray47 low else low
  let err := bit w1 23
  let s0 := updChan (if open_ then nextFree s else s) c (fun x =>
    { x with serWord0 := none, serLatch := none, raw := w0 })
  let u := plus (now s) 1
  match s.chans[c].serPrev with
  | none =>
    if err then s0
    else
      let s1 := updChan s0 c (fun x => { x with serPrev := some v, pos := v.setWidth 48, posValid := true })
      (domsOfChan s1 c).foldl (fun z d => channelStep z d z.chans[c].pos (tickPart at_) (plus u 12)) s1
  | some p =>
    let d := wrapBits ((v.toNat : Int) - (p.toNat : Int)) bits
    if err || decide (2 ^ regFld s (.chan c 0x0B) 23 19 < d.natAbs) then
      sendCount s0 c 0 at_ u false (some (some 4)) false
    else sendCount (updChan s0 c (fun x => { x with serPrev := some v })) c d at_ u false (some none) false

/-- R176, R199: SERIAL_READING: the channel takes words of its engine's receive FIFO. -/
def doSerialReading (c : Fin 64) (s : State) : State :=
  let p : Fin 32 := Fin.ofNat 32 (8 * (regionOfChan c).val + regFld s (.chan c 0x0B) 2 0)
  if !(chanOn s c && decide (chanMode s c = 4)) then s
  else
    let here := s.pes[p].rx.takeWhile (fun q => decide (q.1 < s.time.tick))
    let took := fun (n : Nat) => updPe s p (fun e => { e with rx := e.rx.drop n })
    match s.chans[c].serWord0, here with
    | some w0, w1 :: _ => serialTake (took 1) c w0 w1.2
    | none, w0 :: w1 :: _ => serialTake (took 2) c w0.2 w1.2
    | none, [w0] => updChan (took 1) c (fun x => { x with serWord0 := some w0.2 })
    | _, [] => s

/-- R179: the A/B state at a pin time: the one before the first later change. -/
def abAt (x : Channel) (t : T16) : BitVec 2 :=
  match (x.abLog.filter (fun r => after16 r.1 t)).getLast? with
  | some r => r.2
  | none => x.ab

/-- R179: Z has an edge of the direction that Z_POL does not select at pin time `t`. -/
def otherZ (s : State) (c : Fin 64) (t : T16) : Bool :=
  s.chans[c].zLog.any (fun r => decide (r.1 = t) && (r.2 == regBit s (.chan c 0x03) 3))

/-- R179: INDEX_EVENT: the edge of Z at pin time `t`, in its update tick; Z_POL selects its direction, and in QUAD mode Z_QUAL
the A/B state. An edge that no INPUT_EDGE row brought has the direction selected (log entry 101). -/
def doIndexEvent (c : Fin 64) (t : T16) (s : State) : State :=
  let mode := chanMode s c
  let q := regFld s (.chan c 0x03) 2 0
  let u := plus (tickPart t) (indexLead s c)
  let qualified := decide (mode ≠ 0 ∨ q < 4) || decide ((abAt s.chans[c] t).toNat = q - 4)
  if chanOn s c && decide (mode = 0 ∨ mode = 1 ∨ mode = 3) && chanHas s c 2 && !otherZ s c t &&
      qualified && due s u && chanCounts s c (tickPart t) then
    indexApply (flushCounts s c (fun e => !after16 e.t t)) c t u
  else s

/-! ### Enabling -/

/-- R192: a cell enabled in COMPARE mode with the given actions; 0 asks for none of B. -/
def cellReadyFor (s : State) (k : Fin 512) (a b : Nat) : Bool :=
  takesChannel s k && decide (regFld s (.cell k 0x01) 5 4 = a) && (decide (b = 0) || decide (regFld s (.cell k 0x01) 7 6 = b))

/-- The cells a channel's compare and emulation name, with the given enables. -/
def namedCells (s : State) (c : Fin 64) (cmp emu : Bool) : List (Fin 512) :=
  (if cmp then [cmpCell s c] else []) ++ (if emu then [emuCell s c false, emuCell s c true] else [])

/-- R192: the checks of enabling a channel, its compare or its emulation. -/
def chanCheck (s : State) (c : Fin 64) (cmp emu : Bool) : Status :=
  let others := (List.finRange 64).filter (fun k => decide (k ≠ c) && chanEn s k)
  let r := regionOfChan c
  let used := others.flatMap (fun k => namedCells s k (regBit s (.chan k 0x00) 1) (regBit s (.chan k 0x00) 2))
  if (cmp && !cellReadyFor s (cmpCell s c) 1 2) ||
      (emu && !(cellReadyFor s (emuCell s c false) 3 0 && cellReadyFor s (emuCell s c true) 3 0)) then .targetMode
  else if others.any (fun k => decide (regionOfChan k = r) && decide (chanMode s k = chanMode s c) &&
        ((decide (chanMode s c = 3) && decide (regFld s (.chan k 0x07) 9 8 = regFld s (.chan c 0x07) 9 8)) ||
          (decide (chanMode s c = 4) && decide (regFld s (.chan k 0x0B) 2 0 = regFld s (.chan c 0x0B) 2 0)))) ||
      (namedCells s c cmp emu).any (fun k => used.contains k) ||
      (cmp && emu && (namedCells s c false true).contains (cmpCell s c)) then .conflict
  else .ok

/-- R9, R192: what enabling starts, at the end of the tick of its write: counting starts with the next tick, whose A/B state is
the base in QUAD mode. -/
def chanEnable (s : State) (c : Fin 64) : State :=
  let r := regionOfChan c
  let ab := BitVec.ofNat 2 (bitAt (xbarLevel s r (chanIn s c 0)) 1 + bitAt (xbarLevel s r (chanIn s c 1)) 0)
  updChan (dropSpeed s c) c (fun x =>
    { x with ab := ab, abLog := [], base := some (if chanMode s c = 0 then plus (now s) 1 else now s), flight := [],
             recent := [], acc := 0, lastCount := none, spdFloor := none, stand := none, items := [], lastPulse := none,
             prevIval := none, phiPrev := none, serPrev := none, serWord0 := none, serLatch := none })

/-- R223: the pair of a SINCOS channel was sampling: its converters are busy to the end of the last conversion. -/
def pairBusy (s : State) (c : Fin 64) : State :=
  let last := (now s).toNat - (now s).toNat % 80
  if decide (chanMode s c = 3) && chanCounts s c (BitVec.ofNat 48 last) then
    let pair := regFld s (.chan c 0x07) 9 8
    [0, 1].foldl (fun z k =>
      updAdc z (Fin.ofNat 32 (8 * (regionOfChan c).val + 2 * pair + k)) (fun v =>
        { v with freeAt := max v.freeAt (absOf s (BitVec.ofNat 48 last) + 80) })) s
  else s

/-- R192: what disabling ends, at the end of the tick of its write. -/
def chanDisable (s : State) (c : Fin 64) : State :=
  let s0 := flushCounts (pairBusy s c) c (fun e => due s e.upd)
  let s1 := updChan (dropSpeed s0 c) c (fun x => { x with flight := [], lastCount := none, stand := none })
  (domsOfChan s1 c).foldl sourceFault s1

/-- R191: EMU_EN set: the accumulator starts at 0 and both output latches go to 0 in the next tick. -/
def emuStart (s : State) (c : Fin 64) : State :=
  let clr := fun (z : State) (k : Fin 512) =>
    if takesChannel z k then routineLatch z k .clear else z
  clr (clr (updChan s c (fun x => { x with eacc := 0, emuQueue := [], emuLast := none, emuA := false, emuB := false }))
    (emuCell s c false)) (emuCell s c true)

/-- R186: CLR_FAULT in the present tick: counting restarts from the next good item after it, so what is on its way and what
has a pin time up to now is motion during the fault. -/
def clearFault (s : State) (c : Fin 64) : State :=
  updChan s c (fun x =>
    if x.fault then
      { x with fault := false, items := [], phiPrev := none, serPrev := none, serWord0 := none, flight := [],
               base := some (now s) }
    else { x with items := [] })

/-- R186, R191, R192, R196: a write of CH_CTRL. -/
def writeChCtrl (s : State) (c : Fin 64) (v : Word) : State × Status :=
  let old := reg s (.chan c 0x00)
  let start := bit v 0 && !bit old 0
  let whole := if start then chanCheck s c (bit v 1) (bit v 2) else .ok
  if whole ≠ .ok then (s, whole)
  else
    let live := bit v 0 && bit old 0
    let stC := if live && bit v 1 && !bit old 1 then chanCheck s c true (bit old 2 && bit v 2) else .ok
    let cmp := bit v 1 && decide (stC = .ok)
    let stE := if live && bit v 2 && !bit old 2 then chanCheck s c cmp true else .ok
    let emu := bit v 2 && decide (stE = .ok)
    let s1 := setReg s (.chan c 0x00) (word (bitAt (bit v 0) 0 + bitAt cmp 1 + bitAt emu 2 + bitAt (bit v 3) 3))
    let s2 := if start then chanEnable s1 c else if bit old 0 && !bit v 0 then chanDisable s1 c else s1
    let s3 := if emu && !bit old 2 then emuStart s2 c else s2
    let s4 := if bit v 4 then clearFault s3 c else s3
    (s4, if stC ≠ .ok then stC else stE)

/-- R178: a write of POS_HI commits the pair. -/
def writePosHi (s : State) (c : Fin 64) (low v : Word) : State × Status :=
  let s1 := flushCounts s c (fun e => due s e.upd)
  let p : BitVec 48 := mkTime v low
  (posStep (updChan s1 c (fun x => { x with posValid := !x.fault, recent := [] })) c p (plus (now s) 1) (plus (now s) 1), .ok)

/-- R187: a write of PCMP_HI commits the pair and arms the compare. -/
def writePcmpHi (s : State) (c : Fin 64) (low v : Word) : State × Status :=
  let s1 := flushCounts s c (fun e => due s e.upd)
  let p : BitVec 48 := mkTime v low
  (checkCmp (updChan s1 c (fun x => { x with pcmp := p, pcmpArmed := true })) c, .ok)

/-- R183: a write of SPD_TIMEOUT; a deadline it moves passes in the next tick at the earliest. -/
def writeSpdTimeout (s : State) (c : Fin 64) (v : Word) : State × Status :=
  if v = 0 then (s, .addrInvalid)
  else (updChan (setReg s (.chan c 0x0D) v) c (fun x => { x with spdFloor := some (plus (now s) 1) }), .ok)

/-! ### Reads -/

/-- R197: CH_STAT as a read shows it. -/
def chanStatus (s : State) (c : Fin 64) : Word :=
  let x := s.chans[c]
  let v := spdView s c
  word (bitAt x.posValid 23 + bitAt v.valid 22 + bitAt v.reversed 21 + bitAt v.standstill 20 +
    bitAt (decide (x.lastSign < 0)) 19 + bitAt x.fault 18 + bitAt x.pcmpArmed 17) ||| (reg s (.chan c 0x1A) &&& 0x00FF40)

/-- R195: CH_RAW; modes other than SINCOS and SERIAL read 0. -/
def chanRaw (s : State) (c : Fin 64) : Word := if 3 ≤ chanMode s c then s.chans[c].raw else 0

/-- R181: a read of POS_LO. -/
def readPosLo (s : State) (who : Requester) (c : Fin 64) : Word × State :=
  let x := s.chans[c]
  let cap := fun (z : State) (o : Nat) (v : Word) => setCap z who (.chan c o) v
  (loWord x.pos, cap (cap (cap (cap (cap s 0x18 (hiWord x.pos)) 0x19 (spdView s c).speed) 0x1A (chanStatus s c)) 0x1B
    (loWord x.posT)) 0x1C (hiWord x.posT))

/-- R181: a read of IDX_LATCH_LO. -/
def readIdxLo (s : State) (who : Requester) (c : Fin 64) : Word × State :=
  let x := s.chans[c]
  let cap := fun (z : State) (o : Nat) (v : Word) => setCap z who (.chan c o) v
  (loWord x.idxPos, cap (cap (cap s 0x1E (hiWord x.idxPos)) 0x1F (loWord x.idxT)) 0x20 (hiWord x.idxT))

end Sys2Proof.Machine
end

