-- ==== Sys2Proof/Machine/Electrum.lean ====
section
/-!
DEFINITION. The Electrum link (09_electrum_link.md R244 to R270): frames, ports, line time across the ring, master and
backup, published domains, fault broadcast, mailbox, records. Readings of its rules are in the assumption log.
-/
namespace Sys2Proof.Machine

/-! ### Frames -/

/-- R247: a field of `n` bytes at byte `o`, most significant byte first. -/
def beAt (bs : List Byte) (o n : Nat) : Nat := ((bs.drop o).take n).foldl (fun a b => a * 256 + b.toNat) 0

/-- R247: `n` bytes of a number, most significant byte first. -/
def beBytes (n v : Nat) : List Byte := (List.range n).map (fun i => BitVec.ofNat 8 (v / 256 ^ (n - 1 - i)))

/-- A frame with the field of `n` bytes at byte `o` replaced. -/
def bePut (bs : List Byte) (o n v : Nat) : List Byte := bs.take o ++ beBytes n v ++ bs.drop (o + n)

/-- One bit of CRC-32C. -/
def crcBit (c : BitVec 32) : BitVec 32 := if c.getLsbD 0 then (c >>> 1) ^^^ 0x82F63B78#32 else c >>> 1

/-- One byte of CRC-32C. -/
def crcByte (c : BitVec 32) (b : Byte) : BitVec 32 := Nat.repeat crcBit 8 (c ^^^ b.setWidth 32)

/-- R247: CRC-32C. PRESUMED: its usual bit order, start and final complement (log entry 26). -/
def crc32c (bs : List Byte) : BitVec 32 := ~~~(bs.foldl crcByte 0xFFFFFFFF#32)

/-- R247: the CRC over bytes 2 to 245. -/
def frameCrc (bs : List Byte) : BitVec 32 := crc32c ((bs.drop 2).take 244)

/-- R248: a bit of CTRL. -/
def ctrlBit (bs : List Byte) (i : Nat) : Bool := (beAt bs 2 2).testBit i

/-- R248: a field of CTRL. -/
def ctrlFld (bs : List Byte) (hi lo : Nat) : Nat := (beAt bs 2 2 >>> lo) % 2 ^ (hi - lo + 1)

/-- R247: FRAME_NO. -/
def frameNoOf (bs : List Byte) : Nat := beAt bs 4 5

/-- R246: the instant *F* = 800 × *n*, as a pin-referred instant. -/
def frameF (n : Nat) : T16 := BitVec.ofNat 52 (12800 * n)

/-- R247: slot *k* of a frame. -/
def slotAt (bs : List Byte) (k : Nat) : BitVec 80 := BitVec.ofNat 80 (beAt bs (22 + 10 * k) 10)

/-- R247: mailbox slot *m* of a frame. -/
def mbxAt (bs : List Byte) (m : Nat) : BitVec 64 := BitVec.ofNat 64 (beAt bs (182 + 8 * m) 8)

/-- A frame with bit `i` of the field of `n` bytes at `o` set. -/
def setFrameBit (bs : List Byte) (o n i : Nat) (b : Bool) : List Byte :=
  if b then bePut bs o n (beAt bs o n ||| 2 ^ i) else bs

/-! ### Configuration and updates -/

/-- The link after a change of it. -/
def updElc (s : State) (f : Electrum → Electrum) : State := { s with elc := f s.elc }

/-- The number of a port. -/
def portIx (p : Port) : Fin 2 := match p with
  | .a => 0
  | .b => 1

/-- The other port. -/
def otherPort (p : Port) : Port := match p with
  | .a => .b
  | .b => .a

/-- A port after a change of it. -/
def updPort (s : State) (p : Port) (f : ElcPort → ElcPort) : State :=
  updElc s (fun e => { e with ports := e.ports.set (portIx p) (f (e.ports[portIx p])) })

/-- R328, R269: the link works: its mode allows it and ELC_CTRL.EN = 1. -/
def elcOn (s : State) : Bool := alive s && decide (s.sys.mode ≠ .powerFail) && regBit s (.link 0x00) 0

/-- R260: this node's number. -/
def nodeId (s : State) : BitVec 5 := (reg s (.link 0x01)).setWidth 5

/-- R261: the node is a candidate. -/
def isCandidate (s : State) : Bool := regBit s (.link 0x01) 5

/-- R257, R269: ELC_OFFSET. -/
def elcOffset (s : State) : Word := wordOfInt (max (-0x800000) (min 0x7FFFFF s.elc.theta))

/-- R268: an ELC_LINK record of an event in the tick of line time `t`. -/
def linkRecord (s : State) (t : Time) (ev : Nat) (p : Port) (who : Nat) (b : Word) : State :=
  if regBit s (.link 0x01) 19 then
    emitAt s (regFld s (.link 0x01) 23 20) (absOf s t) 20
      ⟨0x60, (nodeId s).setWidth 16, t, word (ev * 2 ^ 16 + bitAt (decide (p = .b)) 8 + who % 32), b⟩
  else s

/-- R268: an ELC_LINK record that names a port's neighbour. -/
def portRecord (s : State) (t : Time) (ev : Nat) (p : Port) : State :=
  linkRecord s t ev p (portOf s p).neighbour.toNat (elcOffset s)

/-- R263: a port goes DOWN: the count, the record, and ELC_BREAK where it leaves UP. -/
def portDown (s : State) (p : Port) (t : Time) : State :=
  let up := portUp s p
  let nb := (portOf s p).neighbour.toNat
  let s1 := portRecord s t 0x02 p
  let s2 := dutyAdd (if p = .a then bump s1 (.link 0x0B) 23 16 1 else bump s1 (.link 0x0B) 15 8 1) 40 1
  let s3 := updPort s2 p (fun x =>
    { x with st := .down, locked := false, validRun := 0, crcRun := [], missRun := 0, m := none, rev := none })
  if up then report s3 0x07 .chip (bitAt (decide (p = .b)) 8 + nb) false else s3

/-- R261, R262: the node follows another master. -/
def masterChange (s : State) (t : Time) (p : Port) (m : BitVec 5) : State :=
  linkRecord (bump s (.link 0x0B) 7 0 1) t 0x05 p m.toNat (elcOffset s)

/-- R252, R267: a publisher's conflict. -/
def pubConflict (s : State) (t : Time) (p : Port) : State := portRecord (orReg s (.link 0x03) 0x4000) t 0x0B p

/-! ### Published domains -/

/-- R249: the slot image of a local domain as its leaves hold it, without ALIGNED. -/
def slotImage (s : State) (d : Fin 16) : BitVec 80 :=
  let x := s.doms[d]
  BitVec.ofNat 80 (stateCode x.leafSt * 2 ^ 77 + x.leafIdx.toNat * 2 ^ 64 + x.leafCycle.toNat % 256 * 2 ^ 56 +
    x.leafPeriod.toNat * 2 ^ 32 + x.leafPin.toNat % 2 ^ 32)

/-- R252: in tick *F* the node samples its domains; the samples of the last frames are kept for as long as a copy can take to
pass 64 hops. -/
def sampleSlots (s : State) (n : Nat) : State :=
  let v : Vector (BitVec 80) 16 := Vector.ofFn (fun d => slotImage s d)
  updElc s (fun e => { e with samples := ((n, v) :: e.samples.filter (fun p => decide (p.1 ≠ n))).take 16 })

/-- R246: the frame whose tick *F* has come. -/
def frameNow (s : State) : Nat := (now s).toNat / 800

/-- R252: the image of a domain in tick *F* itself, with what still reaches its leaves in that tick. -/
def slotLive (s : State) (d : Fin 16) : BitVec 80 := slotImage (Nat.repeat (doToothUpdate d) s.doms[d].flight.length s) d

/-- R252: what the node sampled for frame *n*; a frame from before the link ran finds the leaves as they are. -/
def sampleOf (s : State) (n : Nat) (d : Fin 16) : BitVec 80 :=
  if decide (n = frameNow s) && decide ((now s).toNat % 800 = 0) then slotLive s d
  else
    match s.elc.samples.find? (fun p => decide (p.1 = n)) with
    | some p => p.2[d]
    | none => slotImage s d

/-- R260: the node publishes and sets its CENSUS bit. -/
def takesPart (s : State) : Bool := !s.elc.conflict

/-- R252: a publisher writes its slot *k* into a copy, or finds a conflict. -/
def publishSlot (n : Nat) (t : Time) (p : Port) (z : State × List Byte) (k : Fin 16) : State × List Byte :=
  let (s, bs) := z
  let cfg := reg s (.link (0x10 + k.val))
  if !(bit cfg 4 && takesPart s) then z
  else if (beAt bs 13 2).testBit k.val then (pubConflict s t p, bs)
  else
    let d := Fin.ofNat 16 (fld cfg 3 0)
    let img := (sampleOf s n d).toNat + bitAt (s.elc.aligned || decide (s.elc.role = .master)) 76
    let b1 := setFrameBit (bePut bs (22 + 10 * k.val) 10 img) 13 2 k.val true
    let tag := 2 ^ 15 + (nodeId s).toNat * 2 ^ 10 + d.val * 2 ^ 6 + regFld s (.dom d 0x01) 19 16 * 4
    (s, if n % 16 = k.val then bePut b1 15 2 tag else b1)

/-- R252: publishing into a copy at its first pass. -/
def publish (s : State) (bs : List Byte) (t : Time) (p : Port) : State × List Byte :=
  (List.finRange 16).foldl (publishSlot (frameNoOf bs) t p) (s, bs)

/-- R250, R267: this node's message as a mailbox slot. -/
def mbxImage (s : State) (data : BitVec 48) : Nat :=
  0x80 * 2 ^ 56 + (nodeId s).toNat * 2 ^ 56 + s.elc.txSeq.toNat * 2 ^ 48 + data.toNat

/-- R260, R267: the owner writes its current message into a copy at its first pass; a pending message becomes current. -/
def writeMbx (s : State) (bs : List Byte) (t : Time) (p : Port) : State × List Byte :=
  let m := regFld s (.link 0x20) 2 0
  if !(regBit s (.link 0x20) 3 && takesPart s) then (s, bs)
  else
    let was := beAt bs (182 + 8 * m) 8
    if decide (2 ^ 63 ≤ was) && decide (was / 2 ^ 56 % 32 ≠ (nodeId s).toNat) then (pubConflict s t p, bs)
    else
      let s1 := if s.elc.txPending then
          updElc s (fun e => { e with txMsg := some e.txNext, txPending := false, txSeq := e.txSeq + 1 })
        else s
      match s1.elc.txMsg with
      | some d => (s1, bePut bs (182 + 8 * m) 8 (mbxImage s1 d))
      | none => (s1, bs)

/-! ### Sending -/

/-- R255: the node sends the fault broadcast. -/
def sendsFault (s : State) : Bool := regBit s (.link 0x01) 16 && decide (s.sys.mode = .safeHold)

/-- R256: REV for a port, 0x8000 where there is none; what a measurement beyond 16 bits sends is not said, a free
value. -/
def revField (s : State) (p : Port) : Nat × State :=
  match (portOf s p).m with
  | none => (0x8000, s)
  | some m =>
    if -0x8000 < m ∧ m < 0x8000 then ((m % 0x10000).toNat, s) else ((freeVal s 16).toNat, nextFree s)

/-- R247: sending a frame out of a port at an instant: HOP_STAMP, REV and the CRC, complemented where the frame came with
a bad one (R251). -/
def sendFrame (s : State) (p : Port) (at_ : T16) (bs : List Byte) (bad : Bool) : State :=
  let hop := (at_ - frameF (frameNoOf bs)).toNat
  let (rev, s1) := revField s p
  let b1 := bePut (bePut bs 17 3 hop) 20 2 rev
  let crc := frameCrc b1
  let b2 := bePut b1 246 4 (if bad then ~~~crc else crc).toNat
  updElc s1 (fun e => { e with sent := e.sent ++ [⟨p, at_, b2⟩] })

/-- R246, R252, R255, R258, R267: what a node writes into a copy that passes: FAULT, its CENSUS bit, and at the first pass
its slots and message. -/
def rewriteFrame (s : State) (bs : List Byte) (t : Time) (p : Port) (first : Bool) : State × List Byte :=
  let b1 := setFrameBit bs 2 2 10 (sendsFault s)
  let b2 := setFrameBit b1 8 5 0 false
  let b3 := setFrameBit b2 9 4 (nodeId s).toNat (s.elc.aligned && takesPart s)
  if first then
    let r := publish s b3 t p
    writeMbx r.1 r.2 t p
  else (s, b3)

/-- R246, R263: a node that is not master forwards a copy, or turns it back where the other port is not UP. -/
def forwardFrame (s : State) (p : Port) (bs : List Byte) (a : T16) (t : Time) (bad : Bool) : State :=
  let q := otherPort p
  let looped := ctrlBit bs 12
  let (s1, b1) := rewriteFrame s bs t p (!looped)
  let leaves := addTicks a 80
  if portOn s q && portUp s q then
    let s2 := if (portOf s1 p).st = .looping then
        updPort (portRecord s1 t 0x04 p) p (fun x => { x with st := .up }) else s1
    sendFrame s2 q leaves b1 bad
  else if looped then s1
  else
    let s2 := if (portOf s1 p).st = .up then
        updPort (portRecord s1 t 0x03 p) p (fun x => { x with st := .looping }) else s1
    sendFrame s2 p leaves (setFrameBit b1 2 2 12 true) bad

/-- R246, R252, R261: the master's frame *n* with a DIR, before HOP_STAMP, REV and CRC: carry-over, its own slots and
message. -/
def masterFrame (s : State) (n : Nat) (dir : Bool) (t : Time) : State × List Byte :=
  let others := (List.range 32).filter (fun k => s.elc.census.getLsbD k && decide (k ≠ (nodeId s).toNat))
  let bk := others.head?
  let ctrl := 2 ^ 14 + bitAt dir 13 + bitAt bk.isSome 11 + (nodeId s).toNat * 32 + bk.getD 0
  let head := [0xBC#8, 0xBC#8] ++ beBytes 2 ctrl ++ beBytes 5 n ++ beBytes 4 0 ++ beBytes 2 0 ++ beBytes 2 0 ++
    beBytes 3 0 ++ beBytes 2 0x8000
  let slots := (s.elc.slots.toList.map (fun v => beBytes 10 v.toNat)).flatten
  let mbx := (s.elc.mbx.toList.map (fun v => beBytes 8 v.toNat)).flatten
  rewriteFrame s (head ++ slots ++ mbx ++ beBytes 4 0) t (if dir then .b else .a) true

/-- R246: the master originates frame *n* in tick *F*: DIR = 0 out of port A, DIR = 1 out of port B. -/
def originate (s : State) (n : Nat) : State :=
  let t : Time := BitVec.ofNat 48 (800 * n)
  let go := fun (z : State) (p : Port) =>
    if portOn z p then
      let r := masterFrame z n (decide (p = .b)) t
      sendFrame r.1 p (frameF n) r.2 false
    else z
  let s0 := updElc s (fun e => { e with frameNo := n, mbxSent := e.mbx })
  go (go s0 .a) .b

/-- R257, R258, R261: the node becomes master: aligned, its line time at rate 0. -/
def becomeMaster (s : State) (t : Time) : State :=
  let s1 := masterChange s t .a (nodeId s)
  let s2 := if s1.elc.aligned then s1 else portRecord s1 t 0x06 .a
  let s3 := updElc s2 (fun e => { e with role := .master, heard := true, master := nodeId s, named := nodeId s,
                                         aligned := true, theta := 0, parent := none })
  { s3 with time := { s3.time with rate := 0 } }

/-- FRAME_ORIGINATE (R246): the next frame of a master whose tick *F* has come. -/
def doFrameOriginate (s : State) : State :=
  if elcOn s && decide (s.elc.role = .master) && decide (s.elc.frameNo ≠ frameNow s) then originate s (frameNow s) else s

/-- R246, R31: after a step of line time a master goes on with the next frame whose *F* comes. -/
def elcTimeStep (s : State) : State :=
  if s.elc.role = .master then
    updElc s (fun e => { e with frameNo := if (now s).toNat % 800 = 0 then frameNow s + 1 else frameNow s })
  else s

/-- BACKUP_TAKEOVER (R262): the backup that accepted neither frame *n* nor *n* + 1 originates frame *n* + 2. -/
def doBackupTakeover (s : State) : State :=
  let f : Time := BitVec.ofNat 48 (800 * (s.elc.frameNo + 3))
  if elcOn s && s.elc.heard && decide (s.elc.role = .backup) && due s f then
    originate (becomeMaster s f) (frameNow s)
  else s

/-- CANDIDATE_ORIGINATE (R261, R262): a candidate after 16 + 4 × NODE_ID frame periods without an accepted frame; its
frames begin at the next *F*, or now where *F* is this tick. -/
def doCandidateOriginate (s : State) : State :=
  match s.elc.quietFrom with
  | none => s
  | some q =>
    if elcOn s && isCandidate s && decide (s.elc.role ≠ .master) &&
        decide (q + (16 + 4 * (nodeId s).toNat) * 800 ≤ s.time.tick) then
      let s1 := updElc (becomeMaster s (now s)) (fun e => { e with frameNo := frameNow s })
      if (now s).toNat % 800 = 0 then originate s1 (frameNow s) else s1
    else s

/-! ### Electrum-sourced domains -/

/-- R253, R73: a source fault of an Electrum-sourced domain, which holds until it is resynchronised. -/
def rmtFault (s : State) (d : Fin 16) : State :=
  if counting s.doms[d].st || decide (s.doms[d].st = .stopped) then
    updDom (sourceFault s d) d (fun x => { x with rmtHold := true })
  else s

/-- R73, R253: the enabled Electrum-sourced domains. -/
def rmtDoms (s : State) : List (Fin 16) := (List.finRange 16).filter (fun d => domEn s d && decide (domKind s d = 2))

/-- R253: the NODE and DOMAIN that a domain follows (RMT_CFG), as in a tag. -/
def rmtName (s : State) (d : Fin 16) : Nat := regFld s (.dom d 0x13) 8 4 * 16 + regFld s (.dom d 0x13) 3 0

/-- R253: the slot whose latest tag names the remote domain with the local PRESC. -/
def rmtSlot (s : State) (d : Fin 16) : Option (Fin 16) :=
  (List.finRange 16).find? (fun k =>
    let g := s.elc.tags[k]
    bit g 15 && decide (fld g 14 6 = rmtName s d) && decide (fld g 5 2 = regFld s (.dom d 0x01) 19 16))

/-- R249, R64: the state a slot carries. -/
def slotState (v : BitVec 80) : Option SyncState :=
  match fld v 79 77 with
  | 0 => some .off
  | 1 => some .syncing
  | 2 => some .synced
  | 3 => some .suspect
  | 4 => some .lost
  | 5 => some .stopped
  | _ => none

/-- R253: a copy's slot is valid for a domain. -/
def slotValid (s : State) (d : Fin 16) (v : BitVec 80) : Bool :=
  bit v 76 && (s.elc.aligned || decide (s.elc.role = .master)) && decide (fld v 75 64 < teethOf s d) &&
    (slotState v).isSome

/-- R73: the local cycle counter: the carried low byte, and the wraps of it counted above. -/
def rmtCycle (old : Word) (lo : Nat) : Word :=
  let hi := fld old 23 8
  word ((if lo < fld old 7 0 then hi + 1 else hi) * 256 + lo)

/-- R253: a new tooth of the remote domain goes to the leaves with update tick `upd`. Its index is the carried one, and a
pending INDEX_SET is consumed without effect (R79, log entry 98). -/
def rmtTooth (s : State) (d : Fin 16) (v : BitVec 80) (pin upd : Time) (new : SyncState) (cause : Option Nat)
    (resync : Bool) : State :=
  let x := s.doms[d]
  let period : Word := if x.afterStop || resync then 0 else word (fld v 55 32)
  let cyc := rmtCycle x.rmtCyc (fld v 63 56)
  let idx : BitVec 12 := BitVec.ofNat 12 (fld v 75 64)
  let causes := match cause with
    | some c => [(x.st, BitVec.ofNat 8 c)]
    | none => []
  let b := absOf s (upd - 8#48)
  let s1 := consumeIndex (takeBoundary s d b) d b
  let s2 := updDom s1 d (fun y =>
    { y with st := new, lastT := some pin, base := true, period := period, idx := idx, started := true,
             afterStop := false, standFloor := none, rmtCyc := cyc, rmtHold := false })
  sendTooth s2 d ⟨.real, pin, idx, period, upd, new, causes, false, 0, none, none, some cyc, none, none, none⟩

/-- R73: the local domain changes to the remote state; the cause code is not given, a free value. The change has the pin time
of the copy's tooth as its timestamp, a choice of the model (log entry 98). -/
def rmtChange (s : State) (d : Fin 16) (pin upd : Time) (new : SyncState) : State :=
  let c := (freeVal s 8).toNat
  let was := s.doms[d].st
  let s1 := sendChange (nextFree s) d pin upd new c none
  if counting new then s1
  else updDom (dropPeriod s1 d) d (fun x => { x with before := was, afterStop := x.afterStop || decide (new = .stopped) })

/-- R253, R73: a domain applies a copy: the one whose last CRC byte arrived at `crc`, or one that waited till then. -/
def rmtApply (s : State) (d : Fin 16) (v : BitVec 80) (crc : Time) : State :=
  let x := s.doms[d]
  let upd := plus crc 16
  let low : BitVec 32 := v.setWidth 32
  let pin : Time := crc - (crc.setWidth 32 - low).setWidth 48
  let key := (BitVec.ofNat 12 (fld v 75 64), low)
  let fresh := decide (x.rmtLast ≠ some key)
  let remote := (slotState v).getD .off
  if x.rmtHold then
    if fresh && counting remote && regBit s (.dom d 0x0C) 16 then
      let s1 := updDom (rmtTooth (clearSync s d) d v pin upd .syncing (some 0x0B) true) d (fun y =>
        { y with rmtLast := some key, rmtSt := none })
      s1
    else s
  else if remote = .off then rmtFault (updDom s d (fun y => { y with rmtSt := some .off })) d
  else
    let changed := decide (x.rmtSt ≠ some remote)
    let s1 := updDom s d (fun y => { y with rmtLast := some key, rmtSt := some remote })
    if fresh && counting remote then
      if x.st = remote then rmtTooth s1 d v pin upd remote none false
      else if x.st = .stopped then rmtTooth s1 d v pin upd remote (some 0x08) false
      else rmtTooth (nextFree s1) d v pin upd remote (some (freeVal s1 8).toNat) false
    else if changed && decide (x.st ≠ remote) then rmtChange s1 d pin upd remote
    else s1

/-- R253: the account of frame `n` that a domain keeps. -/
def rmtAcc (x : Dom) (n : Nat) : RmtFrame := (x.rmtAccs.find? (fun a => decide (a.n = n))).getD ⟨n, false, false, none, false⟩

/-- R253: an account is stored; the latest 8 are kept. -/
def rmtPut (s : State) (d : Fin 16) (a : RmtFrame) : State :=
  updDom s d (fun x => { x with rmtAccs := (a :: x.rmtAccs.filter (fun y => !decide (y.n = a.n))).take 8 })

/-- R253: a valid copy: the first fresh one of a frame is applied, a carry-over copy waits. -/
def rmtCopy (s : State) (d : Fin 16) (n : Nat) (v : BitVec 80) (fresh : Bool) (t : Time) : State :=
  let a := { rmtAcc s.doms[d] n with valid := true }
  if a.done then rmtPut s d a
  else if fresh then rmtApply (rmtPut s d { a with done := true }) d v t
  else
    let older := match s.doms[d].rmtLast with
      | some l => decide ((v.setWidth 32 - l.2).toInt < 0)
      | none => false
    rmtPut s d (if a.carry.isSome || older then a else { a with carry := some v })

/-- R253: both copies of frame `n` have arrived or been missed in tick `t`: the carry-over copy is applied where no fresh one
came (log entry 98), and three frames in a row without a valid copy are a source fault (R73). -/
def rmtClose (s : State) (d : Fin 16) (n : Nat) (t : Time) : State :=
  let a := rmtAcc s.doms[d] n
  if a.closed then s
  else
    let missed := if a.valid then 0 else s.doms[d].rmtMissed + 1
    let s1 := updDom (rmtPut s d { a with done := true, closed := true }) d (fun y => { y with rmtMissed := missed })
    let s2 := match a.carry with
      | some v => if a.done then s1 else rmtApply s1 d v t
      | none => s1
    if 3 ≤ missed then rmtFault s2 d else s2

/-- R253: the tick of something that a domain takes in. -/
def rmtAt (e : RmtIn) : Time :=
  match e with
  | .copy _ _ _ _ t => t
  | .close _ t => t

/-- R253: the order within one tick: the DIR = 0 copy, the DIR = 1 copy, the end of the frame. -/
def rmtRank (e : RmtIn) : Nat :=
  match e with
  | .copy _ _ _ dir _ => bitAt dir 0
  | .close _ _ => 2

/-- R253: what a domain takes in, in order. -/
def rmtInsert (l : List RmtIn) (e : RmtIn) : List RmtIn :=
  match l with
  | [] => [e]
  | f :: r =>
    if before (rmtAt e) (rmtAt f) || (decide (rmtAt e = rmtAt f) && decide (rmtRank e < rmtRank f)) then e :: f :: r
    else f :: rmtInsert r e

/-- R253: an Electrum-sourced domain takes in a copy or the end of a frame. -/
def rmtEvent (d : Fin 16) (s : State) (e : RmtIn) : State :=
  match e with
  | .copy n v fresh _ t => rmtCopy s d n v fresh t
  | .close n t => rmtClose s d n t

/-- R78, R253: an Electrum-sourced domain takes in what came 8 ticks ago, 8 ticks before the update tick. -/
def rmtTake (s : State) (d : Fin 16) : State :=
  let l := s.doms[d].rmtIn
  let p := fun (e : RmtIn) => due s (plus (rmtAt e) 8)
  if l.isEmpty then s
  else (l.takeWhile p).foldl (rmtEvent d) (updDom s d (fun x => { x with rmtIn := l.dropWhile p }))

/-- R78, R253: every Electrum-sourced domain takes in what is due in the present tick. -/
def rmtTakeAll (s : State) : State := (rmtDoms s).foldl rmtTake s

/-- R31, R253: a step of line time comes after everything that has arrived. -/
def rmtFlush (s : State) : State :=
  (rmtDoms s).foldl (fun z d =>
    z.doms[d].rmtIn.foldl (rmtEvent d) (updDom z d (fun x => { x with rmtIn := [] }))) s

/-- R253: something joins what a domain takes in. -/
def rmtSend (s : State) (d : Fin 16) (e : RmtIn) : State :=
  rmtTake (updDom s d (fun x => { x with rmtIn := rmtInsert x.rmtIn e })) d

/-- R253: a valid frame's copy for one domain, where it is valid for it. -/
def rmtArrives (bs : List Byte) (crc : Time) (s : State) (d : Fin 16) : State :=
  match rmtSlot s d with
  | none => s
  | some k =>
    let v := slotAt bs k.val
    if !slotValid s d v then s
    else
      rmtSend (updDom s d (fun x => { x with rmtFound := true })) d
        (.copy (frameNoOf bs) v ((beAt bs 13 2).testBit k.val) (ctrlBit bs 13) crc)

/-- R253: a tag of this frame that names a remote domain: found; refused where its PRESC differs. -/
def rmtTag (g : BitVec 16) (s : State) (d : Fin 16) : State :=
  if !(bit g 15 && decide (fld g 14 6 = rmtName s d)) then s
  else
    let s1 := updDom s d (fun x => { x with rmtFound := true })
    if fld g 5 2 = regFld s (.dom d 0x01) 19 16 then s1 else rmtFault s1 d

/-- R253: a frame number is closed at the node when every UP port has had it or missed it. -/
def frameClosed (s : State) (n : Nat) : Bool :=
  [Port.a, Port.b].all (fun p => !portUp s p || (match (portOf s p).frameNo with
    | some k => decide (n ≤ k)
    | none => true))

/-- R253: closing a frame for every Electrum-sourced domain. -/
def closeFrame (s : State) (n : Nat) (t : Time) : State :=
  if frameClosed s n then (rmtDoms s).foldl (fun z d => rmtSend z d (.close n t)) s else s

/-- R253: a frame period passes; a domain without a tag of its remote domain for 32 of them has a source fault. -/
def rmtPeriod (s : State) (d : Fin 16) : State :=
  let n := s.doms[d].rmtFrames + 1
  let s1 := updDom s d (fun x => { x with rmtFrames := min 33 n })
  if 32 ≤ n && !s.doms[d].rmtFound then rmtFault s1 d else s1

/-- R246, R252, R253: the end of tick *F* of a frame at a node whose link is on. A discipline of line time can leave *F* out:
then its next tick stands for it. -/
def frameTick (s : State) : State :=
  if elcOn s && decide ((now s).toNat % 800 < 2) && decide ((s.elc.samples.head?.map (fun p => p.1)) ≠ some (frameNow s)) then
    let s1 := sampleSlots s (frameNow s)
    (rmtDoms s1).foldl rmtPeriod s1
  else s

/-! ### Using a valid frame -/

/-- R252: the latest valid copy of each slot, for the carry-over. -/
def keepSlots (s : State) (bs : List Byte) : State :=
  let n := frameNoOf bs
  let fresh := beAt bs 13 2
  let take := fun (k : Fin 16) => fresh.testBit k.val || decide (s.elc.slotFrame[k] < n)
  updElc s (fun e =>
    { e with slots := Vector.ofFn (fun k => if take k then slotAt bs k.val else e.slots[k])
             slotFrame := Vector.ofFn (fun k => if fresh.testBit k.val then n else e.slotFrame[k]) })

/-- R267: the latest mailbox slots, for the carry-over: a copy that differs from what the master sent has been
written. -/
def keepMbx (s : State) (bs : List Byte) : State :=
  updElc s (fun e => { e with mbx := Vector.ofFn (fun m =>
    if e.role = .master ∧ mbxAt bs m.val = e.mbxSent[m] then e.mbx[m] else mbxAt bs m.val) })

/-- R267: a receiving node takes slot *m* from a copy whose SEQ is new. -/
def takeMbx (bs : List Byte) (crc : Time) (s : State) (m : Fin 8) : State :=
  let v := mbxAt bs m.val
  let seq : Byte := BitVec.ofNat 8 (fld v 55 48)
  let owner : BitVec 5 := BitVec.ofNat 5 (fld v 60 56)
  let data : BitVec 48 := v.setWidth 48
  let mine := regBit s (.link 0x20) 3 && decide (regFld s (.link 0x20) 2 0 = m.val) && decide (owner = nodeId s)
  if !bit v 63 || mine || decide (s.elc.rxTaken[m] = some seq) then s
  else
    let s1 := updElc s (fun e => { e with rx := e.rx.set m ⟨data, seq, owner, true⟩, rxTaken := e.rxTaken.set m (some seq) })
    let s2 := orReg s1 (.link 0x23) (2 ^ (16 + m.val))
    if regBit s2 (.link 0x01) 18 then
      emitAt s2 (regFld s2 (.link 0x01) 23 20) (absOf s2 crc) 20
        ⟨0x61, BitVec.ofNat 16 (owner.toNat * 2 ^ 11 + m.val * 2 ^ 8 + seq.toNat), crc, data.setWidth 24,
          (data >>> 24).setWidth 24⟩
    else s2

/-- R255, R270: FAULT, MASTER and BACKUP of a valid frame. -/
def noteFrame (s : State) (bs : List Byte) : State :=
  let f := ctrlBit bs 10
  let bk := if ctrlBit bs 11 then some (BitVec.ofNat 5 (ctrlFld bs 4 0)) else none
  let s1 := updElc s (fun e => { e with faultRx := f, named := BitVec.ofNat 5 (ctrlFld bs 9 5), backup := bk })
  if f && !s.elc.faultRx && regBit s (.link 0x01) 17 then report s1 0x2D .chip (ctrlFld bs 9 5) false else s1

/-- R260: the node finds its CENSUS bit set by another node. -/
def takeCensus (s : State) (bs : List Byte) (t : Time) (p : Port) (own : Bool) : State :=
  let c := beAt bs 9 4
  let clash := !own && !ctrlBit bs 12 && c.testBit (nodeId s).toNat && takesPart s
  let s1 := updElc s (fun e => { e with census := BitVec.ofNat 32 c })
  if clash then updElc (portRecord s1 t 0x09 p) (fun e => { e with conflict := true }) else s1

/-- R256: the measurement *m* of a frame that arrived at `a`, in sixteenths. -/
def measureOf (bs : List Byte) (a : T16) : Int := (a - frameF (frameNoOf bs)).toInt - (beAt bs 17 3 : Int)

/-- R256: the REV that a frame carries. -/
def revOf (bs : List Byte) : Option Int :=
  let r := beAt bs 20 2
  if r = 0x8000 then none else some (BitVec.ofNat 16 r).toInt

/-- R257: the parent after a frame: the port of the last non-looped DIR = 0 frame of the last 2 frame periods, else that
of the last with DIR = 1. -/
def parentOf (s : State) : Option Port :=
  let recent := fun (o : Option Nat) => match o with
    | some k => decide (s.time.tick < k + 1600)
    | none => false
  let a := portOf s .a
  let b := portOf s .b
  let newer := fun (x y : Option Nat) => if decide (y.getD 0 ≤ x.getD 0) then Port.a else Port.b
  match recent a.lastDir0, recent b.lastDir0, recent a.lastDir1, recent b.lastDir1 with
  | true, false, _, _ => some .a
  | false, true, _, _ => some .b
  | true, true, _, _ => some (newer a.lastDir0 b.lastDir0)
  | false, false, true, false => some .a
  | false, false, false, true => some .b
  | false, false, true, true => some (newer a.lastDir1 b.lastDir1)
  | false, false, false, false => none

/-- R258: line time steps by a number of sixteenths; what is less than a tick goes to the phase accumulator (R29), in
units of 10⁻⁸ tick. -/
def stepLine (x : State) (t : Time) (p : Port) (d16 : Int) : State :=
  let s := rmtFlush x
  let ph := s.time.phase + d16 * 6250000
  let ticks := ph.fdiv 100000000
  let s1 := timeStep s
  let s2 := passEdges
    { s1 with time := { s1.time with lt := s1.time.lt + BitVec.ofInt 48 ticks, phase := ph - ticks * 100000000 } } (now s)
  linkRecord s2 t 0x08 p (portOf s p).neighbour.toNat (wordOfInt (max (-0x800000) (min 0x7FFFFF ticks)))

/-- R258: alignment counts the frames from the parent. -/
def alignCount (s : State) (t : Time) (p : Port) : State :=
  let inside := decide (s.elc.theta.natAbs ≤ regFld s (.link 0x02) 7 0)
  let e := s.elc
  if inside then
    let s1 := updElc s (fun x => { x with inRun := min 16 (e.inRun + 1), outRun := 0 })
    if !e.aligned && decide (16 ≤ e.inRun + 1) then portRecord (updElc s1 (fun x => { x with aligned := true })) t 0x06 p
    else s1
  else
    let s1 := updElc s (fun x => { x with inRun := 0, outRun := min 4 (e.outRun + 1) })
    if e.aligned && decide (4 ≤ e.outRun + 1) then portRecord (updElc s1 (fun x => { x with aligned := false })) t 0x07 p
    else s1

/-- R257, R258: a frame from the parent: offset, discipline, alignment, and in CONFIGURE the steps. -/
def followParent (s : State) (p : Port) (bs : List Byte) (a : T16) (t : Time) : State :=
  match revOf bs with
  | some r =>
    let th := (measureOf bs a - r).fdiv 2
    let s1 := updElc s (fun e => { e with theta := th })
    let rate := max (-10000) (min 10000 (Config.disciplineRate th s.time.rate))
    let s2 := alignCount { s1 with time := { s1.time with rate := rate } } t p
    if decide (s.sys.mode = .configure) && decide (64 < th.natAbs) then stepLine s2 t p (-th) else s2
  | none =>
    if decide (s.sys.mode = .configure) && !s.elc.joined then
      updElc (stepLine s t p (256 - measureOf bs a)) (fun e => { e with joined := true })
    else s

/-- R256: what every valid frame tells of the link to its sender, once its CRC is known. -/
def measureFrame (s : State) (p : Port) (bs : List Byte) (a : T16) : State :=
  updPort s p (fun x => { x with m := some (measureOf bs a), rev := revOf bs })

/-- R257: what an accepted frame tells of the parent. -/
def noteParent (s : State) (p : Port) (bs : List Byte) : State :=
  let tick := s.time.tick
  let s1 := updPort s p (fun x =>
    { x with
      lastDir0 := if !ctrlBit bs 12 && !ctrlBit bs 13 then some tick else x.lastDir0
      lastDir1 := if !ctrlBit bs 12 && ctrlBit bs 13 then some tick else x.lastDir1 })
  if s1.elc.role = .master then s1 else updElc s1 (fun e => { e with parent := parentOf s1 })

/-- R260, R261: what every accepted frame sets: role, master, silence, CENSUS, loops. -/
def acceptFrame (s : State) (p : Port) (bs : List Byte) (t : Time) (own : Bool) : State :=
  let mm : BitVec 5 := BitVec.ofNat 5 (ctrlFld bs 9 5)
  let bk := if ctrlBit bs 11 then some (BitVec.ofNat 5 (ctrlFld bs 4 0)) else none
  let s1 := if s.elc.heard && decide (s.elc.master ≠ mm) then masterChange s t p mm else s
  let role := if own then ElcRole.master else if bk = some (nodeId s) then ElcRole.backup else ElcRole.member
  let s2 := updElc s1 (fun e =>
    { e with role := role, heard := true, master := mm, frameNo := if own then e.frameNo else frameNoOf bs
             quietFrom := some s.time.tick, loopAge := if ctrlBit bs 12 then 0 else min 16 (e.loopAge + 1) })
  takeCensus s2 bs t p own

/-- R261, R262: whether the node accepts a frame that names a master: its own, the one it follows, a lower-numbered one,
or any once the one it follows has been silent for 2 frame periods. -/
def accepts (s : State) (mm : BitVec 5) : Bool :=
  let e := s.elc
  if e.role = .master then decide (mm.toNat ≤ (nodeId s).toNat)
  else !e.heard || decide (mm.toNat ≤ e.master.toNat) || (match e.quietFrom with
    | some q => decide (q + 1600 ≤ s.time.tick)
    | none => true)

/-- R251 to R267: the contents of a valid frame are used from the tick of its last CRC byte. -/
def useFrame (s : State) (p : Port) (bs : List Byte) (crc : Time) : State :=
  let own := decide (s.elc.role = .master) && decide (ctrlFld bs 9 5 = (nodeId s).toNat)
  let s1 := keepMbx (keepSlots (noteParent (acceptFrame s p bs crc own) p bs) bs) bs
  let g : BitVec 16 := BitVec.ofNat 16 (beAt bs 15 2)
  let s2 := if bit g 15 then
      (rmtDoms s1).foldl (rmtTag g)
        (updElc s1 (fun e => { e with tags := e.tags.set (Fin.ofNat 16 (frameNoOf bs)) g }))
    else s1
  let s3 := (rmtDoms s2).foldl (rmtArrives bs crc) s2
  (List.finRange 8).foldl (takeMbx bs crc) s3

/-- R245: a valid frame in TRAINING; the sixteenth in a row brings the port UP. The frame does not carry its sender's
number, so NEIGHBOUR is a free value. -/
def trainFrame (s : State) (p : Port) (t : Time) : State :=
  let n := (portOf s p).validRun + 1
  if n < 16 then updPort s p (fun x => { x with validRun := n })
  else
    let s1 := updPort (nextFree s) p (fun x => { x with st := .up, validRun := 16, neighbour := freeVal s 5 })
    portRecord (updElc s1 (fun e => { e with quietFrom := some (e.quietFrom.getD s.time.tick) })) t 0x01 p

/-- R251, R263: a frame with a bad CRC or VERSION. -/
def rejectFrame (s : State) (p : Port) (bad : Bool) : State :=
  let s1 := if bad then
      bump s (match p with
        | .a => .link 0x09
        | .b => .link 0x0A) 23 12 1
    else s
  updPort s1 p (fun x => { x with validRun := 0, frameNo := x.frameNo.map (· + 1) })

/-- FRAME_ARRIVAL (R246, R251 to R267): byte 2 arrived at `a`, and the last CRC byte 794 ticks later. -/
def doFrameArrival (p : Port) (bs : List Byte) (a : T16) (s : State) : State :=
  let crc := plus (tickPart a) 794
  let port := portOf s p
  if !(elcOn s && portOn s p && port.locked && decide (port.st ≠ .down) && decide (bs.length = 250) && due s crc) then s
  else
    let bad := decide (frameCrc bs ≠ BitVec.ofNat 32 (beAt bs 246 4))
    let valid := !bad && decide (ctrlFld bs 15 14 = 1)
    let run := (bad :: port.crcRun).take 16
    let s1 := updPort s p (fun x => { x with crcRun := run, missRun := 0 })
    if valid && !ctrlBit bs 12 && !ctrlBit bs 13 && decide (p = .a) then
      updPort (portDown (portRecord (orReg s1 (.link 0x03) 0x8000) crc 0x0A p) p crc) p (fun x => { x with crossed := true })
    else
      let s2 := if valid then
          updPort s1 p (fun x => { x with offset := some (a - frameF (frameNoOf bs)).toInt, frameNo := some (frameNoOf bs) })
        else rejectFrame s1 p bad
      let own := decide (s2.elc.role = .master)
      let s3 := (fun z => if valid then measureFrame z p bs a else z) (if own then s2 else forwardFrame s2 p bs a crc bad)
      let master : BitVec 5 := BitVec.ofNat 5 (ctrlFld bs 9 5)
      let used := valid && decide (port.st ≠ .training) && accepts s3 master
      let s4 :=
        if !valid then s3
        else if port.st = .training then trainFrame s3 p crc
        else if used then useFrame (noteFrame s3 bs) p bs crc
        else noteFrame s3 bs
      let s5 := if decide (8 ≤ (run.filter id).length) then portDown s4 p crc else s4
      let s6 := match (portOf s2 p).frameNo with
        | some n => closeFrame s5 n crc
        | none => s5
      if used && !(own && decide (master = nodeId s)) && decide (s6.elc.parent = some p) && !ctrlBit bs 12 then
        followParent s6 p bs a crc
      else s6

/-- FRAME_MISSED (R263): byte 2 of the next frame did not arrive within 64 ticks of its expected instant. -/
def doFrameMissed (p : Port) (s : State) : State :=
  let x := portOf s p
  match x.frameNo, x.offset with
  | some k, some o =>
    let n := k + 1
    let last : Time := tickPart (frameF n + BitVec.ofInt 52 (o + 1024))
    if !(elcOn s && portOn s p && after (now s) last) then s
    else
      let s1 := bump s (match p with
        | .a => .link 0x09
        | .b => .link 0x0A) 11 0 1
      let s2 := updPort s1 p (fun y => { y with frameNo := some n, missRun := y.missRun + 1, validRun := 0 })
      let s3 := if decide (2 ≤ x.missRun + 1) && decide (x.st ≠ .down) then portDown s2 p (now s) else s2
      closeFrame s3 n (now s)
  | _, _ => s

/-- LANE_LOCK_LOSS (R263). -/
def doLaneLockLoss (p : Port) (s : State) : State :=
  if elcOn s && portOn s p && (portOf s p).locked then portDown s p (now s) else s

/-- LANE_LOCK_GAINED (R245): the receive lanes lock; a port whose link was lost trains again. -/
def doLaneLockGained (p : Port) (s : State) : State :=
  let x := portOf s p
  if elcOn s && portOn s p && !x.locked && !x.crossed then
    updPort s p (fun y => { y with locked := true, st := .training, validRun := 0 })
  else s

/-! ### Parameters -/

/-- R245, R260: a port is disabled. -/
def portDisable (s : State) (p : Port) : State :=
  let s1 := if portUp s p then portRecord s (now s) 0x02 p else s
  updElc (updPort s1 p (fun _ => portReset)) (fun e => { e with conflict := false })

/-- R245, R264, R269: a write of ELC_CTRL: ports newly enabled train, disabled ports go DOWN, and EN = 0 ends the node's
part in the ring. -/
def writeElcCtrl (s : State) (v : Word) : State × Status :=
  let now_ := setReg s (.link 0x00) (v &&& 7)
  let one := fun (z : State) (p : Port) =>
    if portOn now_ p && !portOn s p then updPort z p (fun _ => { portReset with st := .training })
    else if portOn s p && !portOn now_ p then portDisable z p
    else z
  let s1 := one (one s .a) .b
  let s2 := setReg s1 (.link 0x00) (v &&& 7)
  if bit v 0 then (s2, .ok)
  else
    let s3 := updElc s2 (fun e =>
      { elcReset with slots := e.slots, tags := e.tags, mbx := e.mbx, rx := e.rx, rxTaken := e.rxTaken, txNext := e.txNext,
                      txMsg := e.txMsg, txPending := e.txPending, txSeq := e.txSeq, sent := e.sent })
    ({ s3 with time := { s3.time with rate := 0 } }, .ok)

/-- R267: a write of ELC_MBX_TX_HI commits the pair. -/
def writeMbxTxHi (s : State) (lo v : Word) : State × Status :=
  let s1 := setReg s (.link 0x22) v
  let s2 := if s.elc.txPending then orReg s1 (.link 0x23) 2 else s1
  (updElc s2 (fun e => { e with txNext := mkTime v lo, txPending := true }), .ok)

/-- R270: ELC_STAT. -/
def elcStat (s : State) : Word :=
  let e := s.elc
  if !regBit s (.link 0x00) 0 then reg s (.link 0x03)
  else
    let l := if !e.heard then 1 else if e.aligned then 3 else 2
    let r := match e.role with
      | .member => 0
      | .master => 1
      | .backup => 2
    let broken := decide (e.loopAge < 16) || (portOn s .a && !portUp s .a) || (portOn s .b && !portUp s .b)
    word (l * 2 ^ 22 + r * 2 ^ 20 + bitAt e.aligned 19 + bitAt broken 18 + bitAt e.faultRx 17 + bitAt e.conflict 16 +
      e.named.toNat * 32 + (e.backup.getD 0).toNat) ||| reg s (.link 0x03)

/-- R270: ELC_PORTn_STAT. -/
def portStat (s : State) (p : Port) : Word :=
  let x := portOf s p
  let st := match x.st with
    | .down => 0
    | .training => 1
    | .up => 2
    | .looping => 3
  let delay : Nat := match x.m, x.rev with
    | some m, some r => min 0xFFFF ((m + r).fdiv 2).toNat
    | _, _ => 0
  word (st * 2 ^ 22 + bitAt (decide (s.elc.parent = some p)) 21 + x.neighbour.toNat * 2 ^ 16 + delay)

/-- R269: the tag word of a received message. -/
def rxTag (m : MboxMsg) : Word := word (bitAt m.valid 13 + m.owner.toNat * 256 + m.seq.toNat)

/-- R269: a read of a link parameter that is not a stored word; a read of RXm_LO captures RXm_HI and RXm_TAG. -/
def readLink (s : State) (who : Requester) (o : Nat) : Word × State :=
  if o = 0x03 then (elcStat s, s)
  else if o = 0x04 then (s.elc.census.setWidth 24, s)
  else if o = 0x05 then ((s.elc.census >>> 24).setWidth 24, s)
  else if o = 0x06 then (elcOffset s, s)
  else if o = 0x07 then (portStat s .a, s)
  else if o = 0x08 then (portStat s .b, s)
  else if o = 0x23 then (reg s (.link 0x23) ||| word (bitAt s.elc.txPending 0), s)
  else if 0x24 ≤ o ∧ o < 0x34 then
    let i := (o - 0x24) / 2
    let m := s.elc.rx[Fin.ofNat 8 i]
    if (o - 0x24) % 2 = 0 then
      (m.data.setWidth 24, setCap (setCap s who (.link (0x25 + 2 * i)) ((m.data >>> 24).setWidth 24)) who
        (.link (0x34 + i)) (rxTag m))
    else ((m.data >>> 24).setWidth 24, s)
  else if 0x34 ≤ o ∧ o < 0x3C then (rxTag s.elc.rx[Fin.ofNat 8 (o - 0x34)], s)
  else (reg s (.link o), s)

end Sys2Proof.Machine
end

