-- ==== Sys2Proof/Machine/Monitors.lean ====
section
/-!
DEFINITION. Calendar, lifetime store and monitors (14_lifetime_and_monitors.md R370 to R388), but for what a boot does
with them.
-/
namespace Sys2Proof.Machine

/-! ### Calendar -/

/-- R376: a commit that LIFE_STAT shows as writing. -/
def lifeBusy (s : State) : Bool := s.life.writing.isSome

/-- R375: the temperature band of a reading in sixteenths of a degree, as a counter number. -/
def tempBand (t : Int) : Nat :=
  if t < 0 then 24 else if t < 400 then 25 else if t < 800 then 26 else if t < 1200 then 27 else if t < 1520 then 28
  else if t < 1680 then 29 else if t ≤ 1840 then 30 else 31

/-- R388: the signed reading of a temperature sensor. -/
def tempOf (s : State) (m : Fin 24) : Int := s.mons[m].last.toInt

/-- R387: MON_TMAX. -/
def tempMax (s : State) : Int :=
  ((List.range 8).map (fun i => tempOf s (Fin.ofNat 24 i))).foldl max (tempOf s 0)

/-- R375: the duty counters that count whole calendar seconds. -/
def dutySeconds (s : State) : State :=
  let m := s.sys.mode
  let s1 := dutyAdd (dutyAdd s 0 1) (tempBand (tempMax s)) 1
  if m = .run ∨ m = .degraded then dutyAdd s1 1 1 else if m = .safeHold then dutyAdd s1 2 1 else s1

/-- R376: the fraction returns to 0: a periodic commit starts, where the store works. -/
def periodicCommit (s : State) : State :=
  if alive s && decide (s.sys.mode ≠ .powerFail) then requestCommit s else s

/-- R370: the calendar after a second boundary in the present tick: where SET_CALENDAR has written it in this tick, the
written value holds. -/
def nextSecond (s : State) : BitVec 48 :=
  if alive s && decide (s.life.setTick = some s.time.tick) then s.life.cal else s.life.cal + 1

/-- CALENDAR_SECOND (R370, R371, R375, R376): in every mode; with main power off only the calendar counts. -/
def doCalendarSecond (s : State) : State :=
  let s1 := updLife s (fun l => { l with cal := nextSecond s, secTick := s.time.tick })
  let s2 := if (s1.life.cal).toNat % 32 = 0 then
      updLife s1 (fun l => { l with trim := (shadowAt s1 (.life 0x07) s.time.tick).setWidth 9 }) else s1
  if alive s then periodicCommit (dutySeconds s2) else s2

/-- R370: SET_CALENDAR. -/
def setCalendar (s : State) (v : BitVec 48) : State :=
  periodicCommit (updLife s (fun l => { l with cal := v, secTick := s.time.tick, setTick := some s.time.tick, calValid := true }))

/-! ### The lifetime store -/

/-- R377, R386: LIFETIME_ERR and its count; the MRAM word concerned is not determined, a free value. -/
def lifetimeErr (s : State) : State :=
  report (bump (nextFree s) (.life 0x00) 7 0 1) 0x0B .chip ((freeVal s 19).toNat) false

/-- R376: a slot of the store after a commit, by the parity of its number. -/
def putSlot (l : Life) (n : Word32) (v : Option CommitImg) : Life :=
  if n.toNat % 2 = 0 then { l with slotA := v } else { l with slotB := v }

/-- R376, R378, R379: the end of the commit that is writing, without what a reboot adds. -/
def endCommit (ok : Bool) (s : State) : State :=
  match s.life.writing with
  | none => s
  | some w =>
    let s1 := updLife s (fun l =>
      if ok then { putSlot l w.n (some w) with writing := none, lastN := w.n, valid := true }
      else { putSlot l w.n none with writing := none })
    let s2 := if ok then dutyAdd s1 43 1 else lifetimeErr s1
    let s3 := if s.life.writeIsPowerFail && ok then
        updLife s2 (fun l => { l with hist := (l.histQueue.reverse ++ l.hist).take 1024, histQueue := [] }) else s2
    if s.life.requested then updLife (beginCommit s3) (fun l => { l with writeTick := s.time.tick + 1 }) else s3

/-- WEAR_CLR (R373, R376). -/
def wearClear (s : State) (v : Word) : State :=
  requestCommit (updLife s (fun l => { l with wear := l.wear.set (Fin.ofNat 256 v.toNat) 0 }))

/-- R379: the entry of an index; 0 is the newest. Entries that wait to be written are held entries. -/
def histAt (s : State) (i : Nat) : Option HistEntry := (s.life.histQueue.reverse ++ s.life.hist)[i]?

/-- R379: the entries held. -/
def histCount (s : State) : Nat := min 1024 (s.life.histQueue.length + s.life.hist.length)

/-- R385, R386: a read of a lifetime parameter; LO reads capture. -/
def readLife (s : State) (who : Requester) (o : Nat) : Word × State :=
  let l := s.life
  let h := histAt s (selOf s who (.life 0x0E)).toNat
  let k : Fin 256 := Fin.ofNat 256 (selOf s who (.life 0x08)).toNat
  let frac : BitVec 15 := if l.secTick = s.time.tick then 0 else freeVal s 15
  if o = 0x00 then
    (word (bitAt l.valid 23 + bitAt (lifeBusy s) 22 + bitAt l.empty 21 + bitAt l.torn 20) ||| reg s (.life 0x00), s)
  else if o = 0x01 then (l.lastN.setWidth 24, s)
  else if o = 0x02 then ((l.duty[(3 : Fin 64)]).setWidth 24, s)
  else if o = 0x03 then (word (bitAt l.calValid 0), s)
  else if o = 0x04 then
    (loWord l.cal, setCap (setCap (nextFree s) who (.life 0x05) (hiWord l.cal)) who (.life 0x06) (frac.setWidth 24))
  else if o = 0x05 then (hiWord l.cal, s)
  else if o = 0x06 then (frac.setWidth 24, nextFree s)
  else if o = 0x08 ∨ o = 0x0E then (selOf s who (.life o), s)
  else if o = 0x09 then ((l.binds[k]).setWidth 24, s)
  else if o = 0x0A then (loWord l.wear[k], setCap s who (.life 0x0B) (hiWord l.wear[k]))
  else if o = 0x0B then (hiWord l.wear[k], s)
  else if o = 0x0C then (0, s)
  else if o = 0x0D then (word (l.histLost.toNat * 2 ^ 16 + histCount s), s)
  else if o = 0x0F then (match h with
    | some e => e.boot.setWidth 24
    | none => 0, s)
  else if o = 0x10 then (match h with
    | some e => loWord e.cal
    | none => 0, s)
  else if o = 0x11 then (match h with
    | some e => hiWord e.cal
    | none => 0, s)
  else if o = 0x12 then (match h with
    | some e => word (bitAt e.calValid 0)
    | none => 0, s)
  else if 0x40 ≤ o ∧ o ≤ 0xBF then
    let d := l.duty[Fin.ofNat 64 ((o - 0x40) / 2)]
    if o % 2 = 0 then (loWord d, setCap s who (.life (o + 1)) (hiWord d)) else (hiWord d, s)
  else (reg s (.life o), s)

/-! ### Export -/

/-- R285: a record as 16 bytes. -/
def recBytes (r : Rec) (seq : Byte) : List Byte :=
  leBytes r.b.toNat 3 ++ leBytes r.a.toNat 3 ++ leBytes r.ts.toNat 6 ++ [seq] ++ leBytes r.src.toNat 2 ++ [r.typ]

/-- R303: the 32-byte format of a fault. -/
def faultBytes (r : Rec) (seq : Byte) (acked closed latched : Option Time) (exits : Nat) : List Byte :=
  let ended := match closed with
    | some t => t
    | none => latched.getD 0
  recBytes r seq ++ leBytes (acked.getD 0).toNat 6 ++ leBytes ended.toNat 6 ++
    [BitVec.ofNat 8 (bitAt acked.isSome 0 + bitAt closed.isSome 1 + bitAt latched.isSome 2), BitVec.ofNat 8 exits, 0, 0]

/-- R379: a history entry in the format of R303. -/
def histBytes (h : HistEntry) : List Byte := faultBytes h.body h.seq h.acked h.closed h.latched h.exits.toNat

/-- R379: an entry and its tag as 48 bytes. -/
def histTagged (h : HistEntry) : List Byte :=
  let body := histBytes h ++ leBytes h.boot.toNat 4 ++ leBytes h.cal.toNat 6 ++
    [BitVec.ofNat 8 (bitAt h.calValid 0), 0]
  body ++ leBytes (crc32c body).toNat 4

/-- R380: the exported image of a commit. -/
def exportImage (s : State) (w : CommitImg) : List Byte :=
  let hist := (s.life.histQueue.reverse ++ s.life.hist).take 1024
  let head := leBytes 3 2 ++ leBytes 1 2 ++ leBytes Config.serial.toNat 8 ++ leBytes s.sec.bankGen.toNat 2 ++
    leBytes (w.duty[(3 : Fin 64)]).toNat 4 ++ leBytes s.life.cal.toNat 6 ++ [BitVec.ofNat 8 (bitAt s.life.calValid 0)] ++
    leBytes 0 3 ++ leBytes w.n.toNat 4 ++ leBytes hist.length 2 ++ List.replicate 30 0
  let wear := (List.finRange 256).flatMap (fun k => leBytes (w.wear[k]).toNat 6 ++ leBytes (w.binds[k]).toNat 2)
  let duty := (List.finRange 64).flatMap (fun k => leBytes (w.duty[k]).toNat 6 ++ leBytes 0 2)
  let rows := hist.flatMap histTagged ++ List.replicate (48 * (1024 - hist.length)) 0
  let body := head ++ wear ++ duty ++ rows
  body ++ (Config.exportTail s.sec.exportKey body ++ List.replicate 192 0).take 192

/-! ### Monitors -/

/-- R381: the nominal of a rail monitor, in millivolts. -/
def railNominal (m : Nat) : Int :=
  if m = 8 then 800 else if m = 9 then 850 else if m = 10 then 1800 else if m = 11 then 3300 else if m = 12 then 1000
  else if m = 13 then 900 else if m = 14 then 1800 else 3000

/-- R381: a rail monitor, with its value in millivolts. -/
def isRail (m : Nat) : Bool := decide (8 ≤ m ∧ m ≤ 14 ∨ m = 19)

/-- R382: the hysteresis of a monitor, in the unit of its value. -/
def monHyst (m : Nat) : Int := if m < 8 then 32 else if isRail m then railNominal m / 100 else 10

/-- R388: the value of a monitor's coded reading. -/
def monValue (m : Nat) (v : Word) : Int :=
  if m < 8 then v.toInt else if isRail m then (fld v 15 0 : Int) else (v.setWidth 12).toInt

/-- R388: a coded reading: what a monitor's VAL holds. -/
def monCode (m : Nat) (v : Int) : Word :=
  let w := wordOfInt v
  if m < 8 then w else if isRail m then w &&& 0x00FFFF else if m ≤ 18 then w &&& 0x003FFF else w &&& 0x000FFF

/-- R388: the low threshold of a pair, none where it is off. -/
def thrLow (m : Nat) (p : Word) : Option Int :=
  let f := fld p 11 0
  if m < 8 then some (4 * (p.setWidth 12).toInt)
  else if isRail m then (if f = 0 then none else some f)
  else if f = 0x800 then none else some (p.setWidth 12).toInt

/-- R388: the high threshold of a pair, none where it is off. -/
def thrHigh (m : Nat) (p : Word) : Option Int :=
  let f := fld p 23 12
  let g : BitVec 12 := BitVec.ofNat 12 f
  if m < 8 then some (4 * g.toInt)
  else if isRail m then (if f = 4095 then none else some f)
  else if f = 0x7FF then none else some g.toInt

/-- R382: a value lies below a low threshold. -/
def isBelow (v : Int) (o : Option Int) : Bool := match o with
  | some t => decide (v < t)
  | none => false

/-- R382: a value lies above a high threshold. -/
def isAbove (v : Int) (o : Option Int) : Bool := match o with
  | some t => decide (t < v)
  | none => false

/-- R382: one sample of a threshold pair: the fourth in a row beyond it crosses, the fourth in a row inside it by the
hysteresis returns. -/
def threshSample (x : Thresh) (v hyst : Int) (lo hi : Option Int) : Thresh :=
  if x.crossed then
    let inside := !isBelow (v - hyst) lo && !isAbove (v + hyst) hi
    let n := if inside then x.backRun + 1 else 0
    if 4 ≤ n then ⟨0, 0, 0, false⟩ else { x with backRun := n }
  else
    let a := if isBelow v lo then x.loRun + 1 else 0
    let b := if isAbove v hi then x.hiRun + 1 else 0
    if 4 ≤ a ∨ 4 ≤ b then ⟨0, 0, 0, true⟩ else ⟨a, b, 0, false⟩

/-- R382: what a crossing raises. -/
def monCross (s : State) (m : Fin 24) (warn crit : Bool) : State :=
  let s1 := if warn then report (orReg s (.monitor 0x01) (2 ^ m.val)) 0x09 .chip m.val false else s
  if crit then report s1 0x2F .chip m.val false else s1

/-- R382: a sample of a monitor. Before the first entry to CONFIGURE the collector takes nothing. -/
def monSample (m : Fin 24) (reading : Int) (s : State) : State :=
  let w := monCode m.val reading
  let v := monValue m.val w
  let x := s.mons[m]
  let pw := reg s (.monitor (0x09 + 3 * m.val))
  let pc := reg s (.monitor (0x0A + 3 * m.val))
  let a := threshSample x.warn v (monHyst m.val) (thrLow m.val pw) (thrHigh m.val pw)
  let b := threshSample x.crit v (monHyst m.val) (thrLow m.val pc) (thrHigh m.val pc)
  let s1 := { s with mons := s.mons.set m (Monitor.mk w a b) }
  if alive s then monCross s1 m (a.crossed && !x.warn.crossed) (b.crossed && !x.crit.crossed) else s1

/-- R382: monitors run in every mode but RETENTION. -/
def monsOn (s : State) : Bool := decide (s.sys.mode ≠ .retention) && !s.time.clk.coreLost

/-- TEMPERATURE_SAMPLE (R382): the reading in sixteenths of a degree. -/
def doTemperatureSample (m : Fin 24) (r : Int) (s : State) : State :=
  if monsOn s && decide (m.val < 8) then monSample m r s else s

/-- VOLTAGE_SAMPLE (R381, R382): the reading as MONm_VAL codes it. -/
def doVoltageSample (m : Fin 24) (r : Int) (s : State) : State :=
  if monsOn s && decide (8 ≤ m.val ∧ m.val < 20) then monSample m r s else s

/-- R384: a region's calibration is held. -/
def calHeld (s : State) (r : Fin 4) : Bool :=
  regBit s (.monitor 0x00) 0 || decide (s.sys.mode = .powerFail) || s.mons[Fin.ofNat 24 (20 + r.val)].crit.crossed

/-- CALIBRATION_PASS (R382, R384): the process monitor samples, and a pass that is not held is counted. -/
def doCalibrationPass (r : Fin 4) (v : Int) (s : State) : State :=
  if !monsOn s then s
  else
    let s1 := monSample (Fin.ofNat 24 (20 + r.val)) v s
    if calHeld s1 r then s1
    else setReg s1 (.monitor 0x03) (setFld (reg s1 (.monitor 0x03)) 23 8 (regFld s1 (.monitor 0x03) 23 8 + 1))

/-- R382: at the entry to CONFIGURE after BOOT, a monitor already beyond a threshold crosses it. -/
def monEntry (s : State) : State :=
  (List.finRange 24).foldl (fun (z : State) (m : Fin 24) =>
    let x := z.mons[m]
    let v := monValue m.val x.last
    let out := fun (o : Nat) =>
      let p := reg z (.monitor (o + 3 * m.val))
      isBelow v (thrLow m.val p) || isAbove v (thrHigh m.val p)
    let w := x.warn.crossed || out 0x09
    let c := x.crit.crossed || out 0x0A
    let on : Thresh := ⟨0, 0, 0, true⟩
    let y : Monitor := ⟨x.last, if w then on else x.warn, if c then on else x.crit⟩
    monCross { z with mons := z.mons.set m y } m w c) s

/-- R387, R388: a read of a monitor parameter. -/
def readMonitor (s : State) (o : Nat) : Word :=
  if o = 0x02 then word ((List.finRange 24).foldl (fun a m => a + bitAt s.mons[m].crit.crossed m.val) 0)
  else if o = 0x03 then
    (reg s (.monitor 0x03) &&& 0xFFFF00) |||
      word ((List.finRange 4).foldl (fun a r => a + bitAt (calHeld s r) r.val) 0)
  else if o = 0x04 then wordOfInt (tempMax s)
  else if 0x08 ≤ o ∧ o ≤ 0x4F ∧ (o - 8) % 3 = 0 then s.mons[Fin.ofNat 24 ((o - 8) / 3)].last
  else reg s (.monitor o)

/-- R388: a threshold pair that a write may not give: LOW above HIGH, both being on. -/
def thrBad (m : Nat) (p : Word) : Bool :=
  match thrLow m p, thrHigh m p with
  | some a, some b => decide (b < a)
  | _, _ => false

end Sys2Proof.Machine
end

