-- ==== Sys2Proof/Machine/Modes.lean ====
section
/-!
DEFINITION. Clocks (01_architecture_and_timebase.md R24 to R29) and the changes of operating mode outside BOOT
(12_modes_and_startup.md R326 to R329, R340 to R347).
-/
namespace Sys2Proof.Machine

/-! ### Clocks -/

/-- The clock tree after a change of it. -/
def updClk (s : State) (f : Clock → Clock) : State := { s with time := { s.time with clk := f s.time.clk } }

/-- R25, R41: the standby PLL runs. -/
def standbyEn (s : State) : Bool := regBit s (.chip 0x21) 1

/-- R24, R41, R300, R375: a PLL switchover: the PLLs change places, and it is counted and logged. -/
def switchover (s : State) : State :=
  let s1 := updClk s (fun c =>
    { c with pll1Active := !c.pll1Active, activeLock := c.standbyLock, standbyLock := c.activeLock })
  report (dutyAdd (bump s1 (.chip 0x22) 23 16 1) 41 1) 0x06 .chip 1 false

/-- R24: a switchover that the host requests: carried out where the standby PLL is locked. -/
def requestSwitch (s : State) : State :=
  if s.time.clk.standbyLock then switchover s else orReg s (.chip 0x22) 0x10

/-- R24, R41: PLL_CTRL in the tick after its write: SWITCH requests a switchover; STANDBY_EN = 0 stops the standby. -/
def writePllCtrl (s : State) (v : Word) : State × Status :=
  let s1 := setReg (if bit v 0 then inTick s 1 requestSwitch else s) (.chip 0x21) (v &&& 2)
  (if bit v 1 then s1 else updClk s1 (fun c => { c with standbyLock := false }), .ok)

/-- R40, R343: CLK_CFG: another core clock makes the standby PLL retune. -/
def writeClkCfg (s : State) (v : Word) : State × Status :=
  if (bit v 0 && !Config.gradeEB) || decide (1 < fld v 2 1) then (s, .addrInvalid)
  else
    let turn := decide (bit v 0 ≠ regBit s (.chip 0x20) 0)
    let s1 := setReg s (.chip 0x20) (v &&& 7)
    (if turn then updClk s1 (fun c => { c with standbyLock := false }) else s1, .ok)

/-- ACTIVE_LOCK_LOSS (R24). -/
def doActiveLockLoss (s : State) : State :=
  if alive s && s.time.clk.activeLock then switchover (updClk s (fun c => { c with activeLock := false })) else s

/-- R343: the second switchover that a changed core clock can need. -/
def secondSwitchover (s : State) : State :=
  if s.sys.secondSwitch then switchover { s with sys := { s.sys with secondSwitch := false } } else s

/-- STANDBY_LOCK (R25, R343): the standby PLL locks, or loses lock. -/
def doStandbyLock (gain : Bool) (s : State) : State :=
  let c := s.time.clk
  if gain then
    if alive s && !c.standbyLock && c.refOk && standbyEn s then
      secondSwitchover (updClk s (fun x => { x with standbyLock := true })) else s
  else if alive s && c.standbyLock then
    report (updClk s (fun x => { x with standbyLock := false })) 0x06 .chip 2 false
  else s

/-- REFERENCE_LOST (R26, R42). The standby PLL counts as not locked; PLL_STAT.ACTIVE_LOCK keeps its value in holdover, which
the spec leaves open (log entry 99). -/
def doReferenceLost (s : State) : State :=
  if alive s && s.time.clk.refOk then
    let s1 := updClk s (fun c => { c with refOk := false, holdover := true, standbyLock := false })
    report (bump s1 (.chip 0x23) 23 8 1) 0x06 .chip 3 false
  else s

/-- REFERENCE_RETURN (R26). -/
def doReferenceReturn (s : State) : State :=
  if alive s && !s.time.clk.refOk then
    report (updClk s (fun c => { c with refOk := true, holdover := false })) 0x06 .chip 4 false
  else s

/-- CORE_CLOCK_LOST (R27, R326): outputs safe and FAULT_N asserted until PWR_OK falls; the fault history takes its entry
at the next boot, with the line time of the loss. -/
def doCoreClockLost (s : State) : State :=
  if decide (s.sys.mode = .retention) || s.time.clk.coreLost then s
  else
    let s1 := updClk s (fun c => { c with coreLost := true })
    { s1 with boot := { s1.boot with clkLost := some (now s) } }

/-- R41: PLL_STAT. -/
def pllStat (s : State) : Word :=
  let c := s.time.clk
  word (bitAt c.holdover 3 + bitAt c.standbyLock 2 + bitAt c.activeLock 1 + bitAt c.pll1Active 0) |||
    (reg s (.chip 0x22) &&& 0xFF0010)

/-- R29, R37: LT_PRESET_HI: line time holds the pair from the next tick on. -/
def writePresetHi (s : State) (low v : Word) : State × Status :=
  let s1 := setReg (setReg s (.chip 0x26) low) (.chip 0x27) v
  ({ s1 with time := { s1.time with preset := some (mkTime v low) } }, .ok)

/-! ### Into and out of CONFIGURE -/

/-- R340: an edge on its way to the ball that an entry to CONFIGURE cancels or cuts: a timed one, or one of an angle
occurrence. -/
def cutOut (o : OutEdge) : Bool :=
  match o.note with
  | .compare _ v _ _ _ => timedOwner v.owner
  | .start _ => true
  | .finish _ => true
  | _ => false

/-- R340: a timed edge or pulse that has not ended is cancelled, with STARTED where its rise has appeared; an edge of it that
has not appeared is not placed. -/
def cutTimed (s : State) (c : Fin 512) : State :=
  let one := fun (z : State) (u : CmpUnit) =>
    let v := cmpOf z.cells[c] u
    if v.armed && timedOwner v.owner then disarm z c u 0x01 else z
  let kept := (outsOf s c).filter (fun o => !cutOut o)
  let s1 := { s with agenda := { s.agenda with outs := s.agenda.outs.filter (fun o => decide (o.cell ≠ c) || cutOut o) } }
  let s2 := dropOuts s1 c 0x01
  one (one { s2 with agenda := { s2.agenda with outs := s2.agenda.outs ++ kept } } .a) .b

/-- R340, R213, R214, R233: what a later entry to CONFIGURE does to the units. -/
def configureUnits (s : State) : State :=
  let s1 := (List.finRange 512).foldl cutTimed s
  let s2 := emptyTables s1 0x01
  let s3 := (List.finRange 32).foldl pewterRestart s2
  (List.finRange 64).foldl (fun z w => if regBit z (.comp w 0x0) 0 then preload w z else z) s3

/-- R326, R340: a later entry to CONFIGURE. -/
def enterConfigure (s : State) : State := configureUnits (setMode s .configure 0x02)

/-- R343: the switchover that is due at the transition out of CONFIGURE. -/
def switchDue (s : State) : Bool :=
  decide (regBit s (.chip 0x20) 0 ≠ s.sys.core640) || decide ((regFld s (.chip 0x20) 2 1 = 1) ≠ s.time.clk.pll1Active)

/-- R343: CLK_CFG takes effect at the transition out of CONFIGURE. -/
def leaveConfigure (s : State) : State :=
  let want := regBit s (.chip 0x20) 0
  let pref := decide (regFld s (.chip 0x20) 2 1 = 1)
  if want ≠ s.sys.core640 then
    let s1 := updClk (switchover s) (fun c => { c with standbyLock := false })
    timeStep { s1 with sys := { s1.sys with core640 := want, secondSwitch := decide (s1.time.clk.pll1Active ≠ pref) } }
  else if s.time.clk.pll1Active ≠ pref then switchover s
  else s

/-- R342: pins leave their safe drive, and arming is accepted, in the tick after the transition. -/
def startRun (s : State) : State := updFlt s (fun c => { c with leaving := .chip :: c.leaving })

/-- R342: a cell of a carrier that counts stays at its safe drive until the carrier's next period start. -/
def awaitPeriods (s : State) : State :=
  let ks := (List.finRange 32).map Carrier.block ++ (List.finRange 4).map Carrier.gang
  ks.foldl (fun z k =>
    if (carrier z k).running then
      (carrierCells z k).foldl (fun y c => updCell y c (fun x => { x with pwmWait := some s.time.tick })) z
    else z) s

/-- R341: the hottest reading that allows RUN, in sixteenths of a degree: 115 °C, or at 640 MHz the grade's maximum. -/
def tempLimit (s : State) : Int := if regBit s (.chip 0x20) 0 && Config.gradeEB then 2000 else 1840

/-- R341, R347: the first check that fails for RUN; a fault of the present tick counts as one in force. -/
def runCheck (s : State) : Option Nat :=
  if !s.flt.scopes.isEmpty || faultNow s .chip then some 0x01
  else if !s.time.clk.activeLock || (switchDue s && !s.time.clk.standbyLock) then some 0x02
  else if tempLimit s < tempMax s then some 0x03
  else if regBit s (.link 0x00) 0 && !s.elc.aligned then some 0x04
  else none

/-- R326, R341, R342: REQUEST_MODE with target RUN: status and Value B. -/
def requestRun (s : State) : State × Status × Word :=
  match s.sys.mode with
  | .run => (s, .ok, 0)
  | .degraded => (s, .ok, 0)
  | .configure =>
    match runCheck s with
    | some k => (s, .checkFail, word k)
    | none =>
      let s1 := leaveConfigure s
      (awaitPeriods (startRun (setMode s1 (runMode s1) 0x02)), .ok, 0)
  | _ => (s, .modeRefused, 0)

/-- R326, R340, R344: REQUEST_MODE with target CONFIGURE. -/
def requestConfigure (s : State) : State × Status × Word :=
  match s.sys.mode with
  | .configure => (s, .ok, 0)
  | .run => (enterConfigure s, .ok, 0)
  | .degraded => (enterConfigure s, .ok, 0)
  | .safeHold => (enterConfigure s, .ok, 0)
  | .service => if s.sec.stage = .written then (s, .checkFail, 0x05) else (enterConfigure s, .ok, 0)
  | _ => (s, .modeRefused, 0)

/-- R326, R343, R344: REQUEST_MODE with target SERVICE. -/
def requestService (s : State) : State × Status × Word :=
  match s.sys.mode with
  | .service => (s, .ok, 0)
  | .configure => (setMode (leaveConfigure s) .service 0x02, .ok, 0)
  | _ => (s, .modeRefused, 0)

/-! ### HALT -/

/-- R345, R366: debug access: DEVELOPMENT with an accepted certificate. -/
def debugAllowed (s : State) : Bool := decide (s.sec.lc = .development) && s.sec.debugOk

/-- R298: a violation of the debug port; the fields that no rule gives are free values. -/
def debugViolation (s : State) (code : Nat) : State :=
  let f := freeVal s 7
  violation (nextFree (nextFree s)) (freeVal (nextFree s) 32).toNat 4 (fld f 3 0) (fld f 6 4) 0 code 0

/-- R345: the modes that a debug halt can be accepted in. -/
def haltable (m : Mode) : Bool :=
  decide (m = .configure ∨ m = .run ∨ m = .degraded ∨ m = .safeHold ∨ m = .service)

/-- DEBUG_HALT (R164, R215, R345). A refused request's violation code is a free value. -/
def doDebugHalt (s : State) : State :=
  if decide (s.sys.mode = .retention) || s.time.clk.coreLost then s
  else if !(debugAllowed s && haltable s.sys.mode) then debugViolation (nextFree s) (freeVal s 8).toNat
  else
    let hold := fun (c : CarrierSt) => if c.running then { c with frozen := some (carCountAt c s.time.tick) } else c
    setMode { s with sys := { s.sys with left := s.sys.mode, haltTick := s.time.tick }
                     sup := { s.sup with halted := true }
                     bcar := s.bcar.map hold, gcar := s.gcar.map hold } .halt 0x08

/-- R164: when HALT ends in tick `h`, a carrier counts on, `n` ticks later; one that was enabled in HALT starts in the tick
after. -/
def shiftCarrier (h n : Nat) (c : CarrierSt) : CarrierSt :=
  if c.running && c.frozen.isSome then
    if c.start.isNone && c.next.isNone && !c.wait then { c with frozen := none, next := some (h + 1) }
    else
      { c with frozen := none, start := c.start.map (· + n), next := c.next.map (· + n),
               ctrigs := c.ctrigs.map (fun t => (t.1 + n, t.2)) }
  else c

/-- R215: an engine steps on with its divider's spacing, `n` ticks later. -/
def shiftPewter (n : Nat) (p : Pewter) : Pewter :=
  { p with nextStep := p.nextStep.map (· + n), waitFrom := p.waitFrom.map (· + n) }

/-- R345: a block sequencer goes on from where it stopped, `n` ticks later, its watchdog count kept. -/
def shiftBlock (n : Nat) (b : Block) : Block :=
  { b with run := b.run.map (fun r => { r with readyAt := r.readyAt + n, firstAt := r.firstAt + n })
           freeAt := b.freeAt + n
           timerNext := b.timerNext.map (· + n) }

/-- DEBUG_RESUME (R164, R215, R345). -/
def doDebugResume (s : State) : State :=
  if !(decide (s.sys.mode = .halt) && debugAllowed s) then s
  else
    let n := s.time.tick - s.sys.haltTick
    let wasRun := decide (s.sys.left = .run ∨ s.sys.left = .degraded)
    let target := if wasRun && inFault s .chip then Mode.safeHold else s.sys.left
    let s1 := { s with
      sup := { s.sup with halted := false }
      host := { s.host with watchdogFrom := s.host.watchdogFrom + n }
      bcar := s.bcar.map (shiftCarrier s.time.tick n)
      gcar := s.gcar.map (shiftCarrier s.time.tick n)
      pes := s.pes.map (shiftPewter n)
      blks := s.blks.map (shiftBlock n)
      cells := s.cells.map (fun c => { c with pwmEdges := c.pwmEdges.map (fun e => (e.1 + 16 * n, e.2)) }) }
    setMode s1 target 0x09

/-! ### POWER-FAIL -/

/-- R378: the power-fail commit: the periodic commit that was writing is stopped, and its slot is rewritten. -/
def powerCommit (s : State) : State := updLife (beginCommit s) (fun l => { l with writeIsPowerFail := true })

/-- POWER_FAIL (R215, R325, R330, R346, R347, R378): PFW_N is low, or a supply is below its threshold. Engines that a HALT held
step on. -/
def doPowerFail (cause : PowerCause) (s : State) : State :=
  if decide (s.sys.mode = .retention ∨ s.sys.mode = .powerFail) || s.time.clk.coreLost then s
  else
    let s1 := raiseIrq { s with sys := { s.sys with mode := .powerFail }
                                pins := { s.pins with pfwN := decide (cause ≠ .pfwN) } } 4
    let stop := fun (b : Block) => { b with run := none, queues := Vector.replicate 20 [], timerNext := none }
    let held := if s.sys.mode = .halt then s.time.tick - s.sys.haltTick else 0
    let s2 := { s1 with blks := s1.blks.map stop, pes := s1.pes.map (shiftPewter held) }
    if s.sys.mode = .boot then s2 else powerCommit (dutyAdd s2 4 1)

end Sys2Proof.Machine
end

