-- ==== Sys2Proof/Machine/Boot.lean ====
section
/-!
DEFINITION. Boot, power and RETENTION (12_modes_and_startup.md R332 to R339, R344, R346), life-cycle, secure bank, tamper,
debug certificate, boundary scan, scrubbing (13_memory_and_security.md R353 to R369).
-/
namespace Sys2Proof.Machine

/-! ### The secure bank -/

/-- The security part after a change of it. -/
def updSec (s : State) (f : Secure → Secure) : State := { s with sec := f s.sec }

/-- R364, R369: a wipe: the bank is zero, the cause and the calendar time are recorded. Without main power the duty counter
takes it at the next boot. -/
def wipeBank (s : State) (cause : Nat) : State :=
  let st := reg s (.chip 0x44)
  let seen := if cause ≤ 4 then 2 ^ (cause - 1) else if cause = 5 then 0x10 else 0
  let st1 := setFld (setFld st 23 16 (satAdd 8 (fld st 23 16) 1)) 11 8 cause ||| word seen
  let s1 := setReg (setReg (setReg s (.chip 0x44) st1) (.chip 0x45) (loWord s.life.cal)) (.chip 0x46) (hiWord s.life.cal)
  let s2 := updSec s1 (fun x => { x with bankValid := false, rebuild := true, floor := 0 })
  if alive s then dutyAdd s2 42 1 else updSec s2 (fun x => { x with wipesOff := x.wipesOff + 1 })

/-- SECURE_BANK_REBUILD (R364, R360): Ulueth restores the floor and makes a new export key. -/
def doSecureBankRebuild (s : State) : State :=
  if alive s && s.sec.rebuild then
    updSec s (fun x =>
      { x with bankValid := true, rebuild := false, bankGen := x.bankGen + 1, floor := x.rollback,
               exportKey := x.exportKey + 1 })
  else s

/-- R369: the mode of a tamper input: active high or active low. -/
def tamperArmed (s : State) (c : TamperCause) : Bool :=
  match c with
  | .input n =>
    let m := regFld s (.chip 0x43) (2 * n.val + 1) (2 * n.val)
    decide (m = 1 ∨ m = 2)
  | .mesh => regBit s (.chip 0x43) 8

/-- TAMPER (R365): in every mode, RETENTION included. -/
def doTamper (c : TamperCause) (s : State) : State :=
  if tamperArmed s c then
    wipeBank s (match c with
      | .input n => n.val + 1
      | .mesh => 5)
  else s

/-- VBAT_LOSS (R364, R368, R370): with main power absent the battery domain loses all supply. -/
def doVbatLoss (s : State) : State :=
  if s.sys.mode ≠ .retention then s
  else
    let s1 := [0x43, 0x44, 0x45, 0x46].foldl (fun z o => setReg z (.chip o) 0) s
    let s2 := updLife (setWork (setReg s1 (.life 0x07) 0) (.life 0x07) 0) (fun l =>
      { l with cal := 0, secTick := s.time.tick, calValid := false, trim := 0 })
    updSec s2 (fun x => { x with bankValid := false, bankGen := 0, floor := 0 })

/-! ### Images -/

/-- R359: the header of a firmware image and the outcome of its checks. -/
def imageInfo (bs : List Byte) : ImageInfo :=
  let at_ := fun (o n : Nat) => leNat ((bs.drop o).take n)
  let len := at_ 12 4
  let whole := (bs ++ List.replicate (224 + len) 0).take (224 + len)
  { version := BitVec.ofNat 32 (at_ 4 4), patch := BitVec.ofNat 16 (at_ 8 2), rollback := at_ 10 1,
    lcMask := BitVec.ofNat 8 (at_ 11 1), tooLarge := decide (len % 16 ≠ 0 ∨ 1536 * 1024 < 224 + len),
    signed := Config.authentic whole Config.rootKey, decrypts := Config.decrypts whole }

/-- R356: the code of a life-cycle state. -/
def lcCode (l : LifeCycle) : Nat :=
  match l with
  | .blank => 0
  | .development => 1
  | .production => 2
  | .returned => 3
  | .decommissioned => 4

/-- R335, R337, R359, R360: the RESULT of the first check that an image fails. -/
def imageResult (s : State) (i : ImageInfo) : Option Byte :=
  if i.tooLarge then some 0x08
  else if !i.signed then some 0x04
  else if !i.decrypts then some 0x05
  else if i.rollback < s.sec.rollback then some 0x06
  else if !bit i.lcMask (lcCode s.sec.lc) then some 0x07
  else none

/-- R344, R359: the bytes of staged firmware in the boot flash. -/
def stagedBytes (s : State) : List Byte :=
  let n := match s.sec.flash.getLast? with
    | some c => c.1 + 1
    | none => 0
  (List.range n).map (fun a => memGet (zeroMem 8) s.sec.flash a)

/-! ### The boot flow -/

/-- The boot part after a change of it. -/
def updBoot (s : State) (f : Boot → Boot) : State := { s with boot := f s.boot }

/-- R337: an image is tried. -/
def tryImage (s : State) (i : ImageInfo) (from_ : Boot → Boot) : State × Bool :=
  let n := BitVec.ofNat 8 (satAdd 8 s.boot.attempts.toNat 1)
  match imageResult s i with
  | none =>
    (updBoot s (fun b => from_ { b with attempts := n, result := 0, phase := 8, flow := .ready i, version := i.version,
                                        patch := i.patch }), true)
  | some r => (updBoot s (fun b => { b with attempts := n, result := r }), false)

/-- R335, R336, R338: no image of the flash is usable. -/
def noFlashImage (s : State) : State :=
  match s.host.transport with
  | .pcie => updBoot s (fun b => { b with flow := .waiting, hostWait := true, phase := 6 })
  | .spi => updBoot s (fun b => { b with flow := .failed })

/-- R335: the current image, else what R336 or R338 gives. -/
def tryCurrent (s : State) : State :=
  match s.boot.find.current with
  | none => noFlashImage (updBoot s (fun b => { b with result := 3 }))
  | some i =>
    let r := tryImage s i (fun b => b)
    if r.2 then r.1 else noFlashImage r.1

/-- R335: the staged image first, when it is marked. One that verifies becomes the current image. -/
def tryImages (s : State) : State :=
  if !s.sec.mark then tryCurrent s
  else
    let i := imageInfo (stagedBytes s)
    let r := tryImage (updSec s (fun x => { x with mark := false })) i (fun b =>
      { b with staged := true, find := { b.find with current := some i } })
    if r.2 then updSec r.1 (fun x => { x with stage := .none, flash := [] })
    else tryCurrent (updBoot r.1 (fun b => { b with fallback := true }))

/-- R334: the ticks in which the steps 1 to 5 of a boot that begins in the present tick end, each with the phase that follows:
free values within the bounds of the steps (log entry 47). -/
def bootTicks (s : State) : List (Nat × Byte) :=
  let rise := s.time.tick
  let step := fun (l : List (Nat × Byte)) (x : Nat × Nat × Byte) =>
    let last := ((l.getLast?).map (·.1)).getD rise
    l ++ [(last + 1 + (Config.freeValue (s.freshN + x.1)).toNat % (rise + x.2.1 - last), x.2.2)]
  [(0, 800000, 2), (1, 16000000, 3), (2, 17600000, 4), (3, 64000000, 5), (4, 136000000, 8)].foldl step []

/-- R334, R344, R346: the device in reset at the start of a boot: every part at its reset value but the battery domain, the
stored lifetime slots and history, fuses, keys, flash, the secure bank, the transport, and what the balls carry. -/
def coldState (s : State) : State :=
  let r := State.reset
  let batt := fun (z : State) (o : Nat) => setReg z (.chip o) (reg s (.chip o))
  let l := s.life
  let base : State :=
    { r with
      pending := s.pending
      freshN := s.freshN + 5
      time := { r.time with
        tick := s.time.tick, upSec := 0, clk := { r.time.clk with activeLock := false, standbyLock := false } }
      pins := { s.pins with lines := [], zioOld := [] }
      sys := { r.sys with mode := .boot, left := .boot, seq := 0, vio := s.boot.find.vio }
      host := { r.host with
        transport := s.host.transport, busMaster := s.host.busMaster, msixFnMask := s.host.msixFnMask
        irqStat := 0, bus := s.host.bus }
      life := { r.life with
        cal := l.cal, secTick := l.secTick, calValid := l.calValid, trim := l.trim, slotA := l.slotA, slotB := l.slotB,
        hist := l.hist, histLost := l.histLost, histQueue := [], duty := Vector.replicate 64 0, writing := none,
        lastN := 0, valid := false }
      mons := s.mons.map (fun m => { m with warn := ⟨0, 0, 0, false⟩, crit := ⟨0, 0, 0, false⟩ })
      boot := { r.boot with rise := s.time.tick, flow := .early, phase := 1, attempts := 0, version := 0,
                            find := s.boot.find, clkLost := s.boot.clkLost, lineOn := false,
                            steps := bootTicks s }
      sec := { s.sec with job := none, bsr := s.sec.bsr, scrub := [], scrubDone := [] } }
  let trim := reg s (.life 0x07)
  setWork (setReg ([0x43, 0x44, 0x45, 0x46].foldl batt base) (.life 0x07) trim) (.life 0x07) (work s (.life 0x07))

/-- R28, R334 step 1: the active PLL first reports lock: line time starts at 0. -/
def startLine (s : State) : State :=
  { updBoot s (fun b => { b with lineOn := true }) with
    time := { s.time with lt := 0, clk := { s.time.clk with activeLock := true, standbyLock := true } } }

/-- R334 step 3, R364: a secure bank whose integrity check fails after a loss of VBAT is wiped, once. -/
def checkBank (s : State) : State :=
  if s.boot.find.bankIntact then s
  else updBoot (wipeBank s 8) (fun b => { b with find := { b.find with bankIntact := true } })

/-- R28, R334, R338: at the start of a tick: a step of the boot flow that ends. After step 1 line time starts; after step 3 a
decommissioned device has failed; after step 4 the images are tried. -/
def bootStep (s : State) : State :=
  match s.boot.steps with
  | [] => s
  | (n, p) :: l =>
    if !(decide (s.sys.mode = .boot) && decide (n ≤ s.time.tick)) then s
    else
      let s1 := updBoot s (fun b => { b with steps := l, phase := p })
      if p = 2 then startLine s1
      else if p = 4 then
        let s2 := checkBank s1
        if s.sec.lc = .decommissioned then updBoot s2 (fun b => { b with steps := [], phase := 3, flow := .failed, result := 7 })
        else s2
      else if p = 8 then tryImages (updBoot s (fun b => { b with steps := l }))
      else s1

/-- R144, R334 step 6: the trap pairs that the boot firmware sets in every block: at most 32, within Ronarna's words; a patch
level of 0 has none (log entry 6). -/
def loadTraps (s : State) : State :=
  let l := if s.boot.patch = 0 then []
    else ((Config.patchTraps s.boot.version s.boot.patch).filter (fun p => decide (p.1.toNat < 0xC00 ∧ p.2.toNat < 0xC00))).take 32
  { s with blks := s.blks.map (fun k => { k with traps := l }) }

/-- R28, R334: BOOT is entered. -/
def enterBoot (s : State) : State := coldState s

/-- PWR_OK_RISE (R271, R334, R393): what the device finds outside is the operand. -/
def doPwrOkRise (f : BootFind) (s : State) : State :=
  if s.sys.mode ≠ .retention then s
  else
    let s1 := { s with
      pins := { s.pins with pwrOk := true, pfwN := true }
      host := { s.host with transport := if f.spi then .spi else .pcie, busMaster := false, msixFnMask := false }
      boot := { s.boot with find := f } }
    enterBoot s1

/-- R336, R339: H_HOST_CTRL.IMAGE_READY set in BOOT: the image in the host area of ring memory is tried. -/
def imageReadySet (s : State) : State :=
  match s.boot.flow with
  | .waiting =>
    let i := imageInfo (ringBytes s 0x010000 (1536 * 1024))
    let r := tryImage s i (fun b => { b with source := true })
    if r.2 then { r.1 with host := { r.1.host with hostCtrl := r.1.host.hostCtrl ||| 0x100 } }
    else { updBoot r.1 (fun b => { b with phase := 6 }) with
      host := { s.host with hostCtrl := s.host.hostCtrl &&& 0xFFFFFEFF } }
  | _ => s

/-- R377: the slot that the store gives at boot, whether neither checks, and whether the later one failed. A slot whose
commit did not end has no content that checks; the commit it was to hold was the later one. -/
def openStore (l : Life) : Option CommitImg × Bool × Bool :=
  match l.slotA, l.slotB with
  | none, none => (none, true, false)
  | some a, none => (some a, false, decide (a.n ≠ 0))
  | none, some b => (some b, false, true)
  | some a, some b => (some (if 0 < (b.n - a.n).toInt then b else a), false, false)

/-- R375 to R379: the lifetime store at the entry to CONFIGURE from BOOT. -/
def bootLife (s : State) : State :=
  let o := openStore s.life
  let w := o.1.getD ⟨0xFFFFFFFF, Vector.replicate 256 0, Vector.replicate 256 0, Vector.replicate 64 0⟩
  let s1 := updLife s (fun l =>
    { l with wear := w.wear, binds := w.binds, duty := w.duty, lastN := w.n, valid := o.1.isSome, empty := o.2.1, torn := o.2.2 })
  let s2 := dutyAdd (dutyAdd s1 3 1) 42 s1.sec.wipesOff
  let s3 := match s2.boot.clkLost with
    | some t => histPush s2 ⟨0x05, 4 * 8192, t, word (0x2A * 2 ^ 16 + 4 * 2 ^ 13 + 4 * 2 ^ 10 + 0x3F), 0⟩
    | none => s2
  let s4 := requestCommit s3
  if o.2.1 || o.2.2 then lifetimeErr s4 else s4

/-- R360: an image with a ROLLBACK above the floor raises the rollback counter. -/
def raiseFloor (s : State) (n : Nat) : State :=
  updSec s (fun x => { x with rollback := max x.rollback (min 32 n), floor := max x.rollback (min 32 n), wipesOff := 0 })

/-- BOOT_DONE (R326, R330, R334 steps 6 and 7, R377, R382). The PLLs have locked by then. -/
def doBootDone (s : State) : State :=
  match s.boot.flow with
  | .ready i =>
    if s.sys.mode ≠ .boot || s.time.clk.coreLost then s
    else
      let ms := BitVec.ofNat 16 (min 0xFFFF ((s.time.tick - s.boot.rise) / 800000))
      let s0 := loadTraps (if s.boot.lineOn then s else startLine s)
      let s1 := setMode { s0 with host := { s0.host with hostCtrl := 0 } } .configure 0x01
      let s2 := updBoot (bootLife s1) (fun b => { b with flow := .stopped, phase := 9, bootMs := ms, clkLost := none })
      monEntry (raiseFloor s2 i.rollback)
  | _ => s

/-- BOOT_STOP (R338): RESULT names the cause: a PLL or BIST failure found by the boot ROM, or the failure the flow has
already met. -/
def doBootStop (cause : Byte) (s : State) : State :=
  if s.sys.mode ≠ .boot || s.time.clk.coreLost then s
  else
    let found := decide (cause = 1 ∨ cause = 2) || (decide (s.boot.flow = .failed) && decide (cause = s.boot.result))
    if found && decide (s.boot.flow ≠ .stopped) then
      updBoot s (fun b => { b with flow := .stopped, result := cause, bistFail := decide (cause = 2), steps := [] })
    else s

/-- R215, R326, R366: RETENTION: main power is gone. A commit that was writing leaves its slot without a CRC that checks, and
working registers are lost; the engines hold reset state. -/
def doPwrOkFall (s : State) : State :=
  if s.sys.mode = .retention then s
  else
    let s1 := match s.life.writing with
      | some w => updLife s (fun l => { putSlot l w.n none with writing := none })
      | none => s
    { s1 with
      pins := { s1.pins with pwrOk := false, lines := [] }
      agenda := agendaReset
      pes := Vector.replicate 32 pewterReset
      sys := { s1.sys with mode := .retention }
      time := { s1.time with clk := { s1.time.clk with coreLost := false } }
      sec := { s1.sec with debugOk := false, job := none } }

/-- R381, R382: a monitor reads outside its fault thresholds. -/
def monBeyond (s : State) (m : Fin 24) : Bool :=
  let p := reg s (.monitor (0x0A + 3 * m.val))
  let v := monValue m.val s.mons[m].last
  isBelow v (thrLow m.val p) || isAbove v (thrHigh m.val p)

/-- POWER_FAIL_RECOVERY (R346): the commit has ended, PWR_OK is high, PFW_N is high again and every monitor is in range. -/
def doPowerFailRecovery (s : State) : State :=
  if decide (s.sys.mode = .powerFail) && s.life.writing.isNone && s.pins.pwrOk &&
      !(List.finRange 24).any (monBeyond s) then
    enterBoot { s with pins := { s.pins with pfwN := true } }
  else s

/-- R344, R358: what an accepted ACTIVATE_FIRMWARE or ADVANCE_LIFECYCLE does after its lifetime commit. -/
def runJob (s : State) : State :=
  match s.sec.job with
  | none => s
  | some .firmware => enterBoot (updSec s (fun x => { x with mark := true }))
  | some (.lifecycle target key) =>
    let s1 := wipeBank s 6
    enterBoot (updSec s1 (fun x => { x with lc := target, keyHash := match key with
      | some k => some k
      | none => x.keyHash }))

/-- LIFETIME_COMMIT_END (R376, R378, R344): after the snapshot tick. The wipe of a life-cycle change is counted after the commit, so the next boot
counts it. -/
def doLifetimeCommitEnd (ok : Bool) (s : State) : State :=
  if decide (s.sys.mode = .retention) || s.time.clk.coreLost || s.life.writing.isNone ||
      decide (s.time.tick ≤ s.life.writeTick) then s
  else
    let s1 := endCommit ok s
    if s1.sec.job.isSome && s1.life.writing.isNone then runJob s1 else s1

/-! ### Debug certificate and boundary scan -/

/-- R357, R366: a field of a certificate, most significant byte first. -/
def certField (bs : List Byte) (o n : Nat) : Nat := beAt bs o n

/-- R357: the certificate's SERIAL names this device. -/
def certSerial (bs : List Byte) : Bool := decide (certField bs 4 8 = Config.serial.toNat)

/-- R357: SIGNER_KEY's digest. -/
def certSigner (bs : List Byte) : BitVec 384 := Config.sha384 ((bs.drop 68).take 96)

/-- R366: the acceptance of a debug certificate. -/
def certDebugOk (s : State) (bs : List Byte) : Bool :=
  decide (bs.length = 260) && decide (s.sec.lc = .development) && decide (certField bs 0 2 = 2) && certSerial bs &&
    (match s.sec.keyHash with
      | some k => decide (certSigner bs = k) && Config.authentic bs k
      | none => false) &&
    s.life.calValid && decide (s.life.cal.toNat ≤ certField bs 12 6)

/-- DEBUG_CERTIFICATE (R366). -/
def doDebugCertificate (bs : List Byte) (s : State) : State :=
  if decide (s.sys.mode = .retention) || s.time.clk.coreLost then s
  else if certDebugOk s bs then updSec s (fun x => { x with debugOk := true })
  else debugViolation s 0x15

/-- R367: EXTEST and INTEST take the pins in BOOT and CONFIGURE only. -/
def jtagTakes (s : State) (j : Jtag) : State :=
  if s.sys.mode = .retention then s
  else if s.sys.mode = .boot ∨ s.sys.mode = .configure then updSec s (fun x => { x with jtag := j })
  else updSec s (fun x => { x with jtag := .bypass })

/-- R367: BYPASS. -/
def doBypass (s : State) : State := if s.sys.mode = .retention then s else updSec s (fun x => { x with jtag := .bypass })

/-- R367: IDCODE: part field 0x5120 at [27:12], bit 0 set as IEEE 1149.1 has it; the other fields are not given. -/
def doIdcode (s : State) : State :=
  if s.sys.mode = .retention then s
  else
    let r := Config.idcodeRest
    let code : BitVec 32 := (r.extractLsb' 11 4) ++ 0x5120#16 ++ (r.extractLsb' 0 11) ++ 1#1
    updSec s (fun x => { x with jtag := .idcode, jtagOut := x.jtagOut ++ [code] })

/-- R367: SAMPLE/PRELOAD: the boundary-scan register takes the TIO balls' levels. -/
def doSamplePreload (s : State) : State :=
  if s.sys.mode = .retention then s
  else
    updSec s (fun x =>
      { x with jtag := .samplePreload
               bsr := (List.finRange 512).foldl (fun (a : BitVec 512) (c : Fin 512) =>
                 a ||| BitVec.ofNat 512 (bitAt (ballLevel s c) c.val)) 0 })

/-! ### Scrubbing -/

/-- R348: the instances and the words of an instance of a memory. -/
def memShape (m : MemId) : Nat × Nat :=
  match m with
  | .controlStore => (32, 4096)
  | .paramRam => (32, 8192)
  | .regionRam => (4, 65536)
  | .ringMem => (1, 262144)
  | .supervisorRam => (1, 65536)
  | .pewterStore => (8, 64)
  | .secureBank => (1, 2048)

/-- R299: the memory code of ECC_CORRECTED. -/
def memCode (m : MemId) : Nat :=
  match m with
  | .controlStore => 0
  | .paramRam => 1
  | .regionRam => 2
  | .ringMem => 3
  | .supervisorRam => 4
  | .pewterStore => 5
  | .secureBank => 6

/-- R299: the unit that holds a memory. -/
def memHome (m : MemId) (i : Nat) : Scope :=
  match m with
  | .controlStore => .block (Fin.ofNat 32 i)
  | .paramRam => .block (Fin.ofNat 32 i)
  | .regionRam => .region (Fin.ofNat 4 i)
  | .pewterStore => .block (Fin.ofNat 32 (4 * i))
  | _ => .chip

/-- R48, R353, R300: a single-bit error was corrected; a region counts those of its RAM. -/
def eccCorrected (s : State) (m : MemId) (i a : Nat) : State :=
  let s1 := match m with
    | .regionRam => bump s (.region (Fin.ofNat 4 i) 0x01) 23 12 1
    | _ => s
  report s1 0x01 (memHome m i) (memCode m * 2 ^ 20 + a % 2 ^ 20) false

/-- R319, R296: the supervisor goes out of service. -/
def supervisorOut (s : State) (c : SupCause) : State :=
  if s.sup.out.isSome then s else { s with sup := { s.sup with out := some (s.time.tick, c), restart := s.time.tick } }

/-- R348, R353, R354, R364: an uncorrectable word. A Pewter store word is only marked (R354). -/
def eccUncorrectable (s : State) (m : MemId) (i a : Nat) : State :=
  let s1 := setEccBad s m i a
  match m with
  | .controlStore => report s1 0x18 (memHome m i) a false
  | .paramRam => report s1 0x19 (memHome m i) a false
  | .regionRam => report s1 0x20 (memHome m i) a false
  | .ringMem => report s1 0x30 .chip a false
  | .supervisorRam => supervisorOut s .ramError
  | .pewterStore => s1
  | .secureBank => wipeBank s 7

/-- The scrubber's next word in a memory. -/
def scrubAt (s : State) (m : MemId) (i : Nat) : Nat :=
  match s.sec.scrub.find? (fun e => decide (e.1 = m ∧ e.2.1 = i)) with
  | some e => e.2.2
  | none => 0

/-- R354: all instances of the memories, 79 in number, have completed a pass. -/
def passDone (l : List (MemId × Nat)) : Bool := decide (79 ≤ l.length)

/-- R354: the scrubber's place moves on; a pass of every memory counts. -/
def scrubNext (s : State) (m : MemId) (i a : Nat) : State :=
  let n := a + 1
  let last := decide ((memShape m).2 ≤ n)
  let l := (m, i, if last then 0 else n) :: s.sec.scrub.filter (fun e => !decide (e.1 = m ∧ e.2.1 = i))
  let done := if last && !s.sec.scrubDone.contains (m, i) then (m, i) :: s.sec.scrubDone else s.sec.scrubDone
  if passDone done then
    let s1 := updSec s (fun x => { x with scrub := l, scrubDone := [] })
    setReg s1 (.chip 0x40) (reg s1 (.chip 0x40) + 1)
  else updSec s (fun x => { x with scrub := l, scrubDone := done })

/-- R354: the bank of a region-RAM word has a requester waiting, so the scrubber has no slot. -/
def bankWaits (s : State) (m : MemId) (i a : Nat) : Bool :=
  match m with
  | .regionRam => s.agenda.banks.any (fun q => decide (q.region.val = i ∧ q.word.val % 8 = a % 8))
  | _ => false

/-- R48: an uncorrectable word that the scrubber finds; a region counts those of its RAM. -/
def scrubBad (s : State) (m : MemId) (i a : Nat) : State :=
  match m with
  | .regionRam => bump (eccUncorrectable s m i a) (.region (Fin.ofNat 4 i) 0x01) 11 0 1
  | _ => eccUncorrectable s m i a

/-- SCRUB_WORD (R353, R354): the next word of an instance of a memory. -/
def doScrubWord (m : MemId) (inst : Fin 32) (f : ScrubFinding) (s : State) : State :=
  let i := inst.val % (memShape m).1
  let a := scrubAt s m i
  if !(alive s && decide (s.sys.mode ≠ .powerFail)) || bankWaits s m i a then s
  else
    let key := if m = .ringMem then 0 else i
    let bad := eccBad s m key a
    let s1 := match (if bad then ScrubFinding.uncorrectable else f) with
      | .clean => s
      | .corrected => eccCorrected s m i a
      | .uncorrectable => scrubBad s m i a
    scrubNext s1 m i a

/-! ### Reads -/

/-- R368, R369: LC_STAT. -/
def lcStat (s : State) : Word :=
  word (lcCode s.sec.lc * 2 ^ 21 + bitAt s.sec.debugOk 20 + bitAt s.sec.keyHash.isSome 19 + s.sec.rollback * 256)

/-- R368: WKEY_ID. -/
def wkeyId (s : State) : Word := match s.sec.keyHash with
  | some k => k.setWidth 24
  | none => 0

/-- R369: SBANK_STAT. -/
def sbankStat (s : State) : Word := word (s.sec.bankGen.toNat * 256 + bitAt s.sec.bankValid 0)

/-- R337: the boot report. -/
def bootReport (s : State) : List Byte :=
  let b := s.boot
  [b.phase, b.result, b.attempts, BitVec.ofNat 8 (bitAt b.hostWait 1 + bitAt b.fallback 0)] ++ leBytes b.version.toNat 4 ++
    leBytes b.patch.toNat 2 ++ leBytes 0 6

end Sys2Proof.Machine
end

