-- ==== Sys2Proof/Machine/BankZ.lean ====
section
/-!
DEFINITION. Bank Z (15_pins_power_electrical.md R393 to R402): EXC outputs with their ledgers, and ZIO substitution.
-/
namespace Sys2Proof.Machine

/-- An EXC output after a change of it. -/
def updExc (s : State) (n : Fin 8) (f : Exc → Exc) : State := { s with excs := s.excs.set n (f s.excs[n]) }

/-- R402: EXC_CFG of an output. -/
def excCfg (s : State) (n : Fin 8) : Word := reg s (.chip (0x90 + n.val))

/-- R398: the energy of the last 1 ms, in femtojoules. -/
def ledgerSum (s : State) (n : Fin 8) : Nat := s.excs[n].ledger.foldl (· + ·) 0

/-- R398, R402: the sum lies above ELIM, which counts 0.1 µJ. -/
def ledgerOver (s : State) (n : Fin 8) : Bool := decide (fld (excCfg s n) 9 0 * 100000000 < ledgerSum s n)

/-- R397: an output is on. A HALT keeps what the mode left gives (R345). -/
def excWanted (s : State) (n : Fin 8) : Bool :=
  let m := if s.sys.mode = .halt then s.sys.left else s.sys.mode
  let safeOn := bit (excCfg s n) 13
  regBit s (.chip 0x98) n.val && !s.time.clk.coreLost &&
    ((decide (m = .run ∨ m = .degraded) && !inFault s .chip) ||
      (decide (m = .configure ∨ m = .safeHold ∨ m = .service) && safeOn))

/-- R397: an output turns on or off. -/
def excFollow (s : State) (n : Fin 8) : State :=
  if excWanted s n = s.excs[n].on then s
  else updExc s n (fun x => { x with on := excWanted s n, since := s.time.tick, limRun := 0 })

/-- R397: all outputs. -/
def excSettle (s : State) : State := (List.finRange 8).foldl excFollow s

/-- R398: the ledger switches an output off. -/
def ledgerTrip (s : State) (n : Fin 8) : State :=
  orReg (clrReg s (.chip 0x98) (2 ^ n.val)) (.chip 0x99) (2 ^ (8 + n.val))

/-- LEDGER_SAMPLE (R397, R398): VZ in millivolts, the current in microamperes, and whether the limiter carried it in the
last 1 µs. -/
def doLedgerSample (n : Fin 8) (vz current : Nat) (limiting : Bool) (s : State) : State :=
  if !alive s then s
  else
    let run := if limiting then min 11 (s.excs[n].limRun + 1) else 0
    let s1 := updExc s n (fun x => { x with ledger := (vz * current :: x.ledger).take 1000, limRun := run })
    let s2 := if 10 < run then orReg s1 (.chip 0x99) (2 ^ n.val) else s1
    if regBit s2 (.chip 0x98) n.val && ledgerOver s2 n then ledgerTrip s2 n else s2

/-- EXC_CTRL (R397, R399): a bit written 1 with the sum above ELIM stays 0 and sets LEDGER_TRIP again. -/
def writeExcCtrl (s : State) (v : Word) : State × Status :=
  let s1 := setReg s (.chip 0x98) (v &&& 0xFF)
  ((List.finRange 8).foldl (fun z n => if bit v n.val && ledgerOver z n then ledgerTrip z n else z) s1, .ok)

/-- R395: another enabled ZIO names the partner. -/
def partnerTaken (s : State) (z : Fin 16) (c : Nat) : Bool :=
  (List.finRange 16).any (fun y => decide (y ≠ z) && regBit s (.chip (0x80 + y.val)) 15 &&
    decide (regFld s (.chip (0x80 + y.val)) 8 0 = c))

/-- R399: the setting that the present tick's edges are taken by is kept. -/
def keepZio (s : State) (z : Fin 16) : State := { s with pins := { s.pins with zioOld := (z, zioFor s z) :: s.pins.zioOld } }

/-- ZIO_CFG (R395, R399). -/
def writeZioCfg (s : State) (z : Fin 16) (v : Word) : State × Status :=
  if partnerTaken s z (fld v 8 0) then (s, .conflict)
  else (setReg (keepZio s z) (.chip (0x80 + z.val)) (v &&& 0xE1FF), .ok)

/-- R402: EXC_STAT. -/
def excStat (s : State) : Word :=
  word ((List.finRange 8).foldl (fun a n => a + bitAt s.excs[n].on (16 + n.val)) 0) ||| (reg s (.chip 0x99) &&& 0xFFFF)

/-- R401: the level at a ZIO ball. -/
def zioLevel (s : State) (z : Fin 16) : Bool :=
  if regBit s (.chip (0x80 + z.val)) 15 then ballLevel s (Fin.ofNat 512 (regFld s (.chip (0x80 + z.val)) 8 0))
  else bit s.pins.zioIn z.val

/-- R401: ZIO_STAT. -/
def zioStat (s : State) : Word := word ((List.finRange 16).foldl (fun a z => a + bitAt (zioLevel s z) z.val) 0)

/-- R401: EXC_En. -/
def excEnergy (s : State) (n : Fin 8) : Word := word (min 1023 (ledgerSum s n / 100000000))

end Sys2Proof.Machine
end

