-- ==== Sys2Proof/Machine/Settle.lean ====
section
/-!
DEFINITION. What follows every command in its own step: the collector takes the detections it reported (R301), scopes
look at their active conditions (R311), DEGRADED follows its causes (R327), and the excitation outputs follow what holds
them off (R397, R400).
-/
namespace Sys2Proof.Machine

/-- R301: the collector takes reports until a reaction has reported no more; a reaction reports at most a lost scope's
discards, so a few passes take all. -/
def collectAll (s : State) : State := Nat.repeat collect 3 s

/-- What follows the effect of a command. -/
def settle (s : State) : State := excSettle (followCauses (noteActive (collectAll s)))

/-- A command's effect, with what follows it. -/
def run (f : State → State) (s : State) : Host.Outcome State Fault Refusal := .next (settle (f s))

end Sys2Proof.Machine
end

