-- ==== Sys2Proof/Machine/Params.lean ====
section
/-!
DEFINITION. Reading and writing a parameter (00_scope.md R6, R9 to R15; 01_architecture_and_timebase.md R39 to R49): where
a write is refused, and what each parameter of every chapter's table does and shows.
-/
namespace Sys2Proof.Machine

/-! ### When a write is refused -/

/-- R9: the conditions under which a class S parameter may be written: CONFIGURE, or its owning unit disabled, as the
chapters say for each unit (R81, R145, R165, R167, R78, R195, R216, R237, R239, R269, R323, R368, R385, R401). -/
def staticOpen (s : State) (l : PLoc) : Bool :=
  let conf := decide (s.sys.mode = .configure)
  match l with
  | .cell c o => conf || (decide (o ≠ 0x0A) && !cellEn s c)
  | .block b o => conf ||
      (if o < 0x0C then !regBit s (.block b 0x00) 0 && !regBit s (.block b 0x00) 1 else !regBit s (.block b 0x0C) 0)
  | .dom d _ => conf || !domEn s d
  | .chan c _ => conf || !chanEn s c
  | .gang r _ => conf || !regBit s (.gang r 0x00) 0
  | .pewter p o => (conf && decide (o ≠ 0x12)) || !peEn s p
  | .adc a _ => conf || !regBit s (.adc a 0x1) 0
  | .comp w _ => conf || !regBit s (.comp w 0x0) 0
  | .link _ => conf || !regBit s (.link 0x00) 0
  | .chip o => conf || (decide (0x90 ≤ o ∧ o ≤ 0x97) && !regBit s (.chip 0x98) (o - 0x90))
  | _ => conf

/-- A crossbar code that selects an input or a line (R22, R79, R166). -/
def xbarCode (n : Nat) : Bool := decide (n ≤ 143)

/-- A crossbar code, or 0xFF (R82, R170, R198). -/
def xbarCodeFF (n : Nat) : Bool := decide (n ≤ 143 ∨ n = 255)

/-- R59, R78, R79: the gap settings of a domain agree with its teeth. -/
def gapBad (gap index teeth : Word) : Bool :=
  let kind := fld gap 13 12
  let g := fld gap 11 10
  let pos := fld gap 9 6
  let tol := fld gap 5 3
  decide (1 < fld gap 15 14 ∨ kind = 3 ∨ g = 0 ∨ tol = 0 ∨ pos ≤ tol ∨ 15 < pos + tol) ||
    decide (kind = 1 ∧ fld teeth 11 0 < g + 1) || decide (fld teeth 11 0 < fld index 11 0)

/-- R42: an index out of range for the kind of a chip-wide line's source. -/
def lineBad (v : Word) : Bool :=
  let k := fld v 10 9
  let n := fld v 8 0
  decide (k = 2 ∧ 63 < n ∨ k = 3 ∧ 31 < n)

/-- R369: a TAMPER_CFG mode code that is reserved. -/
def tamperBad (v : Word) : Bool := (List.range 4).any (fun n => decide (fld v (2 * n + 1) (2 * n) = 3))

/-- R368: a write that turns off an enabled tamper input or the mesh. -/
def tamperLess (old v : Word) : Bool :=
  (List.range 4).any (fun n => decide (fld old (2 * n + 1) (2 * n) ≠ 0 ∧ fld v (2 * n + 1) (2 * n) = 0)) ||
    (bit old 8 && !bit v 8)

/-- A trip-pin selection of a carrier (R166). -/
def tripPinBad (v : Word) : Bool := !xbarCode (fld v 7 0) || !xbarCode (fld v 15 8)

/-- The value ranges of the cells' parameters (R82). -/
def badCell (o : Nat) (v : Word) : Bool :=
  match o with
  | 0x0A => decide (fld v 1 0 = 3)
  | 0x0C => decide (fld v 16 12 < 2) || !xbarCodeFF (fld v 7 0)
  | 0x0D => decide (fld v 23 16 < 4 ∨ fld v 1 0 = 3)
  | _ => false

/-- The value ranges of the domains' parameters (R78, R79). -/
def badDom (s : State) (d : Fin 16) (o : Nat) (v : Word) : Bool :=
  let gap := reg s (.dom d 0x03)
  let idx := reg s (.dom d 0x04)
  let teeth := reg s (.dom d 0x02)
  match o with
  | 0x01 => decide (8 < fld v 19 16)
  | 0x02 => gapBad gap idx v
  | 0x03 => gapBad v idx teeth
  | 0x04 => gapBad gap v teeth
  | 0x05 => decide (fld v 9 8 = 0) || !xbarCode (fld v 7 0)
  | 0x08 => decide (fld v 5 0 < 20 ∨ 32 < fld v 5 0)
  | 0x0A => decide (fld v 15 8 < 17 ∨ fld v 7 0 = 0 ∨ 15 < fld v 7 0)
  | 0x0C => decide (fld v 15 8 = 0 ∨ fld v 7 0 < 2)
  | 0x0E => decide (fld v 11 0 < 16)
  | 0x0F => decide (fld v 7 0 < 4)
  | _ => false

/-- The value ranges of the channels' parameters (R169, R170, R195, R196). -/
def badChan (s : State) (c : Fin 64) (o : Nat) (v : Word) : Bool :=
  match o with
  | 0x01 => decide (4 < fld v 2 0)
  | 0x02 => !xbarCodeFF (fld v 7 0) || !xbarCodeFF (fld v 15 8) || !xbarCodeFF (fld v 23 16)
  | 0x03 => decide (fld v 5 4 = 3 ∨ 1 ≤ fld v 2 0 ∧ fld v 2 0 ≤ 3)
  | 0x06 => decide (fld v 13 12 = 3 ∨ fld v 11 10 = 0 ∨ fld v 5 3 = 0 ∨ fld v 9 6 ≤ fld v 5 3 ∨ 15 < fld v 9 6 + fld v 5 3)
  | 0x07 => decide (fld v 3 0 < 2 ∨ 12 < fld v 3 0)
  | 0x09 => decide (fld v 23 12 < fld v 11 0)
  | 0x0A => decide (fld v 7 4 = 0 ∨ fld v 3 0 = 0 ∨ fld v 7 4 < fld v 3 0)
  | 0x0B => decide (fld v 13 8 < 8 ∨ 47 < fld v 13 8)
  | 0x12 => decide (fld v 23 12 < 12 ∨ fld v 11 0 < 4)
  | 0x14 => decide (v = 0) || decide ((reg s (.chan c 0x15)).toNat < v.toNat)
  | 0x15 => decide (v.toNat < (reg s (.chan c 0x14)).toNat)
  | 0x16 => decide (fld v 23 16 < 8)
  | _ => false

/-- The value ranges of the engines' parameters (R198, R217). -/
def badPewter (o : Nat) (v : Word) : Bool :=
  match o with
  | 0x01 => decide (16 < fld v 12 8)
  | 0x02 => decide (fld v 15 11 = 0 ∨ 24 < fld v 15 11 ∨ fld v 10 6 = 0 ∨ 24 < fld v 10 6)
  | 0x04 => !xbarCodeFF (fld v 7 0) || !xbarCodeFF (fld v 15 8)
  | 0x05 => !xbarCodeFF (fld v 7 0) || !xbarCodeFF (fld v 15 8)
  | 0x06 => decide (fld v 23 8 = 0)
  | _ => false

/-- The value ranges of the comparators' parameters (R232, R233, R240). -/
def badComp (s : State) (w : Fin 64) (o : Nat) (v : Word) : Bool :=
  match o with
  | 0x1 => decide (fld v 12 11 = 3 ∨ fld v 10 9 = 3 ∧ fld v 8 7 = 0)
  | 0x2 => decide (regFld s (.comp w 0x3) 9 0 < fld v 9 0)
  | 0x3 => decide (fld v 9 0 < regFld s (.comp w 0x2) 9 0)
  | 0x4 => decide (fld v 7 4 ≠ 0 ∧ (2 * fld v 3 0 ≤ fld v 7 4 ∨ fld v 7 4 < fld v 3 0))
  | _ => false

/-- The value ranges of the fault parameters (R323, R324). -/
def badFaults (o : Nat) (v : Word) : Bool :=
  if o = 0x00 then decide (fld v 18 16 = 0 ∨ 4 < fld v 18 16 ∨ fld v 9 0 = 0 ∨ 1000 < fld v 9 0)
  else decide (0x02 ≤ o ∧ o ≤ 0x05) && decide (v = 0)

/-- A value outside a stated range, which the unit's own write does not check itself. -/
def valueBad (s : State) (l : PLoc) (v : Word) : Bool :=
  match l with
  | .chip o =>
    if 0x30 ≤ o ∧ o ≤ 0x3F then lineBad v
    else if o = 0x43 then tamperBad v
    else if 0x90 ≤ o ∧ o ≤ 0x97 then decide (fld v 9 0 < 10 ∨ 1000 < fld v 9 0)
    else false
  | .cell _ o => badCell o v
  | .block _ o => (decide (o = 0x0E) && decide (v.toNat < 8)) || (decide (o = 0x17) && tripPinBad v)
  | .gang _ o => (decide (o = 0x01) && decide (v.toNat < 8)) || (decide (o = 0x05) && tripPinBad v)
  | .dom d o => badDom s d o v
  | .chan c o => badChan s c o v
  | .pewter _ o => badPewter o v
  | .adc _ o =>
    if o = 0x0 then decide (23 < fld v 4 0 ∨ 23 < fld v 12 8 ∧ fld v 12 8 ≠ 31)
    else if o = 0x5 then decide (9 < fld v 23 20 ∨ fld v 23 20 ≠ 0 ∧ fld v 15 0 % 2 ^ (fld v 23 20 + 3) ≠ 0)
    else false
  | .comp w o => badComp s w o v
  | .seqr _ o => decide (o = 0x1) && decide (fld v 1 0 = 3)
  | .link o => decide (o = 0x02) && decide (fld v 7 0 < 4)
  | .faults o => badFaults o v
  | .monitor o =>
    if 0x08 ≤ o ∧ (o - 8) % 3 ≠ 0 then thrBad ((o - 8) / 3) v else false
  | _ => false

/-! ### Writing -/

/-- R15: what the device has set in a parameter in the present tick, or will have set in the next. -/
def freshKept (s : State) (l : PLoc) : List Fresh :=
  s.par.fresh.filter (fun x => decide (x.pa = paOf l ∧ s.time.tick ≤ x.tick))

/-- R9, R11, R13, R15: a write by class and access code, for a parameter that is no more than its bits. -/
def storeBits (s : State) (l : PLoc) (i : PInfo) (v : Word) : State :=
  let old := reg s l
  let kept := (freshKept s l).foldl (fun a x => a ||| x.add) 0
  let new := ((old &&& ~~~i.rw) ||| (v &&& i.rw)) &&& ~~~(v &&& i.w1c &&& ~~~kept)
  match i.cls with
  | .h => writeShadow s l new
  | _ => setReg s l new

/-- R47: a domain snapshot of the present tick, as the leaves hold the domains. -/
def takeSnap (who : Requester) (s : State) : State :=
  let st := fun (k : Nat) => word ((List.range 8).foldl (fun a i =>
    a + stateCode (s.doms[Fin.ofNat 16 (8 * k + i)]).leafSt * 2 ^ (3 * i)) 0)
  let x : DomSnap := ⟨who, s.time.tick, now s, st 0, st 1, Vector.ofFn (fun d => leafAngle s d),
    Vector.ofFn (fun (d : Fin 16) => s.doms[d].leafCycle)⟩
  { s with par := { s.par with snaps := x :: s.par.snaps.filter (fun y => !decide (y.who = who)) } }

/-- R47: what reaches the leaves in the tick of a snapshot belongs to it. -/
def refreshSnaps (s : State) : State :=
  s.par.snaps.foldl (fun z x => if x.tick = s.time.tick then takeSnap x.who z else z) s

/-- R6: a pair whose high word commits with the low word `low`: both words take effect. -/
def commitPair (s : State) (low : Word) (lo hi : PLoc) (v : Word) : State := setReg (setReg s lo low) hi v

/-- R44, R351: a write of a parameter-RAM word through the window `k`; an alias reads the word inside the bank, so an
uncorrectable word raises its class and stays as it is. -/
def writePramWord (s : State) (b : Fin 32) (w : Nat) (k : RamAlias) (v : Word) : State :=
  let old := pramAt s b w
  match k with
  | .direct => storePram s b w v
  | _ => if eccBad s .paramRam b.val w then eccUncorrectable s .paramRam b.val w else storePram s b w (ramWord k old v)

/-- A write of a chip-control parameter. -/
def writeChip (s : State) (who : Requester) (low : Word) (o : Nat) (i : PInfo) (v : Word) : State × Status :=
  if o = 0x20 then writeClkCfg s v
  else if o = 0x21 then writePllCtrl s v
  else if o = 0x26 then (setLow s who (.chip 0x26) v, .ok)
  else if o = 0x27 then writePresetHi s low v
  else if o = 0x43 then
    if decide (2 ≤ lcCode s.sec.lc) && tamperLess (reg s (.chip 0x43)) v then (s, .accessDenied)
    else (storeBits s (.chip o) i v, .ok)
  else if o = 0x50 then (if bit v 0 then inTick s 1 (takeSnap who) else s, .ok)
  else if 0x80 ≤ o ∧ o ≤ 0x8F then writeZioCfg s (Fin.ofNat 16 (o - 0x80)) v
  else if o = 0x98 then writeExcCtrl s v
  else (storeBits s (.chip o) i v, .ok)

/-- A write of a cell parameter (R84 to R86, R307, R312). -/
def writeCell (s : State) (who : Requester) (low : Word) (c : Fin 512) (o : Nat) (i : PInfo) (v : Word) : State × Status :=
  if o = 0x01 then writeCellCtrl s c v
  else if o = 0x02 ∨ o = 0x04 then
    (if !cellEn s c || givesCompare s who c then setLow s who (.cell c o) v else s, .ok)
  else if o = 0x03 then writeCmpHi s who c .a low v
  else if o = 0x05 then writeCmpHi s who c .b low v
  else if o = 0x0B ∧ givesCompare s who c = false then (s, .ok)
  else
    let s1 := storeBits s (.cell c o) i v
    (if imageOffsets.contains o then imageCell s1 c o (reg s1 (.cell c o)) else s1, .ok)

/-- A write of a block parameter. -/
def writeBlockParam (s : State) (b : Fin 32) (o : Nat) (i : PInfo) (v : Word) : State × Status :=
  if o = 0x00 then writeSeqCtrl s b v
  else if o = 0x04 then writeBlkTimer s b v
  else if o = 0x0C then writeCarrierCtrl s (.block b) v
  else (storeBits s (.block b o) i v, .ok)

/-- A write of a domain parameter. -/
def writeDomParam (s : State) (who : Requester) (low : Word) (d : Fin 16) (o : Nat) (i : PInfo) (v : Word) : State × Status :=
  if o = 0x00 then writeDomCtrl s d v
  else if o = 0x01 then
    (if decide (fld v 7 6 = 0 ∧ 16 ≤ fld v 5 0) then (s, .addrInvalid)
     else if decide (fld v 7 6 = 0) && trkUsed s d (Fin.ofNat 16 (fld v 5 0)) then (s, .conflict)
     else (storeBits s (.dom d o) i v, .ok))
  else if o = 0x05 then (takeTrkCfg (storeBits s (.dom d o) i v) d, .ok)
  else if o = 0x0B then writeStandstill s d v
  else if o = 0x0D then writeIndexSet s d v
  else if o = 0x11 then (setLow s who (.dom d 0x11) v, .ok)
  else if o = 0x12 then (commitPair s low (.dom d 0x11) (.dom d 0x12) v, .ok)
  else if o = 0x15 then writeVgCtrl s d v
  else (storeBits s (.dom d o) i v, .ok)

/-- A write of a channel parameter. -/
def writeChanParam (s : State) (who : Requester) (low : Word) (c : Fin 64) (o : Nat) (i : PInfo) (v : Word) : State × Status :=
  if o = 0x00 then writeChCtrl s c v
  else if o = 0x04 ∨ o = 0x0E ∨ o = 0x17 then (setLow s who (.chan c o) v, .ok)
  else if o = 0x05 then (commitPair s low (.chan c 0x04) (.chan c 0x05) v, .ok)
  else if o = 0x0D then writeSpdTimeout s c v
  else if o = 0x0F then writePcmpHi s c low v
  else if o = 0x18 then writePosHi s c low v
  else (storeBits s (.chan c o) i v, .ok)

/-- A write of an engine parameter. -/
def writePewterParam (s : State) (who : Requester) (p : Fin 32) (o : Nat) (i : PInfo) (v : Word) : State × Status :=
  if o = 0x00 then writePeCtrl s p v
  else if o = 0x08 then injectPewter s p (v.setWidth 16)
  else if o = 0x10 then writePeTxdata s p v
  else if o = 0x11 then writePeProg s who p v
  else if o = 0x12 then writePeLut s who p v
  else (storeBits s (.pewter p o) i v, .ok)

/-- A write of a comparator parameter. -/
def writeCompParam (s : State) (w : Fin 64) (o : Nat) (i : PInfo) (v : Word) : State × Status :=
  if o = 0x0 then writeWcCtrl s w v
  else if o = 0x2 then writeWcThr s w false v
  else if o = 0x3 then writeWcThr s w true v
  else (storeBits s (.comp w o) i v, .ok)

/-- A write of a sequencer parameter. -/
def writeSeqrParam (s : State) (who : Requester) (low : Word) (r : Fin 4) (o : Nat) (i : PInfo) (v : Word) : State × Status :=
  if o = 0x0 then writeSqCtrl s r v
  else if o = 0x1 then (setSel s who (.seqr r 0x1) (v &&& 0x1FF), .ok)
  else if o = 0x2 then writeSqListData s who r low v
  else if o = 0x3 then writeSqSwtrig s r v
  else (storeBits s (.seqr r o) i v, .ok)

/-- A write of a link, lifetime or other parameter, and the writes of every area. `low` is the low word of a pair that the
high word `v` commits (R6), or the list address of a word of an ADC sequencer's list (R225). -/
def writePlace (s : State) (who : Requester) (low : Word) (l : PLoc) (i : PInfo) (v : Word) : State × Status :=
  match l with
  | .chip o => writeChip s who low o i v
  | .cell c o => writeCell s who low c o i v
  | .block b o => writeBlockParam s b o i v
  | .dom d o => writeDomParam s who low d o i v
  | .chan c o => writeChanParam s who low c o i v
  | .gang r o => if o = 0x00 then writeCarrierCtrl s (.gang r) v else (storeBits s l i v, .ok)
  | .pewter p o => writePewterParam s who p o i v
  | .adc a o => if o = 0x1 then writeAdcCtrl s a v else (storeBits s l i v, .ok)
  | .comp w o => writeCompParam s w o i v
  | .seqr r o => writeSeqrParam s who low r o i v
  | .link o =>
    if o = 0x00 then writeElcCtrl s v
    else if o = 0x21 then (setLow s who l v, .ok)
    else if o = 0x22 then writeMbxTxHi s low v
    else (storeBits s l i v, .ok)
  | .life o =>
    if o = 0x08 then (setSel s who l (v &&& 0xFF), .ok)
    else if o = 0x0E then (setSel s who l (v &&& 0x3FF), .ok)
    else if o = 0x0C then (wearClear s (v &&& 0xFF), .ok)
    else (storeBits s l i v, .ok)
  | .pram b w k => (writePramWord s b w k v, .ok)
  | .rram r w => (askBank s r w 8 (some v), .ok)
  | _ => (storeBits s l i v, .ok)

/-! ### When a write takes effect -/

/-- R6: the low word of a pair whose high word commits it. -/
def isLowWord (l : PLoc) : Bool :=
  match l with
  | .cell _ o => decide (o = 0x02 ∨ o = 0x04)
  | .chip o => decide (o = 0x26)
  | .dom _ o => decide (o = 0x11)
  | .chan _ o => decide (o = 0x04 ∨ o = 0x0E ∨ o = 0x17)
  | .link o => decide (o = 0x21)
  | _ => false

/-- R217, R241, R385: a selector that a requester holds. -/
def isSelector (l : PLoc) : Bool :=
  match l with
  | .seqr _ o => decide (o = 0x1)
  | .life o => decide (o = 0x08 ∨ o = 0x0E)
  | _ => false

/-- What a write does in its commit tick: class S and class H parameters (R9, R11), words held for the requester (R6), a
compare, whose own write waits (R86), a domain snapshot (R47), an injected word (R211) and a word on its way to a bank of
region RAM (R45). -/
def atOnce (l : PLoc) (i : PInfo) : Bool :=
  decide (i.cls ≠ .l) || isLowWord l || isSelector l ||
    match l with
    | .cell _ o => decide (o = 0x03 ∨ o = 0x05)
    | .chip o => decide (o = 0x50)
    | .pewter _ o => decide (o = 0x08)
    | .rram _ _ => true
    | _ => false

/-- R6: the place whose held word a write commits with its own. -/
def pairLow (l : PLoc) : Option PLoc :=
  match l with
  | .cell c o => if o = 0x03 then some (.cell c 0x02) else if o = 0x05 then some (.cell c 0x04) else none
  | .chip o => if o = 0x27 then some (.chip 0x26) else none
  | .dom d o => if o = 0x12 then some (.dom d 0x11) else none
  | .chan c o =>
    if o = 0x05 then some (.chan c 0x04) else if o = 0x0F then some (.chan c 0x0E)
    else if o = 0x18 then some (.chan c 0x17) else none
  | .link o => if o = 0x22 then some (.link 0x21) else none
  | _ => none

/-- The word a write takes with it from its requester's held words in its commit tick. -/
def lowFor (s : State) (who : Requester) (l : PLoc) : Word :=
  match l with
  | .seqr r o => if o = 0x2 then selOf s who (.seqr r 0x1) else 0
  | _ => match pairLow l with
    | some k => lowOf s who k
    | none => 0

/-- R9: a late write takes effect; what its requester holds stays as its commit left it. -/
def lateEffect (s : State) (x : Late) : State :=
  match x.op with
  | .write low l v =>
    match paramInfo l with
    | some i =>
      let z := (writePlace s x.who low l i v).1
      { z with par := { z.par with lows := s.par.lows, sels := s.par.sels } }
    | none => s
  | .compare c u t trim act o arms => applyCompare s c u t trim act o arms
  | .latch c a => routineLatch s c a
  | .disarm c u => disarm s c u 0
  | .reload c => reloadCell s c
  | .pePush p v => updPe s p (fun e => { e with tx := e.tx ++ [v] })
  | .pePop p => popRx s p
  | .bind k v => updLife s (fun l => { l with binds := l.binds.set k v })

/-- R17: late writes in the order of their precedence, each rank in order of arrival. -/
def lateOrder (l : List Late) : List Late := [1, 2, 3, 4, 5].flatMap (fun r => l.filter (fun x => decide (x.rank = r)))

/-- R17: the state as it will be when every write that has committed has taken effect: what a further write of the same tick
is checked against (log entry 79). -/
def lateView (s : State) : State :=
  (lateOrder s.agenda.late).foldl lateEffect { s with agenda := { s.agenda with late := [] } }

/-- R17: the cell whose update port a late write needs. -/
def portCell (o : LateOp) : Option (Fin 512) :=
  match o with
  | .write _ (.cell c _) _ => some c
  | .compare c _ _ _ _ _ _ => some c
  | .latch c _ => some c
  | .disarm c _ => some c
  | .reload c => some c
  | _ => none

/-- R17: writes of one source in one tick share a grant (log entry 79). -/
def sameGrant (x y : Late) : Bool := decide (x.rank = y.rank ∧ x.who = y.who ∧ x.tick = y.tick)

/-- R17, R134: a cell's port is not granted to a write after a tick in which a write took it before a match of the cell,
and not to a block sequencer in two consecutive ticks. -/
def portShut (s : State) (c : Fin 512) (x : Late) : Bool :=
  match s.cells[c].grantTick with
  | some g => decide (g.1 + 1 = s.time.tick) &&
      (decide (s.cells[c].matchTick = some g.1) || decide (x.rank = 2 ∧ g.2 = 2))
  | none => false

/-- R349: the bank of parameter RAM that the image of a written cell parameter takes. -/
def imageBank (o : LateOp) : Option (Fin 32 × Nat) :=
  match o with
  | .write _ (.cell c off) _ => if imageOffsets.contains off then some (blockOf c, off % 4) else none
  | _ => none

/-- R349: a write of parameter RAM through port B that finds its bank taken by a cell image. -/
def bankTaken (done : List Late) (x : Late) : Bool :=
  match x.op with
  | .write _ (.pram b w _) _ => decide (x.rank ≠ 2) && done.any (fun y => decide (imageBank y.op = some (b, w % 4)))
  | _ => false

/-- R17, R349: a late write can take effect now, after those in `done` of the present tick. -/
def lateReady (s : State) (done : List Late) (x : Late) : Bool :=
  decide (x.tick ≤ s.time.tick) &&
    match portCell x.op with
    | some c =>
      match done.find? (fun y => decide (portCell y.op = some c)) with
      | some y => sameGrant y x
      | none => !portShut s c x
    | none => !bankTaken done x

/-- R17: a granted write takes effect; its cell keeps the tick and the rank of the grant. -/
def grantLate (s : State) (x : Late) : State :=
  lateEffect (match portCell x.op with
    | some c => updCell s c (fun k => { k with grantTick := some (s.time.tick, x.rank) })
    | none => s) x

/-- One late write of the present tick: granted, or kept for the next tick. -/
def lateStep (a : State × List Late) (x : Late) : State × List Late :=
  if lateReady a.1 a.2 x then (grantLate a.1 x, a.2 ++ [x])
  else ({ a.1 with agenda := { a.1.agenda with late := a.1.agenda.late ++ [x] } }, a.2)

/-- R9, R17: at the end of a tick the writes that committed in it take effect, in the order of their grants; a write that is
not granted retries in the next tick. -/
def applyLate (s : State) : State :=
  if s.agenda.late.isEmpty then s
  else ((lateOrder s.agenda.late).foldl lateStep ({ s with agenda := { s.agenda with late := [] } }, [])).1

/-! ### A write by a requester -/

/-- R9, R10, R12: what refuses a write before its unit sees it: its class in the present tick, and its value against the
parameters as they will be. -/
def writeRefused (s : State) (l : PLoc) (i : PInfo) (v : Word) : Option Status :=
  if decide (i.cls = .s) && !staticOpen s l then some .staticLocked
  else if valueBad (lateView s) l v then some .addrInvalid
  else none

/-- R17: the rank of a write; the restart of an engine comes after the pushes to its FIFOs. -/
def writeRank (who : Requester) (l : PLoc) : Nat :=
  match l with
  | .pewter _ o => if o = 0x00 then 5 else rankOf who
  | _ => rankOf who

/-- R217, R225: what a requester holds moves with the commit: the address of a word of the program store, and the list
address, which a following access finds advanced. -/
def sendHeld (s : State) (who : Requester) (l : PLoc) (low v : Word) : State :=
  match l with
  | .pewter p o => if o = 0x11 then setSel s who (.pewter p 0x11) (v &&& 0x3F0000) else s
  | .seqr r o => if o = 0x2 then setSel s who (.seqr r 0x1) (sqNextAddr low) else s
  | _ => s

/-- R9: a write whose class and value are right commits in the present tick: it acts in it, or it is checked against the
state it will meet and waits for the end of the tick. -/
def sendWrite (s : State) (who : Requester) (l : PLoc) (i : PInfo) (v : Word) : State × Status :=
  let low := lowFor s who l
  if atOnce l i then writePlace s who low l i v
  else
    let t := (writePlace (lateView s) who low l i v).2
    if t ≠ .ok then (s, t)
    else (addLate (sendHeld s who l low v) (writeRank who l) who (.write low l v), .ok)

/-- A write of a parameter by a requester (R13, R293): the next state and its status. A refused write changes nothing but
what the unit's own rule gives. -/
def writeParam (s : State) (who : Requester) (pa : Nat) (v : Word) : State × Status :=
  match locate pa with
  | none => (s, .addrInvalid)
  | some l =>
    match paramInfo l with
    | none => (s, .addrInvalid)
    | some i =>
      match writeRefused s l i v with
      | some t => (s, t)
      | none => sendWrite s who l i v

/-! ### Reading -/

/-- A word of bits, one for each index below `n`. -/
def bitsWord (n : Nat) (f : Nat → Bool) : Word := word ((List.range n).foldl (fun a i => a + bitAt (f i) i) 0)

/-- R47: eight state codes. -/
def statesWord (s : State) (k : Nat) : Word :=
  word ((List.range 8).foldl (fun a i => a + stateCode (s.doms[Fin.ofNat 16 (8 * k + i)]).leafSt * 2 ^ (3 * i)) 0)

/-- R279, R47: the causes of DEGRADED, the LATCHED bit and MODE_SEQ. -/
def chipMode (s : State) : Word :=
  word (modeCode s.sys.mode * 2 ^ 20 + bitAt (isLatched s .chip) 19 + bitAt (dgLane s) 18 + bitAt (dgElectrum s) 17 +
    bitAt (dgPll s) 16 + s.sys.seq.toNat)

/-- R393: bank `n` is invalid. -/
def bankBad (s : State) (n : Nat) : Bool := decide (fld s.sys.vio (2 * n + 1) (2 * n) = 0)

/-- R47: the snapshot a requester holds. -/
def snapOf (s : State) (who : Requester) : Option DomSnap := s.par.snaps.find? (fun x => decide (x.who = who))

/-- R47: a word of the requester's snapshot; 0 before its first capture. -/
def snapWord (s : State) (who : Requester) (o : Nat) : Word :=
  match snapOf (refreshSnaps s) who with
  | none => 0
  | some x =>
    if o = 0x51 then loWord x.t
    else if o = 0x52 then hiWord x.t
    else if o = 0x53 then x.st0
    else if o = 0x54 then x.st1
    else if o < 0x70 then x.angles[Fin.ofNat 16 (o - 0x60)]
    else x.cycles[Fin.ofNat 16 (o - 0x70)]

/-- A read of a chip-control parameter. -/
def readChip (s : State) (who : Requester) (o : Nat) : Word × State :=
  if o = 0x01 then
    (word (bitAt (decide (s.host.transport = .spi)) 3 + bitAt s.sys.core640 2 + bitAt Config.gradeEB 0), s)
  else if o = 0x02 then (chipMode s, s)
  else if o = 0x03 then (if s.sys.core640 then 25000 else 20000, s)
  else if o = 0x04 then (statesWord s 0, s)
  else if o = 0x05 then (statesWord s 1, s)
  else if o = 0x06 then (bitsWord 16 (fun d => armable s (Fin.ofNat 16 d)), s)
  else if o = 0x07 then (bitsWord 16 (fun k => lineLevel s (Fin.ofNat 16 k)), s)
  else if o = 0x08 then (bitsWord 16 (bankBad s), s)
  else if o = 0x0A then
    (bitsWord 16 (fun n => (List.range 32).any (fun i => pinSafe s (Fin.ofNat 512 (32 * n + i)))), s)
  else if o = 0x0B then (word (s.doms.toList.foldl (fun a d => a + d.arm.length) 0), s)
  else if o = 0x0C then (s.time.upSec, s)
  else if o = 0x22 then (pllStat s, s)
  else if o = 0x23 then (reg s (.chip 0x23) ||| word (bitAt s.time.clk.refOk 0), s)
  else if o = 0x24 then (loWord (now s), setCap s who (.chip 0x25) (hiWord (now s)))
  else if o = 0x25 then (hiWord (now s), s)
  else if o = 0x28 then (wordOfInt s.time.rate, s)
  else if o = 0x41 then (lcStat s, s)
  else if o = 0x42 then (wkeyId s, s)
  else if o = 0x47 then (sbankStat s, s)
  else if 0x51 ≤ o ∧ o ≤ 0x7F then (snapWord s who o, s)
  else if o = 0x99 then (excStat s, s)
  else if o = 0x9A then (zioStat s, s)
  else if o = 0x9B then (s.sys.vio.setWidth 24, s)
  else if o = 0x9C then ((s.sys.vio >>> 24).setWidth 24, s)
  else if 0xA0 ≤ o ∧ o ≤ 0xA7 then (excEnergy s (Fin.ofNat 8 (o - 0xA0)), s)
  else if 0xB0 ≤ o ∧ o ≤ 0xBF then (word (s.doms[Fin.ofNat 16 (o - 0xB0)]).arm.length, s)
  else if 0xC0 ≤ o ∧ o ≤ 0xD5 then
    (bitsWord 24 (fun b => decide (24 * (o - 0xC0) + b < 512) && pinSafe s (Fin.ofNat 512 (24 * (o - 0xC0) + b))), s)
  else (reg s (.chip o), s)

/-- A read of a cell parameter (R81, R83, R92). -/
def readCell (s : State) (who : Requester) (c : Fin 512) (o : Nat) : Word × State :=
  if o = 0x02 then (loWord (tickPart (cmpShown s c .a)), s)
  else if o = 0x03 then (hiWord (tickPart (cmpShown s c .a)), s)
  else if o = 0x04 then (loWord (tickPart (cmpShown s c .b)), s)
  else if o = 0x05 then (hiWord (tickPart (cmpShown s c .b)), s)
  else if o = 0x0B then (trimShown s c, s)
  else if o = 0x06 then readCapLo s who c
  else if o = 0x07 then (match poppedOf s c who with
    | some p => hiWord (tickPart p.t)
    | none => 0, s)
  else if o = 0x08 then (cellStatus s who c, s)
  else (reg s (.cell c o), s)

/-- R49: TRK_STAT of a tracker. -/
def trkStat (s : State) (k : Fin 16) : Word :=
  match domOfTrk s k with
  | none => 0
  | some d =>
    let cfg := reg s (.dom d 0x05)
    word (2 ^ 23 + d.val * 2 ^ 19 + bitAt (xbarLevel s (regionOfTrk k) (fld cfg 7 0)) 18 + fld cfg 9 8 * 2 ^ 16 +
      fld cfg 7 0 * 2 ^ 8)

/-- A read of a region parameter (R48, R49). -/
def readRegion (s : State) (who : Requester) (r : Fin 4) (o : Nat) : Word × State :=
  let trk := fun (n : Nat) => Fin.ofNat 16 (4 * r.val + n)
  let pin := fun (w : Nat) (f : Fin 512 → Bool) =>
    bitsWord 24 (fun b => decide (24 * w + b < 128) && f (Fin.ofNat 512 (128 * r.val + 24 * w + b)))
  if o = 0x00 then
    (word (bitAt (inFault s (.region r)) 7 + bitAt (isLatched s (.region r)) 6 + bitAt (calHeld s r) 5 +
      bitAt s.seqs[r].held 4), s)
  else if 0x04 ≤ o ∧ o ≤ 0x07 then (trkStat s (trk (o - 0x04)), s)
  else if 0x08 ≤ o ∧ o ≤ 0x0F then
    let t := s.trks[trk ((o - 0x08) / 2)].lastEdge
    if o % 2 = 0 then (loWord t, setCap s who (.region r (o + 1)) (hiWord t)) else (hiWord t, s)
  else if 0x14 ≤ o ∧ o ≤ 0x19 then (pin (o - 0x14) (inLevel s), s)
  else if 0x1A ≤ o ∧ o ≤ 0x1F then (pin (o - 0x1A) (ballLevel s), s)
  else if 0x20 ≤ o ∧ o ≤ 0x25 then (pin (o - 0x20) (fun c => (driven s c).isSome), s)
  else (reg s (.region r o), s)

/-- A read of a domain parameter (R78, R80). -/
def readDomParam (s : State) (who : Requester) (d : Fin 16) (o : Nat) : Word × State :=
  let x := s.doms[d]
  if o = 0x19 then (domStatus s d, s)
  else if o = 0x1A then readAngle s who d
  else if o = 0x1B then (x.leafCycle, s)
  else if o = 0x1C then (x.leafPeriod, s)
  else if o = 0x1D then (loWord x.leafPin, s)
  else if o = 0x1E then (hiWord x.leafPin, s)
  else (reg s (.dom d o), s)

/-- A read of a channel parameter (R181, R195, R197). -/
def readChanParam (s : State) (who : Requester) (c : Fin 64) (o : Nat) : Word × State :=
  let x := s.chans[c]
  if o = 0x0E then (loWord x.pcmp, s)
  else if o = 0x0F then (hiWord x.pcmp, s)
  else if o = 0x17 then readPosLo s who c
  else if o = 0x18 then (hiWord x.pos, s)
  else if o = 0x19 then ((spdView s c).speed, s)
  else if o = 0x1A then (chanStatus s c, s)
  else if o = 0x1B then (loWord x.posT, s)
  else if o = 0x1C then (hiWord x.posT, s)
  else if o = 0x1D then readIdxLo s who c
  else if o = 0x1E then (hiWord x.idxPos, s)
  else if o = 0x1F then (loWord x.idxT, s)
  else if o = 0x20 then (hiWord x.idxT, s)
  else if o = 0x23 then (chanRaw s c, s)
  else (reg s (.chan c o), s)

/-- A read of an engine parameter (R216, R217). -/
def readPewterParam (s : State) (who : Requester) (p : Fin 32) (o : Nat) : Word × State :=
  let e := s.pes[p]
  if o = 0x09 then (peStatus s p, s)
  else if o = 0x0A then (e.x, s)
  else if o = 0x0B then (e.y, s)
  else if o = 0x0C then (e.isr, s)
  else if o = 0x0D then (e.osr, s)
  else if o = 0x0E then (word (e.isc * 256 + e.osc), s)
  else if o = 0x0F then readPeRxdata s p
  else if o = 0x11 then (readPeProg s who p, s)
  else if o = 0x12 then (readPeLut s who p, s)
  else (reg s (.pewter p o), s)

/-- A read of a converter parameter (R237, R238). -/
def readAdcParam (s : State) (who : Requester) (a : Fin 32) (o : Nat) : Word × State :=
  let x := s.adcs[a]
  if o = 0x2 then readAdcLast s who a
  else if o = 0x3 then (loWord x.lastT, s)
  else if o = 0x4 then (hiWord x.lastT, s)
  else if o = 0x6 then (word (x.wraps.toNat * 4096 + x.index.toNat), s)
  else if o = 0x7 then
    (reg s (.adc a 0x7) ||| word (bitAt (adcOwned s a) 5 + bitAt (adcBusy s a) 4), s)
  else (reg s (.adc a o), s)

/-- A read of a comparator parameter (R239, R240). -/
def readCompParam (s : State) (w : Fin 64) (o : Nat) : Word :=
  let x := s.comps[w]
  if o = 0x5 then
    reg s (.comp w 0x5) ||| word (zoneCode x.zone * 2 ^ 22 + bitAt x.trip 21 + bitAt x.unresolved 20 +
      bitAt (settling s w) 19)
  else if o = 0x7 then loWord x.tripT
  else if o = 0x8 then hiWord x.tripT
  else reg s (.comp w o)

/-- A read of a sequencer parameter (R241, R242). -/
def readSeqrParam (s : State) (who : Requester) (r : Fin 4) (o : Nat) : Word × State :=
  let q := s.seqs[r]
  let a := selOf s who (.seqr r 0x1)
  if o = 0x1 then (a, s)
  else if o = 0x2 then (sqWord s r (Fin.ofNat 64 (fld a 7 2)) (fld a 1 0), setSel s who (.seqr r 0x1) (sqNextAddr a))
  else if o = 0x4 then (reg s (.seqr r 0x4) ||| word (q.pend.length * 2 ^ 19), s)
  else if o = 0x8 then (bitsWord 8 (fun k => adcOwned s (Fin.ofNat 32 (8 * r.val + k))), s)
  else if o = 0x9 then (word q.lastEntry.val, s)
  else if o = 0xA then (loWord q.lastT, s)
  else if o = 0xB then (hiWord q.lastT, s)
  else if 0xC ≤ o ∧ o ≤ 0xE then
    (bitsWord 24 (fun k => decide (24 * (o - 0xC) + k < 64) && sqEn s r (Fin.ofNat 64 (24 * (o - 0xC) + k))), s)
  else (reg s (.seqr r o), s)

/-- R279, R324: held slots. -/
def openCount (s : State) : Nat := (s.flt.slots.toList.filter (fun o => o.isSome)).length

/-- R324: the highest applied level of a held slot; 7 none. -/
def topLevel (s : State) : Nat :=
  let l := s.flt.slots.toList.filterMap (fun o => match o with
    | some f => some f.level
    | none => none)
  if l.isEmpty then 7 else l.foldl max 0

/-- R324: FLT_STAT. -/
def fltStat (s : State) : Word :=
  word (openCount s * 2 ^ 17 + topLevel s * 2 ^ 14 + bitAt (isLatched s .chip) 13 + bitAt (inFault s .chip) 12 +
    bitAt s.flt.pin 11 + bitAt s.flt.pinReleased 10 + bitAt s.flt.safeReqLow 9 + s.flt.seq.toNat) |||
    (reg s (.faults 0x01) &&& 0x100)

/-- R304: the index of a scope. -/
def scopeIndex (x : Scope) : Nat :=
  match x with
  | .cell c => c.val
  | .block b => b.val
  | .region r => r.val
  | .chip => 0

/-- R324: FLT_OPEN of a slot. -/
def fltOpen (s : State) (k : Fin 64) : Word :=
  match s.flt.slots[k] with
  | none => 0
  | some f =>
    word (2 ^ 23 + bitAt f.acked.isSome 22 + bitAt f.closed.isSome 21 + f.level * 2 ^ 18 + scopeIndex f.home * 2 ^ 9 +
      bitAt f.escalated 8 + f.cls.toNat)

/-- A read of a fault parameter (R323, R324). -/
def readFaultParam (s : State) (o : Nat) : Word :=
  let cell := fun (f : Scope → Bool) (w : Nat) =>
    bitsWord 24 (fun b => decide (24 * w + b < 512) && f (.cell (Fin.ofNat 512 (24 * w + b))))
  let blk := fun (f : Scope → Bool) (w n : Nat) => bitsWord n (fun b => f (.block (Fin.ofNat 32 (24 * w + b))))
  if o = 0x01 then fltStat s
  else if o = 0x09 then bitsWord 4 (fun r => isLatched s (.region (Fin.ofNat 4 r)))
  else if o = 0x0A then blk (isLatched s) 0 24
  else if o = 0x0B then blk (isLatched s) 1 8
  else if o = 0x0C then bitsWord 4 (fun r => inFault s (.region (Fin.ofNat 4 r)))
  else if o = 0x0D then blk (inFault s) 0 24
  else if o = 0x0E then blk (inFault s) 1 8
  else if 0x40 ≤ o ∧ o ≤ 0x7F then fltOpen s (Fin.ofNat 64 (o - 0x40))
  else if 0xC0 ≤ o ∧ o ≤ 0xD5 then cell (isLatched s) (o - 0xC0)
  else if 0xE0 ≤ o ∧ o ≤ 0xF5 then cell (inFault s) (o - 0xE0)
  else reg s (.faults o)

/-- What a read of a place shows, and what it captures, pops or advances. -/
def readPlace (s : State) (who : Requester) (l : PLoc) : Word × State :=
  match l with
  | .chip o => readChip s who o
  | .cell c o => readCell s who c o
  | .block b o => (peekBlock s b o, s)
  | .region r o => readRegion s who r o
  | .dom d o => readDomParam s who d o
  | .chan c o => readChanParam s who c o
  | .gang r o => (if o = 0x02 then word (carCount s (.gang r)) else if o = 0x03 then carStatus s (.gang r) else reg s l, s)
  | .pewter p o => readPewterParam s who p o
  | .adc a o => readAdcParam s who a o
  | .comp w o => (readCompParam s w o, s)
  | .seqr r o => readSeqrParam s who r o
  | .link o => readLink s who o
  | .faults o => (readFaultParam s o, s)
  | .life o => readLife s who o
  | .monitor o => (readMonitor s o, s)
  | .pram b w _ => (pramSeen s b w true, s)
  | .rram r w => (portRram s r w, askBank s r w 8 none)

/-- R353: the uncorrectable word a read meets. -/
def readBad (s : State) (l : PLoc) : Option (MemId × Nat × Nat) :=
  match l with
  | .pram b w _ => if eccBad s .paramRam b.val w then some (.paramRam, b.val, w) else none
  | .rram r w => if eccBad s .regionRam r.val w then some (.regionRam, r.val, w) else none
  | _ => none

/-- R13, R15: a read shows `v` and clears the read-to-clear bits `rc`: what the device sets in the present tick is not shown
and stays. -/
def readClear (s : State) (l : PLoc) (rc v : Word) : Word × State :=
  if rc = 0 then (v, s)
  else
    match freshKept s l with
    | [] => (v, setReg s l (reg s l &&& ~~~rc))
    | x :: t =>
      ((v &&& ~~~rc) ||| (x.old &&& rc), setReg s l ((reg s l &&& ~~~rc) ||| (t.foldl (fun a y => a + y.add) x.add &&& rc)))

/-- A read of a parameter by a requester (R13, R293, R353): its value, the next state, its status. A captured word is
returned once; a read-to-clear field is cleared. -/
def readParam (s : State) (who : Requester) (pa : Nat) : Word × State × Status :=
  match locate pa with
  | none => (0, s, .addrInvalid)
  | some l =>
    match paramInfo l with
    | none => (0, s, .addrInvalid)
    | some i =>
      match readBad s l with
      | some m => (0, eccUncorrectable s m.1 m.2.1 m.2.2, .scopeFault)
      | none =>
        match capOf s who l with
        | some v => (v, dropCap s who l, .ok)
        | none =>
          let r := readPlace s who l
          let c := readClear r.2 l i.rc r.1
          (c.1, c.2, .ok)

end Sys2Proof.Machine
end

