-- ==== Sys2Proof/Machine/Host.lean ====
section
/-!
DEFINITION. The host interface (10_mailbox_interface.md R271 to R289, R293, R297, R298; 11_faults_and_recovery.md R319;
12_modes_and_startup.md R339): host registers, ring configuration and doorbells, posting, spill and overflow of records,
interrupts, the SPI port, and the supervisor's restarts.
-/
namespace Sys2Proof.Machine

/-- The host part of the state after a change of it. -/
def updHost (s : State) (f : HostIf → HostIf) : State := { s with host := f s.host }

/-- R334, R339: the host registers are powered and clocked, and in BOOT the transport is ready. -/
def hostUp (s : State) : Bool := clockOn s && (decide (s.sys.mode ≠ .boot) || decide (3 ≤ s.boot.phase.toNat))

/-- R271: the transport in use is SPI. -/
def overSpi (s : State) : Bool := decide (s.host.transport = .spi)

/-- R319, R328, R345, R346: the supervisor is in service. -/
def supOn (s : State) : Bool :=
  alive s && decide (s.sys.mode ≠ .powerFail) && s.sup.out.isNone && !s.sup.halted

/-! ### Violations of the host port -/

/-- R276, R298: a refused access of the host: the answer on the transport, and the violation. `space` is 0 for BAR0 and 1
for BAR2 over PCI Express; over SPI the space is 2 and the address is the SPI address. -/
def refuseAccess (s : State) (space a access : Nat) (guarded : Bool) : State :=
  let code := if guarded then 0xFE else 0xFF
  if overSpi s then
    let addr := if space = 1 then 0x200000 + a else a
    violation (updHost s (fun h => { h with spiSticky := h.spiSticky ||| (if guarded then 0x20 else 0x40) })) addr 1 access 2 0
      code 0
  else violation (busOut s (if guarded then .completerAbort else .unsupportedRequest)) a 0 access space 0 code 0

/-- R281, R284, R298: a refused doorbell. -/
def refuseBell (s : State) (a : Nat) : State :=
  raiseIrq (violation s a (if overSpi s then 1 else 0) 2 (if overSpi s then 2 else 0) 0 0xFD 0) 1

/-! ### Records: posting, spill, overflow, interrupts -/

/-- R279: an event ring is enabled. -/
def eqOn (s : State) (r : Fin 16) : Bool := bit (eqCfg s r) 31

/-- R284: an event ring is full. -/
def eqFull (s : State) (r : Fin 16) : Bool :=
  decide (depthOf (eqCfg s r) ≤ (s.host.evts[r].tail - s.host.evts[r].head).toNat)

/-- R272, R284, R287: a record can go into the ring now. -/
def canPost (s : State) (r : Fin 16) : Bool :=
  !eqFull s r && (bit (eqCfg s r) 30 || s.host.busMaster)

/-- R303: the ring sequence of a FAULT record, in its open-fault slot and its history entry. -/
def noteFaultSeq (s : State) (x : Rec) (q : Byte) : State :=
  if x.typ = 0x05 then
    histUpdate (updFlt s (fun c => { c with slots := c.slots.map (fun o => match o with
      | some f => if f.body = x then some { f with seq := q } else some f
      | none => none) })) x (fun h => { h with seq := q })
  else s

/-- R289: the interrupt of an event ring: the condition is consumed, H_EQ_SUM shows it, and the vector goes out. -/
def fireIrq (s : State) (r : Fin 16) : State :=
  let t := s.host.evts[r].tail
  let s1 := updEvt s r (fun e => { e with irqTail := t, sinceIrq := 0, oldest := none, sumBit := some t })
  if overSpi s then s1 else sendVector s1 (Fin.ofNat 32 (fld (eqCfg s r) 29 25))

/-- R289: the count condition. -/
def irqCount (s : State) (r : Fin 16) : State :=
  let cfg := eqCfg s r
  if bit cfg 24 && decide (max 1 (fld cfg 19 12) ≤ s.host.evts[r].sinceIrq) then fireIrq s r else s

/-- R284, R285: a record goes into its ring slot; TAIL moves on, and the status slot and the interrupt follow. -/
def postNow (s : State) (r : Fin 16) (q : Byte) (x : Rec) : State :=
  let e := s.host.evts[r]
  let cfg := eqCfg s r
  let a := eqBase s r + BitVec.ofNat 64 (16 * (e.tail.toNat % depthOf cfg))
  let s1 := noteFaultSeq (writeOut s (bit cfg 30) a (recBytes x q)) x q
  let s2 := updEvt s1 r (fun v =>
    { v with tail := v.tail + 1, sinceIrq := v.sinceIrq + 1, oldest := some (v.oldest.getD s.time.tick) })
  irqCount (writeEqSlot (updHost s2 (fun h => { h with recCount := h.recCount + 1 })) r) r

/-- R287: the OVERFLOW record enters the spill buffer when it has a free place after drops. -/
def putOverflow (s : State) (r : Fin 16) : State :=
  let e := s.host.evts[r]
  if decide (e.dropped = 0) || decide (64 ≤ e.spill.length) then s
  else
    let x : Rec := ⟨0x02, BitVec.ofNat 16 r.val, now s, word (min 0xFFFFFF e.dropped), e.firstDropped.setWidth 24⟩
    updEvt s r (fun v => { v with spill := v.spill ++ [(v.seq, x)], seq := v.seq + 1, dropped := 0 })

/-- R287: SPILL_DRAIN: records move from the spill buffer into the ring in arrival order. -/
def drain (fuel : Nat) (s : State) (r : Fin 16) : State :=
  match fuel with
  | 0 => s
  | n + 1 =>
    let s0 := putOverflow s r
    match s0.host.evts[r].spill with
    | [] => s0
    | (q, x) :: t =>
      if eqOn s0 r && canPost s0 r then drain n (postNow (updEvt s0 r (fun v => { v with spill := t })) r q x) r
      else s0

/-- R346, R328: records are posted outside BOOT, RETENTION and POWER-FAIL. -/
def postingOn (s : State) : Bool := alive s && decide (s.sys.mode ≠ .powerFail)

/-- R287: a spill buffer drains wholly. -/
def drainAll (s : State) (r : Fin 16) : State := if postingOn s then drain 130 s r else s

/-- R286, R287: a record reaches its event ring. -/
def arrive (s : State) (r : Fin 16) (x : Rec) : State :=
  if !eqOn s r then
    orReg (updEvt s r (fun v => { v with disc := BitVec.ofNat 16 (satAdd 16 v.disc.toNat 1) })) (.chip 0x09) (2 ^ r.val)
  else
    let s0 := drainAll s r
    let e := s0.host.evts[r]
    let q := e.seq
    let s1 := updEvt s0 r (fun v => { v with seq := v.seq + 1 })
    if e.spill.isEmpty && canPost s0 r then postNow s1 r q x
    else if e.spill.length < 64 then updEvt s1 r (fun v => { v with spill := v.spill ++ [(q, x)] })
    else orReg (updEvt s1 r (fun v =>
      { v with dropped := v.dropped + 1, firstDropped := if v.dropped = 0 then q else v.firstDropped })) (.chip 0x09) (2 ^ r.val)

/-- RECORD_POST (R19, R287): the oldest record of the ring arbiter goes to its event ring. -/
def doRecordPost (s : State) : State :=
  if !postingOn s then s
  else
    match s.host.arb with
    | [] => s
    | p :: t => arrive (updHost s (fun h => { h with arb := t })) p.ring p.body

/-- IRQ_HOLDOFF_EXPIRY (R289): the oldest record since the last interrupt is IRQ_HOLDOFF microseconds of 800 ticks old. -/
def doIrqHoldoff (r : Fin 16) (s : State) : State :=
  let cfg := eqCfg s r
  let e := s.host.evts[r]
  match e.oldest with
  | none => s
  | some t =>
    if postingOn s && eqOn s r && bit cfg 24 && decide (fld cfg 11 0 ≠ 0) && decide (e.tail ≠ e.irqTail) &&
        decide (t + 800 * fld cfg 11 0 ≤ s.time.tick) then fireIrq s r
    else s

/-- R289: pending vectors that may go out now. -/
def sendPending (s : State) : State :=
  (List.finRange 32).foldl (fun (z : State) (v : Fin 32) =>
    if bit z.host.msixPend v.val && z.host.busMaster && !z.host.msixFnMask && !bit z.host.msixMask v.val then
      busOut (updHost z (fun h => { h with msixPend := h.msixPend &&& ~~~(BitVec.ofNat 32 (2 ^ v.val)) })) (.msix v)
    else z) s

/-- MSI_X_VECTOR_UNMASK (R289): one vector, or the function. -/
def doUnmask (vec : Option (Fin 32)) (s : State) : State :=
  if overSpi s || !hostUp s then s
  else
    sendPending (updHost s (fun h => match vec with
      | some v => { h with msixMask := h.msixMask &&& ~~~(BitVec.ofNat 32 (2 ^ v.val)) }
      | none => { h with msixFnMask := false }))

/-- BUS_MASTER_ENABLE (R272): held records and interrupts go out. -/
def doBusMaster (s : State) : State :=
  if overSpi s || !hostUp s then s
  else
    (List.finRange 16).foldl drainAll (sendPending (updHost s (fun h => { h with busMaster := true })))

/-! ### Ring configuration and doorbells -/

/-- R280: a placement that may not be enabled. -/
def placeBad (s : State) (cfg : Word32) (base : BitVec 64) (entry : Nat) : Bool :=
  let d := fld cfg 23 20
  let n := 2 ^ d * entry + 64
  decide (d < 4 ∨ 12 < d) || (overSpi s && !bit cfg 30) ||
    (bit cfg 30 && decide (base.toNat < 0x10000 ∨ 0x200000 < base.toNat + n))

/-- H_SQN_CFG_EN (R279, R280, R288): a write of H_SQn_CFG. -/
def writeSqCfg (s : State) (r : Fin 16) (v : Word32) : State :=
  let old := sqCfg s r
  let new := v &&& 0xFFF00000
  if bit v 31 && placeBad s new (sqBase s r) 32 then refuseAccess s 0 (sqReg r 0x08) 1 true
  else
    let s1 := setHreg s (sqReg r 0x08) (if bit old 31 then new ||| 0x80000000 else new)
    if bit v 31 && !bit old 31 then
      writeSqSlot (updHost (updSub s1 r (fun _ => subReset)) (fun h =>
        { h with sqErr := h.sqErr &&& ~~~(BitVec.ofNat 16 (2 ^ r.val)), bells := h.bells.set r [] })) r
    else if !bit v 31 && bit old 31 then
      settleRing (updSub s1 r (fun x =>
        { x with disabling := true, fetched := [], waitFor := none, fetchFail := false, parked := [] })) r
    else s1

/-- R286, R288: records for a ring that were committed before the present tick meet the ring as it was: they reach it, or are
lost to it, before its enable changes. -/
def arriveEarlier (s : State) (r : Fin 16) : State :=
  if !postingOn s then s
  else
    let now_ := s.host.arb.filter (fun p => decide (p.ring = r ∧ p.tick < s.time.tick))
    now_.foldl (fun z p => arrive z r p.body)
      (updHost s (fun h => { h with arb := h.arb.filter (fun p => !decide (p.ring = r ∧ p.tick < s.time.tick)) }))

/-- H_EQN_CFG_EN (R279, R280, R287, R288): a write of H_EQn_CFG. -/
def writeEqCfg (s : State) (r : Fin 16) (v : Word32) : State :=
  let old := eqCfg s r
  if bit v 31 && placeBad s v (eqBase s r) 16 then refuseAccess s 0 (eqReg r 0x08) 1 true
  else
    let s1 := setHreg (if bit v 31 && !bit old 31 then arriveEarlier s r else s) (eqReg r 0x08) (if bit old 31 then v ||| 0x80000000 else v)
    if bit v 31 && !bit old 31 then
      writeEqSlot (updEvt s1 r (fun e => { evtReset with disc := e.disc })) r
    else if bit v 31 then irqCount (drainAll (updEvt s1 r (fun e => { e with disabling := false })) r) r
    else updEvt s1 r (fun e => { e with disabling := bit old 31 })

/-- R288: a disable of an event ring takes effect in the tick after its write. -/
def endDisable (s : State) (r : Fin 16) : State :=
  if s.host.evts[r].disabling then
    updEvt (setHreg (arriveEarlier s r) (eqReg r 0x08) (eqCfg s r &&& 0x7FFFFFFF)) r (fun e =>
      { e with disabling := false, spill := [], dropped := 0, sumBit := none, oldest := none })
  else s

/-- DOORBELL (R281, R293, R298): a write of TAIL. -/
def writeBell (s : State) (r : Fin 16) (tail : BitVec 16) : State :=
  let x := s.host.subs[r]
  let s0 := updHost s (fun h => { h with watchdogFrom := s.time.tick })
  let lvl := (tail - x.done).toNat
  if !bit (sqCfg s r) 31 || decide (depthOf (sqCfg s r) < lvl) || decide (lvl < (x.tail - x.done).toNat) then
    refuseBell s0 (sqReg r 0x0C)
  else
    updHost (updSub s0 r (fun y => { y with tail := tail })) (fun h =>
      { h with bells := h.bells.set r (h.bells[r] ++ [(tail, s.time.tick)]) })

/-- H_EQN_DB (R284, R287, R289): a write of HEAD frees slots, and the spill buffer drains. -/
def writeEqBell (s : State) (r : Fin 16) (head : BitVec 32) : State :=
  let e := s.host.evts[r]
  if !eqOn s r || decide ((e.tail - e.head).toNat < (head - e.head).toNat) then refuseBell s (eqReg r 0x0C)
  else
    let clear := match e.sumBit with
      | some t => decide ((t - e.head).toNat ≤ (head - e.head).toNat)
      | none => false
    drainAll (updEvt s r (fun v => { v with head := head, sumBit := if clear then none else v.sumBit })) r

/-! ### Host registers -/

/-- R278: a ring register: submission or event, ring, and offset in its group. -/
def ringRegOf (a : Nat) : Option (Bool × Fin 16 × Nat) :=
  if 0x100 ≤ a ∧ a < 0x300 ∧ a % 4 = 0 ∧ a % 0x20 ≤ 0x10 then
    some (false, Fin.ofNat 16 ((a - 0x100) / 0x20), a % 0x20)
  else if 0x300 ≤ a ∧ a < 0x500 ∧ a % 4 = 0 ∧ a % 0x20 ≤ 0x14 then
    some (true, Fin.ofNat 16 ((a - 0x300) / 0x20), a % 0x20)
  else none

/-- R273, R277: an address of the chip-level registers, the MSI-X table or its pending bits. -/
def chipReg (s : State) (a : Nat) : Bool :=
  decide (a % 4 = 0) && (decide (a < 0x090) ||
    (!overSpi s && decide (0x2000 ≤ a ∧ a < 0x2200 ∨ 0x3000 ≤ a ∧ a < 0x3008)))

/-- R339: a register the host can read in BOOT. -/
def bootReadable (a : Nat) : Bool := decide (a = 0x000 ∨ a = 0x018 ∨ a = 0x020 ∨ a = 0x01C)

/-- R277: H_HOST_CTRL; in BOOT only IMAGE_READY can be written (R336, R339). -/
def writeHostCtrl (s : State) (v : Word32) : State :=
  if s.sys.mode = .boot then
    if bit v 8 then imageReadySet (updHost s (fun h => { h with hostCtrl := h.hostCtrl ||| 0x100 }))
    else updHost s (fun h => { h with hostCtrl := h.hostCtrl &&& 0xFFFFFEFF })
  else updHost s (fun h => { h with hostCtrl := v &&& 0x11F })

/-- H_VLOG_STAT_CLEAR (R298). -/
def writeVlogStat (s : State) (v : Word32) : State :=
  if bit v 31 then updHost s (fun h => { h with vlog := [], vlogLost := 0 }) else s

/-- R273, R289: a write of the MSI-X table: message words, or a vector's mask bit, whose clearing sends what is pending. -/
def writeMsix (s : State) (a : Nat) (v : Word32) : State :=
  let k := (a - 0x2000) / 16
  if a % 16 = 12 then
    let m := BitVec.ofNat 32 (2 ^ k)
    sendPending (updHost s (fun h => { h with msixMask := if bit v 0 then h.msixMask ||| m else h.msixMask &&& ~~~m }))
  else setHreg s a v

/-- A write of a chip-level host register (R277, R279). -/
def writeChipReg (s : State) (a : Nat) (v : Word32) : State :=
  if a = 0x024 then writeHostCtrl s v
  else if a = 0x02C then setHreg s a v
  else if a = 0x040 then updHost s (fun h => { h with irqStat := hostClear s a h.irqStat v })
  else if a = 0x044 then setHreg s a (v &&& 0x3F)
  else if a = 0x048 then setHreg s a (v &&& 0x1F)
  else if a = 0x054 then updHost s (fun h => { h with dmaStat := hostClear s a h.dmaStat (v &&& 0xF) })
  else if a = 0x060 then writeVlogStat s v
  else if a = 0x064 then setHreg s a (v &&& 0xF)
  else if a = 0x080 then (if 4 ≤ fld v 3 0 then setHreg s a (v &&& 0xF) else s)
  else if 0x2000 ≤ a ∧ a < 0x2200 then writeMsix s a v
  else s

/-- A write of a ring register (R276, R278). -/
def writeRingReg (s : State) (isEq : Bool) (r : Fin 16) (o : Nat) (v : Word32) : State :=
  let a := if isEq then eqReg r o else sqReg r o
  let en := bit (if isEq then eqCfg s r else sqCfg s r) 31
  if o = 0x00 then (if en then refuseAccess s 0 a 1 true else setHreg s a (v &&& 0xFFFFFFC0))
  else if o = 0x04 then (if en then refuseAccess s 0 a 1 true else setHreg s a v)
  else if o = 0x08 then (if isEq then writeEqCfg s r v else writeSqCfg s r v)
  else if o = 0x0C then (if isEq then writeEqBell s r v else writeBell s r (v.setWidth 16))
  else s

/-- HOST_REGISTER_WRITE (R276, R339): a write of a host register by an aligned 32-bit access, or a refused access. -/
def writeHostReg (s : State) (a : Nat) (v : Word32) : State :=
  if !hostUp s then s
  else if s.sys.mode = .boot then (if a = 0x024 then writeHostCtrl s v else s)
  else
    match ringRegOf a with
    | some x => writeRingReg s x.1 x.2.1 x.2.2 v
    | none => if chipReg s a then writeChipReg s a v else refuseAccess s 0 a 1 false

/-- R276: an access of another size is treated as unmapped. -/
def doHostRegisterWrite (a : BitVec 16) (size : Nat) (v : Word32) (s : State) : State :=
  if !hostUp s then s
  else if size = 4 then writeHostReg s a.toNat v
  else if s.sys.mode = .boot then s
  else refuseAccess s 0 a.toNat 1 false

/-- R279: H_MODE. -/
def hMode (s : State) : Word32 :=
  BitVec.ofNat 32 (modeCode s.sys.mode * 2 ^ 28 + bitAt (dgLane s) 15 + bitAt (dgElectrum s) 14 + bitAt (dgPll s) 13 +
    bitAt (isLatched s .chip) 12 + s.sys.seq.toNat)

/-- R279: H_FAULT_SUM. -/
def hFaultSum (s : State) : Word32 :=
  BitVec.ofNat 32 (topLevel s * 2 ^ 24 + openCount s * 2 ^ 16 + bitAt s.flt.pin 15 + bitAt s.flt.safeReqLow 14 +
    s.flt.seq.toNat)

/-- R277: H_EQ_SUM. -/
def hEqSum (s : State) : Word32 :=
  BitVec.ofNat 32 ((List.range 16).foldl (fun a i =>
    a + bitAt (!(s.host.evts[Fin.ofNat 16 i]).spill.isEmpty) (16 + i) + bitAt (s.host.evts[Fin.ofNat 16 i]).sumBit.isSome i) 0)

/-- R289: HIRQ_N is asserted. -/
def hirq (s : State) : Bool :=
  overSpi s && (decide (hEqSum s &&& 0xFFFF ≠ 0) || decide (s.host.irqStat &&& hreg s 0x044 ≠ 0))

/-- R298: the violation that H_VLOG_SEL shows. -/
def vlogShown (s : State) : Viol :=
  match s.host.vlog[(hreg s 0x064).toNat]? with
  | some v => v
  | none => ⟨0, 0, 0⟩

/-- R279: H_BOOT_STAT. -/
def hBootStat (s : State) : Word32 :=
  BitVec.ofNat 32 (bitAt s.boot.source 30 + bitAt s.boot.staged 29 + bitAt s.boot.bistFail 28 + s.boot.bootMs.toNat)

/-- A read of a chip-level host register (R277, R279), with what it captures or clears. -/
def readChipReg (s : State) (a : Nat) : Word32 × State :=
  let lt32 : Word32 := (now s).setWidth 32
  let hi16 : BitVec 16 := (now s >>> 32).setWidth 16
  if a = 0x000 then (if Config.gradeEB then 0x51202101 else 0x51202100, s)
  else if a = 0x004 then (Config.serial.setWidth 32, s)
  else if a = 0x008 then ((Config.serial >>> 32).setWidth 32, s)
  else if a = 0x00C then (s.boot.version, s)
  else if a = 0x010 then (3, s)
  else if a = 0x014 then (s.boot.patch.setWidth 32, s)
  else if a = 0x018 then (hMode s, s)
  else if a = 0x01C then (BitVec.ofNat 32 (lcCode s.sec.lc + bitAt s.sec.debugOk 8), s)
  else if a = 0x020 then (hBootStat s, s)
  else if a = 0x024 then (s.host.hostCtrl, s)
  else if a = 0x028 then (s.host.heartbeat, s)
  else if a = 0x030 then (lt32, updHost s (fun h => { h with ltHeld := some hi16 }))
  else if a = 0x034 then
    (match s.host.ltHeld with
      | some v => (v.setWidth 32, updHost s (fun h => { h with ltHeld := none }))
      | none => (hi16.setWidth 32, s))
  else if a = 0x038 then (hFaultSum s, s)
  else if a = 0x03C then (BitVec.ofNat 32 (bitAt s.host.sessionOpen 31 + s.host.session.toNat), s)
  else if a = 0x040 then (s.host.irqStat, s)
  else if a = 0x04C then (hEqSum s, s)
  else if a = 0x050 then (s.host.sqErr.setWidth 32, s)
  else if a = 0x054 then (s.host.dmaStat, s)
  else if a = 0x058 then (s.host.dmaErr.setWidth 32, s)
  else if a = 0x05C then ((s.host.dmaErr >>> 32).setWidth 32, s)
  else if a = 0x060 then (BitVec.ofNat 32 (s.host.vlogLost.toNat * 256 + s.host.vlog.length), s)
  else if a = 0x068 then ((vlogShown s).addr, s)
  else if a = 0x06C then ((vlogShown s).info, s)
  else if a = 0x070 then ((vlogShown s).t.setWidth 32, s)
  else if a = 0x074 then (((vlogShown s).t >>> 32).setWidth 32, s)
  else if a = 0x078 then (s.host.supRestarts.setWidth 32, s)
  else if a = 0x07C then
    (match hostKept s a with
      | [] => (s.host.cmdLatMax.setWidth 32, updHost s (fun h => { h with cmdLatMax := 0 }))
      | x :: _ => (x.old.setWidth 32, updHost s (fun h => { h with cmdLatMax := x.add })))
  else if a = 0x084 then (s.host.watchdogMs.setWidth 32, s)
  else if a = 0x088 then (s.host.cmdCount, s)
  else if a = 0x08C then (s.host.recCount, s)
  else if 0x3000 ≤ a then (if a = 0x3000 then s.host.msixPend else 0, s)
  else if 0x2000 ≤ a ∧ a % 16 = 12 then
    (BitVec.ofNat 32 (bitAt (bit s.host.msixMask ((a - 0x2000) / 16)) 0), s)
  else (hreg s a, s)

/-- A read of a ring register (R278). -/
def readRingReg (s : State) (isEq : Bool) (r : Fin 16) (o : Nat) : Word32 :=
  let x := s.host.subs[r]
  let e := s.host.evts[r]
  if o ≤ 0x08 then hreg s (if isEq then eqReg r o else sqReg r o)
  else if o = 0x0C then (if isEq then e.head else x.tail.setWidth 32)
  else if o = 0x10 then (if isEq then e.tail else BitVec.ofNat 32 (x.done.toNat * 2 ^ 16 + x.head.toNat))
  else BitVec.ofNat 32 (e.disc.toNat * 2 ^ 16 + e.spill.length)

/-- A read of a host register: its value, and what the read changes. An unmapped read answers zero and is a violation. -/
def readHostReg (s : State) (a : Nat) : Word32 × State :=
  if s.sys.mode = .boot then (if bootReadable a then (readChipReg s a).1 else 0, s)
  else
    match ringRegOf a with
    | some x => (readRingReg s x.1 x.2.1 x.2.2, s)
    | none => if chipReg s a then readChipReg s a else (0, refuseAccess s 0 a 0 false)

/-- H_LT_LO_READ and H_CMD_LAT_MAX_READ (R277): a read whose data goes to the host. -/
def doHostRead (a : Nat) (s : State) : State :=
  if !hostUp s then s
  else
    let r := readHostReg s a
    busOut r.2 (.readData (leBytes r.1.toNat 4))

/-! ### Ring memory -/

/-- R352, R353: bytes the host writes to ring memory. A word that is uncorrectable and not written whole raises
RINGMEM_UNCORR and stays so. -/
def hostRingStore (s : State) (a : Nat) (bs : List Byte) : State :=
  let s1 := ringStore s a bs
  let bad := s1.mem.ecc.filter (fun e =>
    decide (e.1 = .ringMem ∧ a < 8 * e.2.2 + 8 ∧ 8 * e.2.2 < a + bs.length))
  bad.foldl (fun z e => eccUncorrectable z .ringMem 0 e.2.2) s1

/-- HOST_RING_MEMORY_WRITE (R273, R276, R352): a write that touches the device area is protected. -/
def writeRingMem (s : State) (a : Nat) (bs : List Byte) : State :=
  if !hostUp s || bs.isEmpty then s
  else if a < 0x10000 then refuseAccess s 1 a 1 true
  else hostRingStore s a (bs.take (0x200000 - a))

/-- R273, R337, R353: what the host reads from ring memory: the boot report, device-area bytes the spec does not lay out
(free values), the host's bytes, and zeros in an uncorrectable word. -/
def ringReadByte (s : State) (a : Nat) : Byte :=
  if a < 16 then (bootReport s).getD a 0
  else if a < 0x10000 then (Config.freeValue (s.freshN + a)).setWidth 8
  else if eccBad s .ringMem 0 (a / 8) then 0
  else ringByte s a

/-- A read of ring memory by the host. -/
def readRingMem (s : State) (a n : Nat) : List Byte × State :=
  let bs := (List.range n).map (fun i => ringReadByte s (a + i))
  let bad := s.mem.ecc.filter (fun e => decide (e.1 = .ringMem ∧ a < 8 * e.2.2 + 8 ∧ 8 * e.2.2 < a + n))
  (bs, bad.foldl (fun z e => eccUncorrectable z .ringMem 0 e.2.2) { s with freshN := s.freshN + 0x10000 })

/-! ### SPI -/

/-- R275: setting a sticky status bit. -/
def sticky (s : State) (i : Nat) : State :=
  updHost s (fun h => { h with spiSticky := h.spiSticky ||| BitVec.ofNat 8 (2 ^ i) })

/-- R275: the status byte. -/
def spiStatus (s : State) : Byte := BitVec.ofNat 8 (bitAt (hostUp s) 7 + bitAt (hirq s) 3) ||| s.host.spiSticky

/-- R274: the words of a register write, in ascending order; a partial word at the end sets FRAME. -/
def spiRegWrites (s : State) (a : Nat) (bs : List Byte) : State :=
  match bs with
  | b0 :: b1 :: b2 :: b3 :: t =>
    if 0x1000 ≤ a then refuseAccess s 0 a 1 false
    else spiRegWrites (writeHostReg s a (BitVec.ofNat 32 (leNat [b0, b1, b2, b3]))) (a + 4) t
  | [] => s
  | _ => sticky s 4

/-- SPI_WRITE (R274, R275). -/
def doSpiWrite (addr : Word) (bs : List Byte) (s : State) : State :=
  let a := addr.toNat
  if !hostUp s || !overSpi s then s
  else if a < 0x1000 then (if a % 4 = 0 then spiRegWrites s a bs else refuseAccess s 0 a 1 false)
  else if 0x200000 ≤ a ∧ a < 0x400000 then
    let s1 := writeRingMem s (a - 0x200000) bs
    if 0x400000 < a + bs.length then sticky s1 6 else s1
  else refuseAccess s 0 a 1 false

/-- R274: register words read in ascending order, as many as `n` asks. -/
def spiRegReads (n : Nat) (a : Nat) (s : State) : List Byte × State :=
  match n with
  | 0 => ([], s)
  | k + 1 =>
    if 0x1000 ≤ a then ([], refuseAccess s 0 a 0 false)
    else
      let r := readHostReg s a
      let t := spiRegReads k (a + 4) r.2
      (leBytes r.1.toNat 4 ++ t.1, t.2)

/-- SPI_READ (R274, R275): the device drives the status byte, then the data; past the end of a range it drives zeros. -/
def doSpiRead (addr : Word) (len : Nat) (s : State) : State :=
  let a := addr.toNat
  if !hostUp s || !overSpi s then s
  else
    let s0 := busOut s (.status (spiStatus s))
    let out := fun (bs : List Byte) (z : State) => busOut z (.readData ((bs ++ List.replicate len 0).take len))
    if a < 0x1000 then
      if a % 4 = 0 then
        let r := spiRegReads ((len + 3) / 4) a s0
        out r.1 (if len % 4 = 0 then r.2 else sticky r.2 4)
      else out [] (refuseAccess s0 0 a 0 false)
    else if 0x200000 ≤ a ∧ a < 0x400000 then
      let n := min len (0x400000 - a)
      let r := readRingMem s0 (a - 0x200000) n
      out r.1 (if n < len then sticky r.2 6 else r.2)
    else out [] (refuseAccess s0 0 a 0 false)

/-- READ_STATUS (R274, R275): reading the status clears the sticky bits. -/
def doReadStatus (s : State) : State :=
  if !clockOn s || !overSpi s then s
  else updHost (busOut s (.status (spiStatus s))) (fun h => { h with spiSticky := 0 })

/-! ### Session, reset, supervisor -/

/-- R293: a session closes, and its watchdog stops. -/
def closeSession (s : State) : State := updHost s (fun h => { h with sessionOpen := false, watchdogMs := 0 })

/-- HOT_RESET (R298): the PCI Express core is reset, every ring is disabled and the session closes. -/
def doHotReset (s : State) : State :=
  if !hostUp s || overSpi s then s
  else
    let off := fun (z : State) (r : Fin 16) =>
      writeEqCfg (writeSqCfg z r (sqCfg z r &&& 0x7FFFFFFF)) r (eqCfg z r &&& 0x7FFFFFFF)
    let s1 := closeSession ((List.finRange 16).foldl off s)
    let s2 := updHost s1 (fun h =>
      { h with hostCtrl := 0, busMaster := false, msixFnMask := false, msixMask := 0xFFFFFFFF, msixPend := 0
               hregs := h.hregs.filter (fun p => decide (p.1 < 0x2000)) })
    setHreg s2 0x044 0

/-- HEARTBEAT (R277): 1 ms has passed with the supervisor in service. -/
def doHeartbeat (s : State) : State :=
  if supOn s then updHost s (fun h => { h with heartbeat := h.heartbeat + 1 }) else s

/-- R293: ticks of a millisecond. -/
def msTicks (s : State) : Nat := if s.sys.core640 then 640000 else 800000

/-- HOST_TIMEOUT (R293, R311): no doorbell arrived for the watchdog's time. -/
def doHostTimeout (s : State) : State :=
  let ms := s.host.watchdogMs.toNat
  if alive s && decide (s.sys.mode ≠ .powerFail ∧ s.sys.mode ≠ .halt) && s.host.sessionOpen && decide (ms ≠ 0) &&
      decide (s.host.watchdogFrom + ms * msTicks s ≤ s.time.tick) then
    report (updHost (closeSession s) (fun h => { h with hostLost := true })) 0x2E .chip ms false
  else s

/-- SUPERVISOR_DIVERGENCE (R319): the two cores differ, or a supervisor-RAM word is uncorrectable. -/
def doDivergence (ram : Bool) (s : State) : State :=
  if !(alive s && decide (s.sys.mode ≠ .powerFail)) || s.sup.halted then s
  else if s.sup.out.isNone then supervisorOut s (if ram then .ramError else .divergence)
  else if ram then s
  else report { s with sup := { s.sup with restart := s.time.tick } } 0x29 .chip 0 false

/-- SUP_LOCKSTEP (R319): a restart is not complete within 40 microseconds, 32,000 ticks. -/
def doSupLockstep (s : State) : State :=
  if alive s && decide (s.sys.mode ≠ .powerFail) && s.sup.out.isSome && decide (s.sup.restart + 32000 < s.time.tick) then
    report { s with sup := { s.sup with restart := s.time.tick } } 0x29 .chip 1 false
  else s

/-- R296: the restarted supervisor takes DONE from a ring's latch and fetches again from there; an INVOKE_ROUTINE whose
request is placed stays applied, a bulk command goes on with its next piece (O6), and a WAIT_UNTIL is applied again. -/
def refetch (s : State) (r : Fin 16) : State :=
  let n : BitVec 16 := if invokeOut s r || s.host.subs[r].bulk.isSome then 1 else 0
  updSub s r (fun x =>
    { x with head := x.done + n, fetched := [], waitFor := none
             parked := match x.waitFor with
               | some w => .waitUntil w.2 :: x.parked
               | none => x.parked })

/-- SUPERVISOR_RESTART_DONE (R297, R319, R375). -/
def doRestartDone (s : State) : State :=
  match s.sup.out with
  | none => s
  | some (t, c) =>
    if !(alive s && decide (s.sys.mode ≠ .powerFail)) then s
    else
      let n := BitVec.ofNat 16 (satAdd 16 s.host.supRestarts.toNat 1)
      let s1 := (List.finRange 16).foldl refetch { s with sup := { s.sup with out := none } }
      let s2 := raiseIrq (updHost s1 (fun h => { h with supRestarts := n })) 5
      let s3 := report (dutyAdd s2 5 1) 0x08 .chip (if c = .divergence then 0 else 1) false
      if bit s.host.hostCtrl 4 then
        emitAt s3 (fld s.host.hostCtrl 3 0) s.time.tick 22
          ⟨0x03, 0, now s, n.setWidth 24, word (min 0xFFFFFF (s.time.tick - t))⟩
      else s3

end Sys2Proof.Machine
end

