-- ==== Sys2Proof/Machine/Operands.lean ====
section
/-!
DEFINITION. The operand forms of the host commands (10_mailbox_interface.md R282, R290, R292): the submission entry, the
fields each opcode gives its argument words, and buffers in host memory and in ring memory.
-/
namespace Sys2Proof.Machine

/-! ### The entry -/

/-- R282: the entry that 32 bytes spell, of ring `r`. -/
def parseEntry (r : Fin 16) (bs : List Byte) : Byte × Entry :=
  let at_ := fun (o n : Nat) => leNat ((bs.drop o).take n)
  let arg := fun (i : Nat) => word (at_ (8 + 3 * i) 3)
  (BitVec.ofNat 8 (at_ 2 1),
    ⟨r, BitVec.ofNat 16 (at_ 0 2), BitVec.ofNat 8 (at_ 3 1), BitVec.ofNat 32 (at_ 4 4), arg 0, arg 1, arg 2, arg 3, arg 4,
      arg 5, arg 6, arg 7⟩)

/-- R282: argument word `i`. -/
def argOf (e : Entry) (i : Nat) : Word :=
  match i with
  | 0 => e.a0
  | 1 => e.a1
  | 2 => e.a2
  | 3 => e.a3
  | 4 => e.a4
  | 5 => e.a5
  | 6 => e.a6
  | _ => e.a7

/-- R292: the opcodes of the command set. -/
def opDefined (op : Nat) : Bool :=
  decide (0x01 ≤ op ∧ op ≤ 0x04 ∨ 0x10 ≤ op ∧ op ≤ 0x15 ∨ 0x20 ≤ op ∧ op ≤ 0x24 ∨ 0x30 ≤ op ∧ op ≤ 0x33 ∨
    0x40 ≤ op ∧ op ≤ 0x42 ∨ 0x50 ≤ op ∧ op ≤ 0x52 ∨ 0x60 ≤ op ∧ op ≤ 0x63 ∨ 0x70 ≤ op ∧ op ≤ 0x73 ∨
    0x80 ≤ op ∧ op ≤ 0x81 ∨ 0x90 ≤ op ∧ op ≤ 0x93)

/-- All bits of an argument word. -/
def allBits : Nat := 0xFFFFFF

/-- R282, R292: the bits that a command's argument words define, from ARG0 on; every other bit and every further word is
reserved. -/
def argMasks (op : Nat) (e : Entry) : List Nat :=
  match op with
  | 0x01 => [0x8000FF, 0x00FFFF]
  | 0x03 => [allBits]
  | 0x04 => [allBits, allBits]
  | 0x10 => [allBits]
  | 0x11 => [allBits, allBits]
  | 0x12 => [allBits, allBits, allBits]
  | 0x13 => [3, allBits, allBits, allBits, allBits, allBits, allBits]
  | 0x14 => [allBits, allBits, allBits, allBits, 0xFFFF]
  | 0x15 => [allBits, allBits, allBits, allBits, 0xFFFF]
  | 0x20 =>
    if fld e.a0 23 22 = 3 then [0xC001FF, allBits, allBits, 0xF, allBits, allBits, 0xF]
    else [0xC001FF, allBits, allBits, 0xF]
  | 0x21 => [allBits, allBits, 0xFFFEFF, allBits]
  | 0x22 =>
    [if fld e.a0 23 22 = 0 then 0xE00FFF else if fld e.a0 23 22 = 2 then 0xE0000F else 0xE001FF]
  | 0x23 => [0xFFF, allBits, allBits, 0xFFFEFF, allBits]
  | 0x24 => [0x7FFF]
  | 0x30 => [0xF]
  | 0x31 => [0x30F]
  | 0x32 => [0xF]
  | 0x33 => [0xF, allBits, allBits]
  | 0x40 => [allBits, 0xFF, allBits, allBits, 0xFFFF, allBits]
  | 0x41 => [allBits, 0xFF, allBits, allBits, 0xFFFF, allBits]
  | 0x42 => [0x3F1F, allBits]
  | 0x50 => [7, 0x3F, 0x7F, allBits, allBits, 0xFFFF]
  | 0x51 => [0x1F, 0xFFFF]
  | 0x52 => [0x1F, allBits, allBits, 0xFFFF]
  | 0x60 => [if bit e.a0 23 then 0x8003FF else 0x80003F, allBits, allBits, 0xFFFF]
  | 0x61 => [0x80003F]
  | 0x62 => [0xE001FF]
  | 0x70 => [allBits, allBits]
  | 0x71 => [0xFF, 0xFFF]
  | 0x73 => [allBits, allBits, 0xFFFF, allBits]
  | 0x80 => [0xF]
  | 0x81 => [7, allBits, allBits, 0xFFFF, allBits]
  | 0x90 => [allBits, allBits, allBits, allBits, 0xFFFF]
  | _ => []

/-- R290: a nonzero reserved field of the entry or of an argument word. -/
def reservedBad (op : Nat) (e : Entry) : Bool :=
  decide (e.rsv ≠ 0) || decide (fld e.flags 6 1 ≠ 0) ||
    (List.range 8).any (fun i => decide (argOf e i &&& ~~~(word ((argMasks op e).getD i 0)) ≠ 0))

/-! ### Buffers -/

/-- FLAGS.BUF_DEV (R282). -/
def bufDev (e : Entry) : Bool := bit e.flags 0

/-- R380: the length of an export, in bytes. -/
def exportLen : Nat := 51968

/-- R292: the first argument word of a command's buffer address and the bytes its buffer takes. -/
def bufferOf (op : Nat) (e : Entry) : Option (Nat × Nat) :=
  match op with
  | 0x14 => some (2, 4 * e.a1.toNat)
  | 0x15 => some (2, 4 * e.a1.toNat)
  | 0x40 => some (2, e.a5.toNat)
  | 0x41 => some (2, e.a5.toNat)
  | 0x50 => some (3, 2 * e.a2.toNat)
  | 0x52 => some (1, 256)
  | 0x60 => some (1, 32)
  | 0x73 => some (0, e.a3.toNat)
  | 0x81 => some (1, e.a4.toNat)
  | 0x90 => some (2, e.a1.toNat)
  | _ => none

/-- R282: the buffer address whose words begin at argument `i`. -/
def bufAddr (e : Entry) (i : Nat) : BitVec 64 :=
  (argOf e (i + 2)).setWidth 16 ++ (argOf e (i + 1) ++ argOf e i)

/-- R273, R282, R291: a buffer that is not where it must be: over SPI in ring memory, and in ring memory within the host
area. -/
def bufferBad (s : State) (op : Nat) (e : Entry) : Bool :=
  match bufferOf op e with
  | none => false
  | some (i, n) =>
    let a := (bufAddr e i).toNat
    if bufDev e then decide (a < 0x10000 ∨ 0x200000 < a + n) else overSpi s

/-- R272: a buffer that only DMA reaches waits while bus mastering is off. -/
def bufferWaits (s : State) (op : Nat) (e : Entry) : Bool :=
  (bufferOf op e).isSome && !bufDev e && !overSpi s && !s.host.busMaster

/-- R353: a byte the device reads from ring memory; in an uncorrectable word it is a value the spec leaves open. -/
def devRingByte (s : State) (a : Nat) : Byte :=
  if eccBad s .ringMem 0 (a / 8) then (Config.freeValue (s.freshN + a)).setWidth 8 else ringByte s a

/-- R348, R353: the bytes the device reads from ring memory, and what an uncorrectable word among them raises. -/
def devRead (s : State) (a n : Nat) : List Byte × State :=
  let bad := s.mem.ecc.filter (fun e => decide (e.1 = .ringMem ∧ a < 8 * e.2.2 + 8 ∧ 8 * e.2.2 < a + n))
  ((List.range n).map (fun i => devRingByte s (a + i)),
    if bad.isEmpty then s
    else bad.foldl (fun z e => eccUncorrectable z .ringMem 0 e.2.2) { s with freshN := s.freshN + 0x200000 })

/-- Bytes of a length: what is missing is zero. -/
def padTo (n : Nat) (bs : List Byte) : List Byte := (bs ++ List.replicate n 0).take n

/-- R279, R291: a failed DMA read: its cause, ring and address, and H_IRQ_STAT.DMA_ERR. -/
def dmaFailed (s : State) (r : Fin 16) (buffer : Bool) (cause : BitVec 4) (addr : BitVec 64) : State :=
  raiseIrq (updHost (noteHost s 0x054 (s.host.dmaStat.setWidth 24) (fun _ => cause.setWidth 24)) (fun h =>
    { h with dmaStat := BitVec.ofNat 32 (bitAt buffer 12 + r.val * 256 + cause.toNat), dmaErr := addr })) 0

/-- R282, R291: a command's buffer as the device reads it: `n` bytes, or none where the DMA read failed. -/
def readBuffer (s : State) (e : Entry) (i n : Nat) (buf : Buf) : Option (List Byte) × State :=
  if bufDev e then
    let r := devRead s (bufAddr e i).toNat n
    (some r.1, r.2)
  else
    match buf with
    | .data bs => (some (padTo n bs), s)
    | .fail c => (none, dmaFailed s e.ring true c (bufAddr e i))

/-- R282: bytes that a command writes to its buffer. -/
def writeBuffer (s : State) (e : Entry) (i : Nat) (bs : List Byte) : State :=
  writeOut s (bufDev e) (bufAddr e i) bs

end Sys2Proof.Machine
end

