-- ==== Sys2Proof/Machine/Commands.lean ====
section
/-!
DEFINITION. Host commands, first part (10_mailbox_interface.md R281 to R283, R288, R290, R293, R296): how an entry is
fetched, held back, checked and completed, and the commands on sessions, parameters, cells, angle events and domains.
-/
namespace Sys2Proof.Machine

/-! ### Fetching and holding back -/

/-- R288: a ring fetches: enabled, not being disabled, not in ERROR. -/
def ringOn (s : State) (r : Fin 16) : Bool :=
  bit (sqCfg s r) 31 && !s.host.subs[r].disabling && !s.host.subs[r].error

/-- R293, R294, O1: commands behind a WAIT_UNTIL, a bulk command, an INVOKE_ROUTINE or a waiting command of their ring wait for
it. -/
def ringHolds (s : State) (r : Fin 16) : Bool :=
  s.host.subs[r].waitFor.isSome || s.host.subs[r].bulk.isSome || invokeOut s r || !s.host.subs[r].parked.isEmpty

/-- R280: a submission ring lies in ring memory. -/
def sqInRing (s : State) (r : Fin 16) : Bool := bit (sqCfg s r) 30

/-- R281: the byte address of a ring's slot for count `k`. -/
def slotAddr (s : State) (r : Fin 16) (k : BitVec 16) : BitVec 64 :=
  sqBase s r + BitVec.ofNat 64 (32 * (k.toNat % depthOf (sqCfg s r)))

/-- R281, R282: the entry due in ring memory. -/
def ringEntry (s : State) (r : Fin 16) : Byte × Entry :=
  parseEntry r (devRead s (slotAddr s r s.host.subs[r].head).toNat 32).1

/-- R281: HEAD moves past an entry, and the status slot follows. -/
def fetchOne (s : State) (r : Fin 16) : State :=
  let z := if sqInRing s r then (devRead s (slotAddr s r s.host.subs[r].head).toNat 32).2 else s
  writeSqSlot (updSub z r (fun x => { x with head := x.head + 1 })) r

/-- R272, R281: an entry can be fetched now. -/
def canFetch (s : State) (r : Fin 16) : Bool :=
  ringOn s r && decide (s.host.subs[r].head ≠ s.host.subs[r].tail) && !s.host.subs[r].fetchFail &&
    (sqInRing s r || (s.host.busMaster && !overSpi s))

/-- The entry that a command row applies: the oldest fetched one, or, with none fetched, the one due in the ring, which
the row then also fetches. None where the ring holds no such entry. -/
def takeHead (s : State) (op : Byte) (e : Entry) : Option State :=
  match s.host.subs[e.ring].fetched with
  | p :: t => if p = (op, e) then some (updSub s e.ring (fun x => { x with fetched := t })) else none
  | [] =>
    if canFetch s e.ring && (!sqInRing s e.ring || decide (ringEntry s e.ring = (op, e))) then some (fetchOne s e.ring)
    else none

/-! ### The checks of every command -/

/-- R290: the first of the checks that precede a command's own. -/
def cmdCheck (s : State) (op : Nat) (e : Entry) : Option Status :=
  if e.seq ≠ s.host.subs[e.ring].done then some .seqError
  else if opDefined op && decide (op ≠ 0x01 ∧ op ≠ 0x03) && !s.host.sessionOpen then some .noSession
  else if !opDefined op then some .opcodeInvalid
  else if reservedBad op e || bufferBad s op e then some .addrInvalid
  else none

/-- What a command's own rule answers: the next state, with the status and Value B of its completion, or none where it
completes later (R293). -/
abbrev CmdResult := State × Option (Status × Word)

/-- A command that completes with a status and no value. -/
def ends (s : State) (t : Status) : CmdResult := (s, some (t, 0))

/-- A command that completes with a status and a value. -/
def endsWith (s : State) (t : Status) (v : Word) : CmdResult := (s, some (t, v))

/-- The result of a unit's own write. -/
def endsAs (r : State × Status) : CmdResult := ends r.1 r.2

/-- R283, R290: the checks, the command's rule, and its completion. -/
def applyCmd (s : State) (op : Nat) (e : Entry) (body : State → CmdResult) : State :=
  match cmdCheck s op e with
  | some t =>
    let s1 := complete s op e t 0
    if t = .seqError then ringError s1 e.ring else s1
  | none =>
    let r := body s
    match r.2 with
    | some v => complete r.1 op e v.1 v.2
    | none => r.1

/-- R290, R326: entries that no row of its own applies: reserved opcodes, and REQUEST_MODE with a target other than RUN,
CONFIGURE and SERVICE. -/
def selfCompletes (op : Byte) (e : Entry) : Bool :=
  !opDefined op.toNat || (decide (op = 0x80) && !decide (fld e.a0 3 0 = 2 ∨ fld e.a0 3 0 = 3 ∨ fld e.a0 3 0 = 7))

/-- Fetched entries at the front of a ring that no row applies complete; a failed entry fetch completes the entry due with
DMA_ERROR (R283). -/
def flush (fuel : Nat) (s : State) (r : Fin 16) : State :=
  match fuel with
  | 0 => s
  | n + 1 =>
    if !supOn s || ringHolds s r then s
    else
      match s.host.subs[r].fetched with
      | p :: t =>
        if selfCompletes p.1 p.2 then
          flush n (applyCmd (updSub s r (fun x => { x with fetched := t })) p.1.toNat p.2
            (fun z => ends z .modeRefused)) r
        else s
      | [] =>
        if s.host.subs[r].fetchFail then
          complete (updSub s r (fun x => { x with fetchFail := false })) 0
            ⟨r, s.host.subs[r].done, 0, 0, 0, 0, 0, 0, 0, 0, 0, 0⟩ .dmaError 0
        else s

/-- Flushing a ring wholly. -/
def flushRing (s : State) (r : Fin 16) : State := flush (s.host.subs[r].fetched.length + 1) s r

/-- R114, R293, R296: what holds a command back: its ring, a supervisor out of service, a buffer out of reach, a full
source 17. -/
def mustWait (s : State) (op : Nat) (e : Entry) : Bool :=
  !supOn s || ringHolds s e.ring || bufferWaits s op e ||
    (decide (op = 0x42) && queueFull s (Fin.ofNat 32 (fld e.a0 4 0)) 17)

/-- A host command (R290): it waits, or it is taken, checked, applied and completed. -/
def cmdRun (i : Instr) (op : Nat) (e : Entry) (body : State → CmdResult) (s : State) : State :=
  if !(alive s && decide (s.sys.mode ≠ .powerFail)) then s
  else if mustWait s op e then
    (if ringOn s e.ring then updSub s e.ring (fun x => { x with parked := x.parked ++ [i] }) else s)
  else
    match takeHead s (BitVec.ofNat 8 op) e with
    | none => s
    | some s1 => flushRing (applyCmd s1 op e body) e.ring

/-- SUBMISSION_FETCH (R281, R283): an entry arrives, or its DMA read fails. -/
def doSubmissionFetch (f : Fetched) (s : State) : State :=
  let r := match f with
    | .entry _ e => e.ring
    | .fail r _ => r
  if !(supOn s && canFetch s r) then s
  else
    match f with
    | .entry op e =>
      let p : Byte × Entry := if sqInRing s r then ringEntry s r else (op, e)
      flushRing (updSub (fetchOne s r) r (fun x => { x with fetched := x.fetched ++ [p] })) r
    | .fail _ c =>
      if sqInRing s r then s
      else
        let s1 := dmaFailed s r false c (slotAddr s r s.host.subs[r].head)
        let s2 := ringError (fetchOne s1 r) r
        flushRing (updSub s2 r (fun x => { x with fetchFail := true })) r

/-! ### Sessions -/

/-- OPEN_SESSION (R292, R293, R311). -/
def cmdOpenSession (e : Entry) (s : State) : CmdResult :=
  if fld e.a0 7 0 ≠ 3 then ends s .versionMismatch
  else if s.host.sessionOpen && !bit e.a0 23 then ends s .sessionBusy
  else
    let n := s.host.session + 1
    endsWith (updHost s (fun h =>
      { h with sessionOpen := true, session := n, watchdogMs := BitVec.ofNat 16 (fld e.a1 15 0)
               watchdogFrom := s.time.tick, hostLost := false })) .ok n

/-- CLOSE_SESSION (R293). -/
def cmdCloseSession (s : State) : CmdResult := ends (closeSession s) .ok

/-- ECHO_WORD (R292). -/
def cmdEchoWord (e : Entry) (s : State) : CmdResult := endsWith s .ok e.a0

/-- WAIT_UNTIL (R293). -/
def cmdWaitUntil (e : Entry) (s : State) : CmdResult :=
  let t := mkTime e.a1 e.a0
  if due s t then ends s .ok else (updSub s e.ring (fun x => { x with waitFor := some (t, e) }), none)

/-! ### Parameters -/

/-- READ_PARAM (R293). -/
def cmdReadParam (e : Entry) (s : State) : CmdResult :=
  let r := readParam s .host e.a0.toNat
  endsWith r.2.1 r.2.2 (if r.2.2 = .ok then r.1 else 0)

/-- WRITE_PARAM (R293). -/
def cmdWriteParam (e : Entry) (s : State) : CmdResult := endsAs (writeParam s .host e.a0.toNat e.a1)

/-- R13: the W1C and WO bits of a parameter. -/
def actBits (pa : Nat) : Word :=
  match locate pa with
  | none => 0
  | some l => match paramInfo l with
    | some i => i.w1c ||| i.wo
    | none => 0

/-- MODIFY_PARAM (R293): refused, it changes nothing. -/
def cmdModifyParam (e : Entry) (s : State) : CmdResult :=
  let pa := e.a0.toNat
  let r := readParam s .host pa
  let v := ((r.1 &&& ~~~e.a1) ||| (e.a2 &&& e.a1)) &&& ~~~(actBits pa &&& ~~~e.a1)
  let w := writeParam r.2.1 .host pa v
  if w.2 ≠ .ok then ends s w.2
  else if r.2.2 ≠ .ok then ends r.2.1 r.2.2
  else endsWith w.1 .ok r.1

/-- R293: a low word of an earlier pair is held while the later pairs are checked. -/
def holdLow (s : State) (pa : Nat) (v : Word) : State :=
  match locate pa with
  | some l => if isLowWord l then setLow s .host l v else s
  | none => s

/-- R293: a write whose checks have been made. -/
def writeChecked (s : State) (who : Requester) (pa : Nat) (v : Word) : State :=
  match locate pa with
  | none => s
  | some l =>
    match paramInfo l with
    | none => s
    | some i => (sendWrite s who l i v).1

/-- R86, R293: what a refused write leaves: a refused compare is noted and raises COMPARE_PAST. -/
def refusedWrite (s : State) (pa : Nat) (v : Word) : State :=
  let r := writeParam s .host pa v
  if r.2 = .ok then s else r.1

/-- R293: pairs checked in the listed order, each against the writes before it: the state after all of them, or the index of
the first that is refused, its status, and what its refusal leaves. -/
def checkPairs (s z : State) (k : Nat) (l : List (Nat × Word)) : Except (Nat × Status × State) State :=
  match l with
  | [] => .ok z
  | (pa, v) :: t =>
    let r := writeParam z .host pa v
    if r.2 ≠ .ok then .error (k, r.2, refusedWrite s pa v) else checkPairs (holdLow s pa v) r.1 (k + 1) t

/-- WRITE_PARAMS (R293): all pairs or none. -/
def cmdWriteParams (e : Entry) (s : State) : CmdResult :=
  let n := fld e.a0 1 0
  let ps := [(e.a1.toNat, e.a2), (e.a3.toNat, e.a4), (e.a5.toNat, e.a6)].take n
  if n = 0 then ends s .addrInvalid
  else
    match checkPairs s s 0 ps with
    | .error x => endsWith { x.2.2 with par := { x.2.2.par with lows := s.par.lows } } x.2.1 (word x.1)
    | .ok z => ends z .ok

/-- A word of a block in 4 bytes (R293). -/
def wordBytes (v : Word) : List Byte := leBytes v.toNat 4

/-- R293: words read in ascending PA until one fails: the bytes read, the state, and the index and status of the failing
word. -/
def readWords (fuel : Nat) (s : State) (pa k : Nat) (acc : List Byte) : List Byte × State × Option (Nat × Status) :=
  match fuel with
  | 0 => (acc, s, none)
  | n + 1 =>
    let r := readParam s .host (pa + k)
    if r.2.2 = .ok then readWords n r.2.1 pa (k + 1) (acc ++ wordBytes r.1) else (acc, r.2.1, some (k, r.2.2))

/-- R293: words written in ascending PA until one is refused: the state, and its index and status. -/
def writeWords (s : State) (pa k : Nat) (bs : List Byte) : State × Option (Nat × Status) :=
  match bs with
  | b0 :: b1 :: b2 :: b3 :: t =>
    if b3 ≠ 0 then (s, some (k, .addrInvalid))
    else
      let r := writeParam s .host (pa + k) (word (leNat [b0, b1, b2]))
      if r.2 = .ok then writeWords r.1 pa (k + 1) t else (r.1, some (k, r.2))
  | _ => (s, none)

/-- R292: the word count of READ_BLOCK and WRITE_BLOCK. -/
def blockCountBad (n : Nat) : Bool := decide (n = 0 ∨ 4096 < n)

/-- R45, R293, R349: the words that a bulk command moves in one tick from an address on: one for each bank of a region RAM or
of a block's parameter RAM, 64 elsewhere. -/
def bulkRate (pa : Nat) : Nat :=
  match locate pa with
  | some (.pram _ _ _) => 4
  | some (.rram _ _) => 8
  | _ => 64

/-- R293, R296: one piece of a bulk command, moved in the present tick: what is left of it, or its result. -/
def bulkPiece (s : State) (m : BulkMove) : State × (BulkMove ⊕ (Status × Word)) :=
  let n := m.entry.a1.toNat
  let pa := m.entry.a0.toNat
  let k := min (bulkRate (pa + m.moved)) (n - m.moved)
  if m.writes then
    let r := writeWords s pa m.moved (m.left.take (4 * k))
    match r.2 with
    | some x => (r.1, .inr (x.2, word x.1))
    | none =>
      if n ≤ m.moved + k then (r.1, .inr (.ok, word n))
      else (r.1, .inl { m with moved := m.moved + k, left := m.left.drop (4 * k) })
  else
    let r := readWords k s pa m.moved m.taken
    match r.2.2 with
    | some x => (writeBuffer r.2.1 m.entry 2 r.1, .inr (x.2, word x.1))
    | none =>
      if n ≤ m.moved + k then (writeBuffer r.2.1 m.entry 2 r.1, .inr (.ok, word n))
      else (r.2.1, .inl { m with moved := m.moved + k, taken := r.1 })

/-- R293: a bulk command begins with its first piece; the others follow in the next ticks, and it completes with the last. -/
def bulkBegin (s : State) (m : BulkMove) : CmdResult :=
  let r := bulkPiece s m
  match r.2 with
  | .inr x => (r.1, some x)
  | .inl y => (updSub r.1 m.entry.ring (fun q => { q with bulk := some y }), none)

/-- R293, R296: the next piece of a ring's bulk command. -/
def bulkNext (s : State) (r : Fin 16) : State :=
  match s.host.subs[r].bulk with
  | none => s
  | some m =>
    if !supOn s then s
    else
      let p := bulkPiece s m
      match p.2 with
      | .inl y => updSub p.1 r (fun q => { q with bulk := some y })
      | .inr x =>
        complete (updSub p.1 r (fun q => { q with bulk := none })) (if m.writes then 0x15 else 0x14) m.entry x.1 x.2

/-- READ_BLOCK (R293). -/
def cmdReadBlock (e : Entry) (s : State) : CmdResult :=
  if blockCountBad e.a1.toNat then ends s .addrInvalid
  else bulkBegin s ⟨false, e, 0, [], []⟩

/-- WRITE_BLOCK (R293). -/
def cmdWriteBlock (e : Entry) (buf : Buf) (s : State) : CmdResult :=
  if blockCountBad e.a1.toNat then ends s .addrInvalid
  else
    let d := readBuffer s e 2 (4 * e.a1.toNat) buf
    match d.1 with
    | none => ends d.2 .dmaError
    | some bs => bulkBegin d.2 ⟨true, e, 0, bs, []⟩

/-! ### Timed and angle events -/

/-- R89: the times an ARM_TIME writes: the unit, the value, the trim. -/
def timedWrites (e : Entry) : List (CmpUnit × Time × BitVec 4) :=
  let a := (CmpUnit.a, mkTime e.a2 e.a1, BitVec.ofNat 4 (fld e.a3 3 0))
  if fld e.a0 23 22 = 3 then [a, (CmpUnit.b, mkTime e.a5 e.a4, BitVec.ofNat 4 (fld e.a6 3 0))] else [a]

/-- R89: a PULSE whose end is not at least 4 ticks after its start. -/
def pulseShort (e : Entry) : Bool :=
  decide (fld e.a0 23 22 = 3) &&
    !atOrAfter16 (mk16 (mkTime e.a5 e.a4) (BitVec.ofNat 4 (fld e.a6 3 0)))
      (addTicks (mk16 (mkTime e.a2 e.a1) (BitVec.ofNat 4 (fld e.a3 3 0))) 4)

/-- R89: the checks of ARM_TIME, in order. -/
def armTimeCheck (s : State) (e : Entry) : Status :=
  let c : Fin 512 := Fin.ofNat 512 (fld e.a0 8 0)
  if !armsOk s then .modeRefused
  else if cellHeld s c then .scopeFault
  else if !(cellEn s c && decide (cellMode s c = 1)) then .targetMode
  else if pulseShort e then .addrInvalid
  else if (timedWrites e).any (fun w => compareBusy s c w.1) then .targetBusy
  else if !regBit s (.cell c 0x01) 1 && (timedWrites e).any (fun w => decide (compareEdge (now s) w.2.1 w.2.2 = none)) then
    .timePast
  else .ok

/-- R89: the edge and owner of a compare that ARM_TIME writes. -/
def timedEdge (e : Entry) (u : CmpUnit) : EdgeAct × CmpOwner :=
  match fld e.a0 23 22, u with
  | 0, _ => (.set, .timedSingle)
  | 1, _ => (.clear, .timedSingle)
  | 2, _ => (.toggle, .timedSingle)
  | _, .a => (.set, .timedRise)
  | _, .b => (.clear, .timedFall)

/-- R17, R89: the write of a compare that ARM_TIME makes. -/
def timedLate (e : Entry) (w : CmpUnit × Time × BitVec 4) : LateOp :=
  .compare (Fin.ofNat 512 (fld e.a0 8 0)) w.1 w.2.1 w.2.2 (some (timedEdge e w.1).1) (timedEdge e w.1).2 true

/-- ARM_TIME (R17, R89): its changes to the cell go through the update port in one grant. -/
def cmdArmTime (e : Entry) (s : State) : CmdResult :=
  let t := armTimeCheck s e
  if t ≠ .ok then ends s t
  else ends ((timedWrites e).foldl (fun z w => addLate z 4 .host (timedLate e w)) s) .ok

/-- ARM_ANGLE (R94, R95). -/
def cmdArmAngle (e : Entry) (s : State) : CmdResult :=
  let r := armAngle s e.a0 e.a1 e.a2 e.a3
  endsWith r.1 r.2.1 (if r.2.1 = .ok then r.2.2.setWidth 24 else 0)

/-- R107: the entries in the scope of a CANCEL_EVENT, handle, cell or domain. -/
def inCancelScope (s : State) (e : Entry) : List (BitVec 12) :=
  match fld e.a0 23 22 with
  | 0 => [BitVec.ofNat 12 (fld e.a0 11 0)]
  | 1 => (allHandles s).filter (fun h => match armGet s h with
    | some x => decide (entCell x = Fin.ofNat 512 (fld e.a0 8 0))
    | none => false)
  | _ => handlesOf s (Fin.ofNat 16 (fld e.a0 3 0))

/-- CANCEL_EVENT (R107, R293). -/
def cmdCancelEvent (e : Entry) (s : State) : CmdResult :=
  if fld e.a0 23 22 = 3 then
    let r := cancelTimed s (Fin.ofNat 512 (fld e.a0 8 0))
    endsWith r.1 .ok (word r.2)
  else if decide (fld e.a0 23 22 = 0) && decide (armGet s (BitVec.ofNat 12 (fld e.a0 11 0)) = none) then ends s .notFound
  else
    let r := cancelEntries s (inCancelScope s e) (bit e.a0 21)
    endsWith r.1 .ok (word r.2)

/-- REPLACE_EVENT (R108). -/
def cmdReplaceEvent (e : Entry) (s : State) : CmdResult :=
  endsAs (replaceEvent s (BitVec.ofNat 12 (fld e.a0 11 0)) e.a1 e.a2 e.a3 e.a4)

/-- READ_EVENT (R94, R292). -/
def cmdReadEvent (e : Entry) (s : State) : CmdResult :=
  let h : BitVec 12 := BitVec.ofNat 12 (fld e.a0 11 0)
  if 4 < fld e.a0 14 12 then ends s .addrInvalid
  else if armGet s h = none then ends s .notFound
  else endsWith s .ok (entWord s h (fld e.a0 14 12))

/-! ### Domains -/

/-- The domain that ARG0 names. -/
def domArg (e : Entry) : Fin 16 := Fin.ofNat 16 (fld e.a0 3 0)

/-- START_DOMAIN (R9, R51, R65): the domain is enabled in the next tick, as by a write of EN = 1. -/
def cmdStartDomain (e : Entry) (s : State) : CmdResult :=
  let t := (domEnable (lateView s) (domArg e)).2
  if t ≠ .ok then ends s t else ends (addLate s 4 .host (.write 0 (.dom (domArg e) 0x00) 1)) .ok

/-- STOP_DOMAIN (R9, R67, R293): the domain is disabled in the next tick, as by a write of EN = 0. Value B counts the
records of the cancellation and of the disable. -/
def cmdStopDomain (e : Entry) (s : State) : CmdResult :=
  let d := domArg e
  let a : State × Nat := if bit e.a0 8 then cancelEntries s (handlesOf s d) (bit e.a0 9) else (s, 0)
  endsWith (addLate a.1 4 .host (.write 0 (.dom d 0x00) 0)) .ok (word (a.2 + (domDisable (lateView a.1) d).2))

/-- RESYNC_DOMAIN (R9, R65, R292): the domain resynchronises in the next tick, as by a write of RESYNC = 1. -/
def cmdResyncDomain (e : Entry) (s : State) : CmdResult :=
  if (flushIntake s (domArg e)).doms[domArg e].st = .lost then
    ends (addLate s 4 .host (.write 0 (.dom (domArg e) 0x00) 3)) .ok
  else ends s .targetMode

/-- SET_VIRTUAL_SPEED (R74, R293). -/
def cmdSetVirtualSpeed (e : Entry) (s : State) : CmdResult :=
  let d := domArg e
  if domKind s d ≠ 3 then ends s .targetMode
  else
    let s1 := writeChecked s .host (paOf (.dom d 0x16)) e.a2
    let s2 := writeChecked s1 .host (paOf (.dom d 0x14)) e.a1
    ends (writeChecked s2 .host (paOf (.dom d 0x15)) 1) .ok

end Sys2Proof.Machine
end

