-- ==== Sys2Proof/Machine/Bulk.lean ====
section
/-!
DEFINITION. Host commands, second part (10_mailbox_interface.md R292, R293): microcode windows and routines, Pewter
engines, faults, lifetime records, modes, life-cycle and firmware.
-/
namespace Sys2Proof.Machine

/-! ### Windows and routines -/

/-- R361: the length of a customer window image. -/
def windowLen : Nat := 16592

/-- R292: the blocks that ARG0 and ARG1 name. -/
def windowBlocks (e : Entry) : List (Fin 32) :=
  (List.finRange 32).filter (fun b => if b.val < 24 then bit e.a0 b.val else bit e.a1 (b.val - 24))

/-- R361, R362: a kind, format or length other than the image's, or a nonzero zero field. -/
def windowFormBad (bs : List Byte) : Bool :=
  let at_ := fun (o n : Nat) => leNat ((bs.drop o).take n)
  decide (at_ 0 2 ≠ 2 ∨ at_ 2 2 ≠ 1 ∨ at_ 4 4 ≠ 16384 ∨ at_ 12 4 ≠ 0)

/-- R361: an unsigned image: key and signature are zero. -/
def windowUnsigned (bs : List Byte) : Bool := ((bs.drop 16).take 192).all (fun b => decide (b = 0))

/-- R362: the image verifies under the fused customer key. -/
def windowVerifies (s : State) (bs : List Byte) : Bool :=
  match s.sec.keyHash with
  | some k => decide (Config.sha384 ((bs.drop 16).take 96) = k) && Config.authentic bs k
  | none => false

/-- R356: the life-cycle state accepts the image's signature. -/
def windowAccepted (s : State) (bs : List Byte) : Bool :=
  match s.sec.lc with
  | .blank => true
  | .development => windowUnsigned bs || windowVerifies s bs
  | .production => windowVerifies s bs
  | _ => false

/-- R361: word `a` of an image's body. -/
def windowWord (bs : List Byte) (a : Nat) : MicroWord := BitVec.ofNat 128 (leNat ((bs.drop (208 + 16 * a)).take 16))

/-- R143, R362: the checks of a window image: its bytes where it passes, else the status. -/
def windowCheck (e : Entry) (buf : Buf) (s : State) : Except Status (List Byte) × State :=
  if e.a5.toNat ≠ windowLen then (.error .addrInvalid, s)
  else
    let d := readBuffer s e 2 windowLen buf
    match d.1 with
    | none => (.error .dmaError, d.2)
    | some bs =>
      if windowFormBad bs then (.error .addrInvalid, d.2)
      else if !windowAccepted d.2 bs then (.error .signatureFail, d.2)
      else if (windowBlocks e).any (fun b => regBit d.2 (.block b 0x00) 0) then (.error .targetBusy, d.2)
      else (.ok bs, d.2)

/-- R362: a block's customer window is written whole, which clears errors in it. -/
def writeWindow (bs : List Byte) (s : State) (b : Fin 32) : State :=
  (List.range 1024).foldl (fun z a =>
    clearEcc (setCstore z b (0xC00 + a) (windowWord bs a)) .controlStore b.val (0xC00 + a)) s

/-- LOAD_WINDOW (R143, R362). -/
def cmdLoadWindow (e : Entry) (buf : Buf) (s : State) : CmdResult :=
  let r := windowCheck e buf s
  match r.1 with
  | .error t => ends r.2 t
  | .ok bs => ends ((windowBlocks e).foldl (writeWindow bs) r.2) .ok

/-- R362: a block's customer window holds the image's body. -/
def windowHolds (s : State) (bs : List Byte) (b : Fin 32) : Bool :=
  (List.range 1024).all (fun a => decide (cstoreAt s b (0xC00 + a) = windowWord bs a))

/-- VERIFY_WINDOW (R143, R362): Value B is the first failing block. -/
def cmdVerifyWindow (e : Entry) (buf : Buf) (s : State) : CmdResult :=
  let r := windowCheck e buf s
  match r.1 with
  | .error t => ends r.2 t
  | .ok bs =>
    match (windowBlocks e).find? (fun b => !windowHolds r.2 bs b) with
    | some b => endsWith r.2 .verifyFail (word b.val)
    | none => ends r.2 .ok

/-- INVOKE_ROUTINE (R113, R114, R293, R307): a source-17 request that completes with its routine, or with ENTRY_INVALID where
it cannot be served when it is at the head of its queue. -/
def cmdInvokeRoutine (e : Entry) (s : State) : CmdResult :=
  let b : Fin 32 := Fin.ofNat 32 (fld e.a0 4 0)
  if blockHeld s b then ends s .scopeFault
  else (pushRequest s b 17 ⟨e.a1, BitVec.ofNat 6 (fld e.a0 13 8), 0, none, some e, s.time.tick, custOff s b⟩, none)

/-! ### Pewter engines -/

/-- R209: words stored from an address on. -/
def storePewter (s : State) (p : Fin 32) (a : Nat) (bs : List Byte) : State :=
  match bs with
  | b0 :: b1 :: t => storePewter (setPeStore s p a (BitVec.ofNat 16 (leNat [b0, b1]))) p (a + 1) t
  | _ => s

/-- LOAD_PEWTER (R209, R212). -/
def cmdLoadPewter (e : Entry) (buf : Buf) (s : State) : CmdResult :=
  let first := fld e.a1 5 0
  let n := fld e.a2 6 0
  if 64 < first + n then ends s .addrInvalid
  else
    let d := readBuffer s e 3 (2 * n) buf
    match d.1 with
    | none => ends d.2 .dmaError
    | some bs => ends (storePewter d.2 (Fin.ofNat 32 (4 * fld e.a0 2 0)) first bs) .ok

/-- INJECT_PEWTER (R211). -/
def cmdInjectPewter (e : Entry) (s : State) : CmdResult :=
  endsAs (injectPewter s (Fin.ofNat 32 (fld e.a0 4 0)) (e.a1.setWidth 16))

/-- R214: the table of an engine, from an entry on. -/
def storeLut (s : State) (p : Fin 32) (a : Nat) (bs : List Byte) : State :=
  match bs with
  | [] => s
  | b :: t => storeLut { s with mem := { s.mem with lut := memPut (zeroMem 8) s.mem.lut (p.val * 256 + a) b } } p (a + 1) t

/-- LOAD_LUT (R214). -/
def cmdLoadLut (e : Entry) (buf : Buf) (s : State) : CmdResult :=
  let p : Fin 32 := Fin.ofNat 32 (fld e.a0 4 0)
  if peEn s p then ends s .staticLocked
  else
    let d := readBuffer s e 1 256 buf
    match d.1 with
    | none => ends d.2 .dmaError
    | some bs => ends (storeLut d.2 p 0 bs) .ok

/-! ### Faults -/

/-- R303: the 32 bytes of an open fault. -/
def slotBytes (s : State) (f : OpenFault) : List Byte :=
  faultBytes f.body f.seq f.acked f.closed f.latched (min 255 (exitCount s f.applied))

/-- R303: what READ_FAULT finds: a history entry, or an open slot. -/
def faultFound (s : State) (e : Entry) : Option (List Byte) :=
  if bit e.a0 23 then (histAt s (fld e.a0 9 0)).map histBytes
  else (s.flt.slots[(Fin.ofNat 64 (fld e.a0 5 0) : Fin 64)]).map (slotBytes s)

/-- READ_FAULT (R303). -/
def cmdReadFault (e : Entry) (s : State) : CmdResult :=
  match faultFound s e with
  | none => ends s .notFound
  | some bs => ends (writeBuffer s e 1 bs) .ok

/-- R301, R303, R379: a slot is acknowledged; a closed one frees. Answers whether it is newly acknowledged. -/
def ackSlot (s : State) (k : Fin 64) : State × Nat :=
  match s.flt.slots[k] with
  | none => (s, 0)
  | some f =>
    if f.acked.isSome then (s, 0)
    else
      let s1 := histUpdate s f.body (fun h => { h with acked := some (now s) })
      if f.closed.isSome then (freeSlotOf s1 k, 1)
      else (updFlt s1 (fun c => { c with slots := c.slots.set k (some { f with acked := some (now s) }) }), 1)

/-- ACKNOWLEDGE_FAULT (R303). -/
def cmdAcknowledgeFault (e : Entry) (s : State) : CmdResult :=
  if bit e.a0 23 then
    let r := (List.finRange 64).foldl (fun (z : State × Nat) k => let x := ackSlot z.1 k; (x.1, z.2 + x.2)) (s, 0)
    endsWith r.1 .ok (word r.2)
  else
    let k : Fin 64 := Fin.ofNat 64 (fld e.a0 5 0)
    if s.flt.slots[k] = none then ends s .notFound
    else
      let r := ackSlot s k
      endsWith r.1 .ok (word r.2)

/-- R313: the scope that RELEASE_SCOPE names; none where the level or the index is out of range. -/
def scopeArg (e : Entry) : Option Scope :=
  let i := fld e.a0 8 0
  match fld e.a0 23 21 with
  | 1 => some (.cell (Fin.ofNat 512 i))
  | 2 => if i < 32 then some (.block (Fin.ofNat 32 i)) else none
  | 3 => if i < 4 then some (.region (Fin.ofNat 4 i)) else none
  | 4 => if i = 0 then some .chip else none
  | _ => none

/-- R313: the scope, or one within it, holds an unacknowledged open fault. -/
def openWithin (s : State) (x : Scope) : Bool :=
  s.flt.slots.toList.any (fun o => match o with
    | some f => decide (f.acked = none) && scopeIn f.applied x
    | none => false)

/-- RELEASE_SCOPE (R313, R315). -/
def cmdReleaseScope (e : Entry) (s : State) : CmdResult :=
  match scopeArg e with
  | none => ends s .addrInvalid
  | some x =>
    if !isLatched s x then ends s .notLatched
    else if openWithin s x || faultNow s x || activeCond s x then ends s .faultActive
    else ends (exitScope s x true) .ok

/-- R316: an unacknowledged open fault, or a latched scope, at or above PIN_LEVEL. -/
def pinHeld (s : State) : Bool :=
  let lvl := regFld s (.faults 0x00) 18 16
  s.flt.slots.toList.any (fun o => match o with
    | some f => decide (f.acked = none) && decide (lvl ≤ f.level)
    | none => false) ||
  s.flt.scopes.any (fun y => y.latched && decide (lvl ≤ scopeLevel y.scope))

/-- RELEASE_FAULT_PIN (R316). -/
def cmdReleaseFaultPin (s : State) : CmdResult :=
  if pinHeld s then ends s .faultActive
  else ends (doPinWidthExpiry (updFlt s (fun c => { c with pinReleased := c.pin }))) .ok

/-! ### Lifetime records -/

/-- SET_CALENDAR (R370). -/
def cmdSetCalendar (e : Entry) (s : State) : CmdResult :=
  if s.sys.mode = .configure ∨ s.sys.mode = .service then ends (setCalendar s (mkTime e.a1 e.a0)) .ok
  else ends s .modeRefused

/-- BIND_WEAR_COUNTER (R373, R376): the binding counts from the next tick, and the commit's snapshot holds it. -/
def cmdBindWearCounter (e : Entry) (s : State) : CmdResult :=
  let k : Fin 256 := Fin.ofNat 256 (fld e.a0 7 0)
  let kind := fld e.a1 11 9
  if 6 ≤ kind then ends s .addrInvalid
  else if kind ≠ 0 ∧ fld (lateView s).life.binds[k] 11 9 ≠ 0 then ends s .conflict
  else ends (requestCommit (addLate s 4 .host (.bind k (e.a1.setWidth 12)))) .ok

/-- COMMIT_LIFETIME (R376). -/
def cmdCommitLifetime (s : State) : CmdResult := ends (requestCommit s) .ok

/-- R376, R380: the number of the commit that a request of the present tick makes. -/
def commitNumber (s : State) : Word32 :=
  match s.life.writing with
  | none => s.life.lastN + 1
  | some w => if s.life.writeTick = s.time.tick then w.n else w.n + 1

/-- R380: the image of the snapshot that the present tick makes, written at its end. -/
def writeExport (s : State) (e : Entry) : State :=
  writeBuffer s e 0 (exportImage s (snapshotOf s.life (commitNumber s)))

/-- EXPORT_LIFETIME (R376, R380). -/
def cmdExportLifetime (e : Entry) (s : State) : CmdResult :=
  if s.sys.mode ≠ .service then ends s .modeRefused
  else if e.a3.toNat < exportLen then ends s .queueFull
  else
    endsWith (addJob (requestCommit s) s.time.tick (.exportTo e)) .ok (word exportLen)

/-! ### Modes -/

/-- R326: a mode request's result. -/
def modeResult (r : State × Status × Word) : CmdResult := endsWith r.1 r.2.1 r.2.2

/-! ### Life-cycle and firmware -/

/-- R356: the forward states of a life-cycle state. -/
def forwardState (lc : LifeCycle) (n : Nat) : Option LifeCycle :=
  match lc, n with
  | .blank, 1 => some .development
  | .blank, 4 => some .decommissioned
  | .development, 2 => some .production
  | .development, 3 => some .returned
  | .development, 4 => some .decommissioned
  | .production, 3 => some .returned
  | .production, 4 => some .decommissioned
  | .returned, 4 => some .decommissioned
  | _, _ => none

/-- R357: TYPE, the zero fields, and KEY_HASH against TARGET. -/
def certFormBad (e : Entry) (bs : List Byte) : Bool :=
  let t := certField bs 2 1
  decide (certField bs 0 2 ≠ 1 ∨ t ≠ fld e.a0 2 0 ∨ certField bs 3 1 ≠ 0 ∨ certField bs 12 8 ≠ 0) ||
    decide ((certField bs 20 48 = 0) ↔ (t = 1))

/-- R357: SIGNER_KEY is the required signer. -/
def signerKey (s : State) (target : LifeCycle) : Option (BitVec 384) :=
  if target = .development ∨ s.sec.lc = .blank then some Config.rootKey else s.sec.keyHash

/-- R357: the checks of a life-cycle certificate after its length, in order. -/
def certCheck (s : State) (e : Entry) (bs : List Byte) : Except Status LifeCycle :=
  if certFormBad e bs then .error .addrInvalid
  else
    match forwardState s.sec.lc (certField bs 2 1) with
    | none => .error .addrInvalid
    | some target =>
      if !certSerial bs then .error .signatureFail
      else
        match signerKey s target with
        | none => .error .signatureFail
        | some k => if certSigner bs = k ∧ Config.authentic bs k = true then .ok target else .error .signatureFail

/-- R344: an accepted change waits for the lifetime commit. -/
def startJob (s : State) (j : RebootJob) : State := powerCommit (updSec s (fun x => { x with job := some j }))

/-- ADVANCE_LIFECYCLE (R357, R358). -/
def cmdAdvanceLifecycle (e : Entry) (buf : Buf) (s : State) : CmdResult :=
  if s.sys.mode ≠ .service then ends s .modeRefused
  else if e.a4.toNat ≠ 260 then ends s .addrInvalid
  else
    let d := readBuffer s e 1 260 buf
    match d.1 with
    | none => ends d.2 .dmaError
    | some bs =>
      match certCheck d.2 e bs with
      | .error t => ends d.2 t
      | .ok target =>
        ends (startJob d.2 (.lifecycle target
          (if target = .development then some (BitVec.ofNat 384 (certField bs 20 48)) else none))) .ok

/-- Bytes stored in the staged area of the boot flash, from an offset on. -/
def storeFlash (s : State) (a : Nat) (bs : List Byte) : State :=
  match bs with
  | [] => s
  | b :: t => storeFlash (updSec s (fun x => { x with flash := memPut (zeroMem 8) x.flash a b })) (a + 1) t

/-- STAGE_FIRMWARE (R292, R344). -/
def cmdStageFirmware (e : Entry) (buf : Buf) (s : State) : CmdResult :=
  let n := e.a1.toNat
  if s.sys.mode ≠ .service then ends s .modeRefused
  else if n = 0 ∨ 65536 < n then ends s .addrInvalid
  else
    let d := readBuffer s e 2 n buf
    match d.1 with
    | none => ends d.2 .dmaError
    | some bs => ends (updSec (storeFlash d.2 e.a0.toNat bs) (fun x => { x with stage := .written })) .ok

/-- VERIFY_FIRMWARE (R359). -/
def cmdVerifyFirmware (s : State) : CmdResult :=
  let i := imageInfo (stagedBytes s)
  if s.sys.mode ≠ .service then ends s .modeRefused
  else if decide (s.sec.stage = .none) || (imageResult s i).isSome then ends s .signatureFail
  else endsWith (updSec s (fun x => { x with stage := .verified })) .ok (i.version.setWidth 24)

/-- ACTIVATE_FIRMWARE (R344). -/
def cmdActivateFirmware (s : State) : CmdResult :=
  if s.sys.mode ≠ .service then ends s .modeRefused
  else if s.sec.stage ≠ .verified then endsWith s .checkFail 0x06
  else ends (startJob s .firmware) .ok

/-- ABORT_STAGING (R344). -/
def cmdAbortStaging (s : State) : CmdResult :=
  if s.sys.mode ≠ .service then ends s .modeRefused
  else ends (updSec s (fun x => { x with stage := .none, flash := [] })) .ok

end Sys2Proof.Machine
end

