-- ==== Sys2Proof/Machine/Access.lean ====
section
/-!
DEFINITION. Accesses that rows stand for by themselves: a requester's write or read of one parameter (00_scope.md R6, R10;
13_memory_and_security.md R366), input edges and readback (R22, R91, R93), and detections that a detector reports (R301).
-/
namespace Sys2Proof.Machine

/-! ### Parameters by row -/

/-- R125, R127, R128, R199: what a block's routines reach: cells, parameters, engine and RAMs of the block. -/
def blockReaches (b : Fin 32) (l : PLoc) : Bool :=
  match l with
  | .cell c _ => decide (blockOf c = b)
  | .block x _ => decide (x = b)
  | .pewter p _ => decide (p = b)
  | .pram x _ _ => decide (x = b)
  | .rram r _ => decide (r = regionOfBlock b)
  | _ => false

/-- R6, R319, R366: a requester reaches a place now: the host and the supervisor while the supervisor serves, a block while
its sequencer runs, the debug port after an accepted certificate. -/
def reaches (s : State) (who : Requester) (l : PLoc) : Bool :=
  match who with
  | .host => supOn s
  | .supervisor => supOn s
  | .block b => seqsOn s && blockReaches b l
  | .debug => alive s && debugAllowed s

/-- R10, R298: a refused access of a row is logged under its requester; the SEQ of a host command that the row does not
name is a value the spec leaves open. -/
def logAccess (s : State) (who : Requester) (pa access : Nat) (t : Status) : State :=
  if !logged t then s
  else
    match who with
    | .debug => violation s pa 4 access 3 0 t.code 0
    | .block b => violation s pa 3 access 3 b.val t.code 0
    | _ => violation (nextFree s) pa 2 access 3 0 t.code (freeVal s 8).toNat

/-- A write of one parameter as a row of its own. -/
def rowWrite (who : Requester) (l : PLoc) (v : Word) (s : State) : State :=
  if reaches s who l then
    let r := writeParam s who (paOf l) v
    logAccess r.1 who (paOf l) 1 r.2
  else s

/-- A read of one parameter as a row of its own. -/
def rowRead (who : Requester) (l : PLoc) (s : State) : State :=
  if reaches s who l then
    let r := readParam s who (paOf l)
    logAccess r.2.1 who (paOf l) 0 r.2.2
  else s

/-! ### The debug port -/

/-- R366, R367: a word shifted out at the JTAG port, low part first. -/
def jtagShift (s : State) (l : List (BitVec 32)) : State := updSec s (fun x => { x with jtagOut := x.jtagOut ++ l })

/-- A control-store word in four parts. -/
def microParts (w : MicroWord) : List (BitVec 32) := (List.range 4).map (fun i => (w >>> (32 * i)).setWidth 32)

/-- DEBUG_PORT_ACCESS (R353, R366): parameter space, which holds the RAMs, and the control stores. An uncorrectable store
word raises its class, and what it reads as is a value the spec leaves open. -/
def doDebugAccess (a : DebugAccess) (s : State) : State :=
  if !(alive s && debugAllowed s) then s
  else
    match a with
    | .readParam pa =>
      let r := readParam s .debug pa.toNat
      jtagShift (logAccess r.2.1 .debug pa.toNat 0 r.2.2) [r.1.setWidth 32]
    | .writeParam pa v =>
      let r := writeParam s .debug pa.toNat v
      logAccess r.1 .debug pa.toNat 1 r.2
    | .readStore b a =>
      if eccBad s .controlStore b.val a.val then
        jtagShift (eccUncorrectable (nextFree s) .controlStore b.val a.val) (microParts (freeVal s 128))
      else jtagShift s (microParts (cstoreAt s b a.val))
    | .writeStore b a v => clearEcc (setCstore s b a.val v) .controlStore b.val a.val

/-! ### Input edges and readback -/

/-- R22, R395, R399: the TIO whose input an edge at a ball is. -/
def inputOf (s : State) (b : Ball) : Option (Fin 512) :=
  match b with
  | .tio n =>
    if (List.finRange 16).any (fun z => bit (zioFor s z) 15 && decide (fld (zioFor s z) 8 0 = n.val)) then none else some n
  | .zio z => if bit (zioFor s z) 15 then some (Fin.ofNat 512 (fld (zioFor s z) 8 0)) else none

/-- R22: the filtered level of a ball. -/
def ballIn (s : State) (b : Ball) : Bool :=
  match b with
  | .tio n => bit s.pins.tioIn n.val
  | .zio z => bit s.pins.zioIn z.val

/-- The ball takes a level. -/
def setBall (s : State) (b : Ball) (l : Bool) : State :=
  match b with
  | .tio n =>
    let m : BitVec 512 := BitVec.ofNat 512 (2 ^ n.val)
    { s with pins := { s.pins with tioIn := if l then s.pins.tioIn ||| m else s.pins.tioIn &&& ~~~m } }
  | .zio z =>
    let m : BitVec 16 := BitVec.ofNat 16 (2 ^ z.val)
    { s with pins := { s.pins with zioIn := if l then s.pins.zioIn ||| m else s.pins.zioIn &&& ~~~m } }

/-- INPUT_EDGE (R22, R93, R201): a filter accepts a new level. Captures, teeth and counts that the edge makes come by rows of
their own. -/
def doInputEdge (b : Ball) (level : Bool) (t : T16) (s : State) : State :=
  if !clockOn s || decide (ballIn s b = level) || !due s (tickPart t) then s
  else
    let s1 := setBall s b level
    match inputOf s b with
    | none => s1
    | some n =>
      let s2 := if alive s then pewterSee s1 n level t else s1
      if cellsOn s then measureAll s2 n level t else s2

/-- R91: the present tick is the fourth compared one at least: RB_BLANK has passed since the last driven edge, and 3 ticks
more, and the driven level has not changed since. A tick that begins before RB_BLANK whole ticks have passed is not
compared. -/
def readbackDue (s : State) (c : Fin 512) : Bool :=
  match s.cells[c].drvAt with
  | some e =>
    decide (driven s c = s.cells[c].drv) && decide (e + 16 * (regFld s (.cell c 0x0D) 23 16 + 3) ≤ 16 * s.time.tick)
  | none => false

/-- READBACK_MISMATCH (R91): the level at the ball in 4 consecutive compared ticks. A lasting difference is one mismatch; a
level that agrees ends it. -/
def doReadback (c : Fin 512) (ball : Bool) (s : State) : State :=
  match driven s c with
  | none => s
  | some l =>
    if !(cellsOn s && readbackDue s c) then s
    else if ball = l then updCell s c (fun x => { x with rbAt := none })
    else if s.cells[c].rbAt = some (l, s.cells[c].drvAt) then s
    else
      report (orReg (updCell s c (fun x => { x with rbAt := some (l, x.drvAt) })) (.cell c 0x08) 0x040000) 0x10 (.cell c)
        (bitAt ball 1 + bitAt l 0) false

/-! ### Detections -/

/-- R299: the memory that the detail of ECC_CORRECTED names, with its instance, for the unit `i`. -/
def correctedMem (i code : Nat) : Option (MemId × Nat) :=
  match code with
  | 0 => some (.controlStore, i % 32)
  | 1 => some (.paramRam, i % 32)
  | 2 => some (.regionRam, i % 4)
  | 3 => some (.ringMem, 0)
  | 4 => some (.supervisorRam, 0)
  | 5 => some (.pewterStore, i % 32 / 4)
  | 6 => some (.secureBank, 0)
  | _ => none

/-- R34, R42: an Invar word was corrected, or copy B was used where bit 0 of the detail says so. -/
def invarEvent (s : State) (d : Word) : State :=
  let s1 := bump s (.chip 0x29) 23 8 1
  report (if bit d 0 then orReg s1 (.chip 0x29) 1 else s1) 0x03 .chip (bitAt (bit d 0) 0) false

/-- R49: a crossbar selection of a region failed its parity: the detail carries its consumer's INDEX and KIND above the
selection code, as XBAR_ERR does; Value B is the code (log entry 66). -/
def xbarParity (s : State) (r : Fin 4) (d : Word) : State :=
  let s1 := setReg s (.region r 0x03) ((reg s (.region r 0x03) &&& 0x800000) ||| (d &&& 0x7FF0FF))
  report (orReg s1 (.region r 0x03) 0x800000) 0x21 (.region r) (fld d 7 0) false

/-- R131, R146: a microcode fault that no row shows, a write of a read-only parameter by a Ronarna routine among them: SEQ_ERR
takes the detail and the routine ends. -/
def microFaultReport (s : State) (b : Fin 32) (d : Word) : State :=
  let s1 := setReg s (.block b 0x08) (d &&& 0xF80FFF)
  let s2 := match s.blks[b].run with
    | some x => scopeFaultOf (endRoutine (noteCount s1 b x) b x) x.req
    | none => s1
  report s2 0x1C (.block b) (d &&& 0xF80FFF).toNat false

/-- FAULT_DETECTED (R34, R119, R131, R209, R299, R301): a detector outside the rows reports a fault: what the class is about is
marked, what its unit keeps of it is set, a lane rebuild starts, and the collector takes it. A lane that is being rebuilt is
ignored; a lost core clock follows R27. -/
def doFaultDetected (cls : Byte) (i : Fin 512) (d : Word) (s : State) : State :=
  let k := cls.toNat
  let b : Fin 32 := Fin.ofNat 32 i.val
  if !(classDefined k && collectorOn s) then s
  else if k = 0x2A then doCoreClockLost s
  else if k = 0x01 then
    match correctedMem i.val (fld d 23 20) with
    | some m => eccCorrected s m.1 m.2 (fld d 19 0)
    | none => report s cls .chip d.toNat false
  else if k = 0x02 then
    if (s.blks[b].rebuildEnd).isSome || !decide (d = 1 ∨ d = 2 ∨ d = 4) then s
    else report (startRebuild s b d.toNat) cls (.block b) d.toNat false
  else if k = 0x03 then invarEvent s d
  else if k = 0x1C then microFaultReport s b d
  else if k = 0x1D then storeFault s b d
  else if k = 0x21 then xbarParity s (Fin.ofNat 4 i.val) d
  else report (markLost s k i d) cls (homeOf k i) d.toNat false

end Sys2Proof.Machine
end

