-- ==== Sys2Proof/Machine/CommandRows.lean ====
section
/-!
DEFINITION. Host commands (R292): the meaning of each row (10_mailbox_interface.md).
-/
namespace Sys2Proof.Machine

/-- REQUEST_MODE (R326): the row of one target. -/
def modeRow (i : Instr) (target : Nat) (e : Entry) (body : State → CmdResult) (s : State) : State :=
  if fld e.a0 3 0 = target then cmdRun i 0x80 e body s else s

/-- OPEN_SESSION (R292). -/
def execOpenSession (e : Entry) (s : State) : Host.Outcome State Fault Refusal :=
  run (cmdRun (.openSession e) 0x01 e (cmdOpenSession e)) s

/-- CLOSE_SESSION (R292). -/
def execCloseSession (e : Entry) (s : State) : Host.Outcome State Fault Refusal :=
  run (cmdRun (.closeSession e) 0x02 e (cmdCloseSession)) s

/-- ECHO_WORD (R292). -/
def execEchoWord (e : Entry) (s : State) : Host.Outcome State Fault Refusal :=
  run (cmdRun (.echoWord e) 0x03 e (cmdEchoWord e)) s

/-- WAIT_UNTIL (R293). -/
def execWaitUntil (e : Entry) (s : State) : Host.Outcome State Fault Refusal :=
  run (cmdRun (.waitUntil e) 0x04 e (cmdWaitUntil e)) s

/-- READ_PARAM (R293). -/
def execReadParam (e : Entry) (s : State) : Host.Outcome State Fault Refusal :=
  run (cmdRun (.readParam e) 0x10 e (cmdReadParam e)) s

/-- WRITE_PARAM (R293). -/
def execWriteParam (e : Entry) (s : State) : Host.Outcome State Fault Refusal :=
  run (cmdRun (.writeParam e) 0x11 e (cmdWriteParam e)) s

/-- MODIFY_PARAM (R293). -/
def execModifyParam (e : Entry) (s : State) : Host.Outcome State Fault Refusal :=
  run (cmdRun (.modifyParam e) 0x12 e (cmdModifyParam e)) s

/-- WRITE_PARAMS (R293). -/
def execWriteParams (e : Entry) (s : State) : Host.Outcome State Fault Refusal :=
  run (cmdRun (.writeParams e) 0x13 e (cmdWriteParams e)) s

/-- READ_BLOCK (R293). -/
def execReadBlock (e : Entry) (s : State) : Host.Outcome State Fault Refusal :=
  run (cmdRun (.readBlock e) 0x14 e (cmdReadBlock e)) s

/-- WRITE_BLOCK (R293). -/
def execWriteBlock (e : Entry) (buf : Buf) (s : State) : Host.Outcome State Fault Refusal :=
  run (cmdRun (.writeBlock e buf) 0x15 e (cmdWriteBlock e buf)) s

/-- ARM_TIME (R89). -/
def execArmTime (e : Entry) (s : State) : Host.Outcome State Fault Refusal :=
  run (cmdRun (.armTime e) 0x20 e (cmdArmTime e)) s

/-- ARM_ANGLE (R95). -/
def execArmAngle (e : Entry) (s : State) : Host.Outcome State Fault Refusal :=
  run (cmdRun (.armAngle e) 0x21 e (cmdArmAngle e)) s

/-- CANCEL_EVENT (R107). -/
def execCancelEvent (e : Entry) (s : State) : Host.Outcome State Fault Refusal :=
  run (cmdRun (.cancelEvent e) 0x22 e (cmdCancelEvent e)) s

/-- REPLACE_EVENT (R108). -/
def execReplaceEvent (e : Entry) (s : State) : Host.Outcome State Fault Refusal :=
  run (cmdRun (.replaceEvent e) 0x23 e (cmdReplaceEvent e)) s

/-- READ_EVENT (R292). -/
def execReadEvent (e : Entry) (s : State) : Host.Outcome State Fault Refusal :=
  run (cmdRun (.readEvent e) 0x24 e (cmdReadEvent e)) s

/-- START_DOMAIN (R51). -/
def execStartDomain (e : Entry) (s : State) : Host.Outcome State Fault Refusal :=
  run (cmdRun (.startDomain e) 0x30 e (cmdStartDomain e)) s

/-- STOP_DOMAIN (R293). -/
def execStopDomain (e : Entry) (s : State) : Host.Outcome State Fault Refusal :=
  run (cmdRun (.stopDomain e) 0x31 e (cmdStopDomain e)) s

/-- RESYNC_DOMAIN (R292). -/
def execResyncDomain (e : Entry) (s : State) : Host.Outcome State Fault Refusal :=
  run (cmdRun (.resyncDomain e) 0x32 e (cmdResyncDomain e)) s

/-- SET_VIRTUAL_SPEED (R293). -/
def execSetVirtualSpeed (e : Entry) (s : State) : Host.Outcome State Fault Refusal :=
  run (cmdRun (.setVirtualSpeed e) 0x33 e (cmdSetVirtualSpeed e)) s

/-- LOAD_WINDOW (R362). -/
def execLoadWindow (e : Entry) (buf : Buf) (s : State) : Host.Outcome State Fault Refusal :=
  run (cmdRun (.loadWindow e buf) 0x40 e (cmdLoadWindow e buf)) s

/-- VERIFY_WINDOW (R362). -/
def execVerifyWindow (e : Entry) (buf : Buf) (s : State) : Host.Outcome State Fault Refusal :=
  run (cmdRun (.verifyWindow e buf) 0x41 e (cmdVerifyWindow e buf)) s

/-- INVOKE_ROUTINE (R293). -/
def execInvokeRoutine (e : Entry) (s : State) : Host.Outcome State Fault Refusal :=
  run (cmdRun (.invokeRoutine e) 0x42 e (cmdInvokeRoutine e)) s

/-- LOAD_PEWTER (R209). -/
def execLoadPewter (e : Entry) (buf : Buf) (s : State) : Host.Outcome State Fault Refusal :=
  run (cmdRun (.loadPewter e buf) 0x50 e (cmdLoadPewter e buf)) s

/-- INJECT_PEWTER (R211). -/
def execInjectPewter (e : Entry) (s : State) : Host.Outcome State Fault Refusal :=
  run (cmdRun (.injectPewter e) 0x51 e (cmdInjectPewter e)) s

/-- LOAD_LUT (R214). -/
def execLoadLut (e : Entry) (buf : Buf) (s : State) : Host.Outcome State Fault Refusal :=
  run (cmdRun (.loadLut e buf) 0x52 e (cmdLoadLut e buf)) s

/-- READ_FAULT (R303). -/
def execReadFault (e : Entry) (s : State) : Host.Outcome State Fault Refusal :=
  run (cmdRun (.readFault e) 0x60 e (cmdReadFault e)) s

/-- ACKNOWLEDGE_FAULT (R303). -/
def execAcknowledgeFault (e : Entry) (s : State) : Host.Outcome State Fault Refusal :=
  run (cmdRun (.acknowledgeFault e) 0x61 e (cmdAcknowledgeFault e)) s

/-- RELEASE_SCOPE (R313). -/
def execReleaseScope (e : Entry) (s : State) : Host.Outcome State Fault Refusal :=
  run (cmdRun (.releaseScope e) 0x62 e (cmdReleaseScope e)) s

/-- RELEASE_FAULT_PIN (R316). -/
def execReleaseFaultPin (e : Entry) (s : State) : Host.Outcome State Fault Refusal :=
  run (cmdRun (.releaseFaultPin e) 0x63 e (cmdReleaseFaultPin)) s

/-- SET_CALENDAR (R370). -/
def execSetCalendar (e : Entry) (s : State) : Host.Outcome State Fault Refusal :=
  run (cmdRun (.setCalendar e) 0x70 e (cmdSetCalendar e)) s

/-- BIND_WEAR_COUNTER (R373). -/
def execBindWearCounter (e : Entry) (s : State) : Host.Outcome State Fault Refusal :=
  run (cmdRun (.bindWearCounter e) 0x71 e (cmdBindWearCounter e)) s

/-- COMMIT_LIFETIME (R376). -/
def execCommitLifetime (e : Entry) (s : State) : Host.Outcome State Fault Refusal :=
  run (cmdRun (.commitLifetime e) 0x72 e (cmdCommitLifetime)) s

/-- EXPORT_LIFETIME (R380). -/
def execExportLifetime (e : Entry) (s : State) : Host.Outcome State Fault Refusal :=
  run (cmdRun (.exportLifetime e) 0x73 e (cmdExportLifetime e)) s

/-- REQUEST_MODE_RUN (R341). -/
def execRequestModeRun (e : Entry) (s : State) : Host.Outcome State Fault Refusal :=
  run (modeRow (.requestModeRun e) 3 e (fun z => modeResult (requestRun z))) s

/-- REQUEST_MODE_CONFIGURE (R340). -/
def execRequestModeConfigure (e : Entry) (s : State) : Host.Outcome State Fault Refusal :=
  run (modeRow (.requestModeConfigure e) 2 e (fun z => modeResult (requestConfigure z))) s

/-- REQUEST_MODE_SERVICE (R344). -/
def execRequestModeService (e : Entry) (s : State) : Host.Outcome State Fault Refusal :=
  run (modeRow (.requestModeService e) 7 e (fun z => modeResult (requestService z))) s

/-- ADVANCE_LIFECYCLE (R357). -/
def execAdvanceLifecycle (e : Entry) (buf : Buf) (s : State) : Host.Outcome State Fault Refusal :=
  run (cmdRun (.advanceLifecycle e buf) 0x81 e (cmdAdvanceLifecycle e buf)) s

/-- STAGE_FIRMWARE (R292). -/
def execStageFirmware (e : Entry) (buf : Buf) (s : State) : Host.Outcome State Fault Refusal :=
  run (cmdRun (.stageFirmware e buf) 0x90 e (cmdStageFirmware e buf)) s

/-- VERIFY_FIRMWARE (R359). -/
def execVerifyFirmware (e : Entry) (s : State) : Host.Outcome State Fault Refusal :=
  run (cmdRun (.verifyFirmware e) 0x91 e (cmdVerifyFirmware)) s

/-- ACTIVATE_FIRMWARE (R344). -/
def execActivateFirmware (e : Entry) (s : State) : Host.Outcome State Fault Refusal :=
  run (cmdRun (.activateFirmware e) 0x92 e (cmdActivateFirmware)) s

/-- ABORT_STAGING (R292). -/
def execAbortStaging (e : Entry) (s : State) : Host.Outcome State Fault Refusal :=
  run (cmdRun (.abortStaging e) 0x93 e (cmdAbortStaging)) s

end Sys2Proof.Machine
end

