-- ==== Sys2Proof/Machine/HostRows.lean ====
section
/-!
DEFINITION. The host interface (R271 to R298): the meaning of each row (10_mailbox_interface.md).
-/
namespace Sys2Proof.Machine

/-- SUBMISSION_FETCH (R283). -/
def execSubmissionFetch (f : Fetched) (s : State) : Host.Outcome State Fault Refusal :=
  run (doSubmissionFetch f) s

/-- DOORBELL (R281). -/
def execDoorbell (ring : Fin 16) (tail : BitVec 16) (s : State) : Host.Outcome State Fault Refusal :=
  run (fun z => writeHostReg z (sqReg ring 0x0C) (tail.setWidth 32)) s

/-- H_EQN_DB (R284). -/
def execEqDoorbell (ring : Fin 16) (head : BitVec 32) (s : State) : Host.Outcome State Fault Refusal :=
  run (fun z => writeHostReg z (eqReg ring 0x0C) head) s

/-- H_SQN_CFG_EN (R288). -/
def execSqCfgEn (ring : Fin 16) (v : Word32) (s : State) : Host.Outcome State Fault Refusal :=
  run (fun z => writeHostReg z (sqReg ring 0x08) v) s

/-- H_EQN_CFG_EN (R288). -/
def execEqCfgEn (ring : Fin 16) (v : Word32) (s : State) : Host.Outcome State Fault Refusal :=
  run (fun z => writeHostReg z (eqReg ring 0x08) v) s

/-- HOST_REGISTER_WRITE (R276). -/
def execHostRegisterWrite (addr : BitVec 16) (size : Nat) (v : Word32) (s : State) : Host.Outcome State Fault Refusal :=
  run (doHostRegisterWrite addr size v) s

/-- H_VLOG_STAT_CLEAR (R298). -/
def execVlogClear (v : Word32) (s : State) : Host.Outcome State Fault Refusal :=
  run (fun z => writeHostReg z 0x060 (v ||| 0x80000000)) s

/-- H_LT_LO_READ (R277). -/
def execHLtLoRead (s : State) : Host.Outcome State Fault Refusal :=
  run (doHostRead 0x030) s

/-- IMAGE_READY (R336). -/
def execImageReady (v : Word32) (s : State) : Host.Outcome State Fault Refusal :=
  run (fun z => writeHostReg z 0x024 (v ||| 0x100)) s

/-- SPI_WRITE (R274). -/
def execSpiWrite (addr : Word) (bytes : List Byte) (s : State) : Host.Outcome State Fault Refusal :=
  run (doSpiWrite addr bytes) s

/-- SPI_READ (R274). -/
def execSpiRead (addr : Word) (len : Nat) (s : State) : Host.Outcome State Fault Refusal :=
  run (doSpiRead addr len) s

/-- READ_STATUS (R275). -/
def execReadStatus (s : State) : Host.Outcome State Fault Refusal :=
  run (doReadStatus) s

/-- HOT_RESET (R298). -/
def execHotReset (s : State) : Host.Outcome State Fault Refusal :=
  run (doHotReset) s

/-- RECORD_POST (R287). -/
def execRecordPost (s : State) : Host.Outcome State Fault Refusal :=
  run (doRecordPost) s

/-- IRQ_HOLDOFF_EXPIRY (R289). -/
def execIrqHoldoffExpiry (ring : Fin 16) (s : State) : Host.Outcome State Fault Refusal :=
  run (doIrqHoldoff ring) s

/-- HEARTBEAT (R277). -/
def execHeartbeat (s : State) : Host.Outcome State Fault Refusal :=
  run (doHeartbeat) s

/-- HOST_TIMEOUT (R293). -/
def execHostTimeout (s : State) : Host.Outcome State Fault Refusal :=
  run (doHostTimeout) s

/-- SUPERVISOR_DIVERGENCE (R319). -/
def execSupervisorDivergence (ramError : Bool) (s : State) : Host.Outcome State Fault Refusal :=
  run (doDivergence ramError) s

/-- SUPERVISOR_RESTART_DONE (R297). -/
def execSupervisorRestartDone (s : State) : Host.Outcome State Fault Refusal :=
  run (doRestartDone) s

/-- SUP_LOCKSTEP (R319). -/
def execSupLockstep (s : State) : Host.Outcome State Fault Refusal :=
  run (doSupLockstep) s

end Sys2Proof.Machine
end

