-- ==== Sys2Proof/Machine/ClockRows.lean ====
section
/-!
DEFINITION. Timebase and clocks (R24 to R47): the meaning of each row (01_architecture_and_timebase.md).
-/
namespace Sys2Proof.Machine

/-- LT_PRESET_HI (R29). -/
def execLtPresetHi (req : Requester) (v : Word) (s : State) : Host.Outcome State Fault Refusal :=
  run (rowWrite req (.chip 0x27) v) s

/-- LT_LO_READ (R32). -/
def execLtLoRead (req : Requester) (s : State) : Host.Outcome State Fault Refusal :=
  run (rowRead req (.chip 0x24)) s

/-- DOM_SNAP_CTRL_CAPTURE (R47). -/
def execDomSnapCapture (req : Requester) (v : Word) (s : State) : Host.Outcome State Fault Refusal :=
  run (rowWrite req (.chip 0x50) (v ||| 1)) s

/-- PLL_CTRL_SWITCH (R24). -/
def execPllSwitch (req : Requester) (v : Word) (s : State) : Host.Outcome State Fault Refusal :=
  run (rowWrite req (.chip 0x21) (v ||| 1)) s

/-- ACTIVE_LOCK_LOSS (R24). -/
def execActiveLockLoss (s : State) : Host.Outcome State Fault Refusal :=
  run (doActiveLockLoss) s

/-- STANDBY_LOCK (R25). -/
def execStandbyLock (gain : Bool) (s : State) : Host.Outcome State Fault Refusal :=
  run (doStandbyLock gain) s

/-- REFERENCE_LOST (R26). -/
def execReferenceLost (s : State) : Host.Outcome State Fault Refusal :=
  run (doReferenceLost) s

/-- REFERENCE_RETURN (R26). -/
def execReferenceReturn (s : State) : Host.Outcome State Fault Refusal :=
  run (doReferenceReturn) s

/-- CORE_CLOCK_LOST (R27). -/
def execCoreClockLost (s : State) : Host.Outcome State Fault Refusal :=
  run (doCoreClockLost) s

end Sys2Proof.Machine
end

