-- ==== Sys2Proof/Machine/CellRows.lean ====
section
/-!
DEFINITION. Timer cells (R22, R82 to R92): the meaning of each row (03_timer_cells_and_events.md).
-/
namespace Sys2Proof.Machine

/-- R81: the offset of CMPA_HI or CMPB_HI. -/
def cmpHiOff (u : CmpUnit) : Nat := match u with
  | .a => 0x03
  | .b => 0x05

/-- INPUT_EDGE (R22). -/
def execInputEdge (ball : Ball) (level : Bool) (t : T16) (s : State) : Host.Outcome State Fault Refusal :=
  run (doInputEdge ball level t) s

/-- CAPTURE (R92). -/
def execCapture (cell : Fin 512) (rise : Bool) (t : T16) (s : State) : Host.Outcome State Fault Refusal :=
  run (fun z => doCapture z cell rise t) s

/-- CAP_LO_READ (R92). -/
def execCapLoRead (req : Requester) (cell : Fin 512) (s : State) : Host.Outcome State Fault Refusal :=
  run (rowRead req (.cell cell 0x06)) s

/-- CELL_CTRL_EN_SET (R85). -/
def execCellEnSet (req : Requester) (cell : Fin 512) (v : Word) (s : State) : Host.Outcome State Fault Refusal :=
  run (rowWrite req (.cell cell 0x01) (v ||| 1)) s

/-- CELL_CTRL_EN_CLEAR (R85). -/
def execCellEnClear (req : Requester) (cell : Fin 512) (v : Word) (s : State) : Host.Outcome State Fault Refusal :=
  run (rowWrite req (.cell cell 0x01) (v &&& 0xFFFFFE)) s

/-- FORCE (R82). -/
def execForce (req : Requester) (cell : Fin 512) (v : Word) (s : State) : Host.Outcome State Fault Refusal :=
  run (rowWrite req (.cell cell 0x01) v) s

/-- CMP_HI_WRITE (R86). -/
def execCmpHiWrite (req : Requester) (cell : Fin 512) (unit : CmpUnit) (v : Word) (s : State) : Host.Outcome State Fault Refusal :=
  run (rowWrite req (.cell cell (cmpHiOff unit)) v) s

/-- COMPARE_MATCH (R86). -/
def execCompareMatch (cell : Fin 512) (unit : CmpUnit) (s : State) : Host.Outcome State Fault Refusal :=
  run (fun z => doCompareMatch z cell unit) s

/-- READBACK_MISMATCH (R91). -/
def execReadbackMismatch (cell : Fin 512) (ball : Bool) (s : State) : Host.Outcome State Fault Refusal :=
  run (doReadback cell ball) s

end Sys2Proof.Machine
end

