-- ==== Sys2Proof/Machine/DomainRows.lean ====
section
/-!
DEFINITION. Angle domains (R50 to R80, R106): the meaning of each row (02_angle_domains.md).
-/
namespace Sys2Proof.Machine

/-- TOOTH_EDGE (R53). -/
def execToothEdge (trk : Fin 16) (rise : Bool) (t : T16) (s : State) : Host.Outcome State Fault Refusal :=
  run (doToothEdge trk rise t) s

/-- MISS_DEADLINE (R54). -/
def execMissDeadline (d : Fin 16) (s : State) : Host.Outcome State Fault Refusal :=
  run (doMissDeadline d) s

/-- GAP_TOOTH (R57). -/
def execGapTooth (d : Fin 16) (s : State) : Host.Outcome State Fault Refusal :=
  run (doGapTooth d) s

/-- STANDSTILL_DEADLINE (R68). -/
def execStandstillDeadline (d : Fin 16) (s : State) : Host.Outcome State Fault Refusal :=
  run (doStandstillDeadline d) s

/-- TOOTH_UPDATE (R62). -/
def execToothUpdate (d : Fin 16) (s : State) : Host.Outcome State Fault Refusal :=
  run (doToothUpdate d) s

/-- VIRTUAL_TOOTH (R74). -/
def execVirtualTooth (d : Fin 16) (s : State) : Host.Outcome State Fault Refusal :=
  run (doVirtualTooth d) s

/-- VIRTUAL_STOP (R74). -/
def execVirtualStop (d : Fin 16) (s : State) : Host.Outcome State Fault Refusal :=
  run (doVirtualStop d) s

/-- DOM_CTRL_EN (R65). -/
def execDomCtrlEn (req : Requester) (d : Fin 16) (v : Word) (s : State) : Host.Outcome State Fault Refusal :=
  run (rowWrite req (.dom d 0x00) v) s

/-- DOM_CTRL_RESYNC (R79). -/
def execDomCtrlResync (req : Requester) (d : Fin 16) (v : Word) (s : State) : Host.Outcome State Fault Refusal :=
  run (rowWrite req (.dom d 0x00) (v ||| 2)) s

/-- INDEX_SET (R79). -/
def execIndexSet (req : Requester) (d : Fin 16) (v : Word) (s : State) : Host.Outcome State Fault Refusal :=
  run (rowWrite req (.dom d 0x0D) (v ||| 0x1000)) s

/-- VG_CTRL_RUN (R74). -/
def execVgCtrlRun (req : Requester) (d : Fin 16) (v : Word) (s : State) : Host.Outcome State Fault Refusal :=
  run (rowWrite req (.dom d 0x15) v) s

/-- STANDSTILL_TIME (R68). -/
def execStandstillTime (req : Requester) (d : Fin 16) (v : Word) (s : State) : Host.Outcome State Fault Refusal :=
  run (rowWrite req (.dom d 0x0B) v) s

/-- ANGLE_READ (R80). -/
def execAngleRead (req : Requester) (d : Fin 16) (s : State) : Host.Outcome State Fault Refusal :=
  run (rowRead req (.dom d 0x1A)) s

/-- LIVE_ANGLE_COMPARE (R106). -/
def execLiveAngleCompare (region : Fin 4) (entry : Fin 64) (s : State) : Host.Outcome State Fault Refusal :=
  run (doLiveAngleCompare region entry) s

end Sys2Proof.Machine
end

