-- ==== Sys2Proof/Machine/SequencerRows.lean ====
section
/-!
DEFINITION. Block sequencers (R113 to R146): the meaning of each row (04_microengine.md).
-/
namespace Sys2Proof.Machine

/-- BLK_TIMER_EXPIRY (R113). -/
def execBlkTimerExpiry (b : Fin 32) (s : State) : Host.Outcome State Fault Refusal :=
  run (doBlkTimer b) s

/-- ROUTINE_DISPATCH (R116). -/
def execRoutineDispatch (b : Fin 32) (s : State) : Host.Outcome State Fault Refusal :=
  run (doRoutineDispatch b) s

/-- MICROWORD (R121). -/
def execMicroword (b : Fin 32) (s : State) : Host.Outcome State Fault Refusal :=
  run (doMicroword b) s

/-- COMMIT (R132). -/
def execCommit (b : Fin 32) (s : State) : Host.Outcome State Fault Refusal :=
  run (doCommit b) s

/-- ROUTINE_WATCHDOG (R136). -/
def execRoutineWatchdog (b : Fin 32) (s : State) : Host.Outcome State Fault Refusal :=
  run (doRoutineWatchdog b) s

/-- LANE_REBUILD_DONE (R119). -/
def execLaneRebuildDone (b : Fin 32) (s : State) : Host.Outcome State Fault Refusal :=
  run (doLaneRebuildDone b) s

/-- CUST_EN_CLEAR (R143). -/
def execCustEnClear (req : Requester) (b : Fin 32) (v : Word) (s : State) : Host.Outcome State Fault Refusal :=
  run (rowWrite req (.block b 0x00) (v &&& 0xFFFFFE)) s

end Sys2Proof.Machine
end

