-- ==== Sys2Proof/Machine/PwmRows.lean ====
section
/-!
DEFINITION. PWM carriers and trips (R147 to R168): the meaning of each row (05_pwm_and_trips.md).
-/
namespace Sys2Proof.Machine

/-- PERIOD_START (R148). -/
def execPeriodStart (c : Carrier) (s : State) : Host.Outcome State Fault Refusal :=
  run (doPeriodStart c) s

/-- PWM_EDGE (R151). -/
def execPwmEdge (cell : Fin 512) (s : State) : Host.Outcome State Fault Refusal :=
  run (doPwmEdge cell) s

/-- CTRIG (R156). -/
def execCtrig (c : Carrier) (k : Fin 4) (s : State) : Host.Outcome State Fault Refusal :=
  run (doCtrig c k) s

/-- TRIP_SOURCE_ACTIVE (R157). -/
def execTripSourceActive (c : Carrier) (src : TripSource) (s : State) : Host.Outcome State Fault Refusal :=
  run (doTripSource c src) s

/-- BPWM_CTRL_EN (R147). -/
def execBpwmCtrlEn (req : Requester) (c : Carrier) (v : Word) (s : State) : Host.Outcome State Fault Refusal :=
  run (rowWrite req (carrierCtrl c) v) s

/-- TRIP_CLR (R160). -/
def execTripClr (req : Requester) (c : Carrier) (v : Word) (s : State) : Host.Outcome State Fault Refusal :=
  run (rowWrite req (carrierCtrl c) (v ||| 8)) s

/-- TRIP_SW (R157). -/
def execTripSw (req : Requester) (c : Carrier) (v : Word) (s : State) : Host.Outcome State Fault Refusal :=
  run (rowWrite req (carrierCtrl c) (v ||| 0x10)) s

/-- UPDLOCK (R149). -/
def execUpdlock (req : Requester) (c : Carrier) (v : Word) (s : State) : Host.Outcome State Fault Refusal :=
  run (rowWrite req (carrierCtrl c) v) s

end Sys2Proof.Machine
end

