-- ==== Sys2Proof/Machine/ChannelRows.lean ====
section
/-!
DEFINITION. Position channels (R169 to R197): the meaning of each row (06_position_channels.md).
-/
namespace Sys2Proof.Machine

/-- QUAD_EDGE (R171). -/
def execQuadEdge (ch : Fin 64) (ab : BitVec 2) (t : T16) (s : State) : Host.Outcome State Fault Refusal :=
  run (doQuadEdge ch ab t) s

/-- STEP_EDGE (R172). -/
def execStepEdge (ch : Fin 64) (dir : Bool) (t : T16) (s : State) : Host.Outcome State Fault Refusal :=
  run (doStepEdge ch dir t) s

/-- PULSE_REF_EDGE (R173). -/
def execPulseRefEdge (ch : Fin 64) (t : T16) (s : State) : Host.Outcome State Fault Refusal :=
  run (doPulseRefEdge ch t) s

/-- SINCOS_SAMPLE (R174). -/
def execSincosSample (ch : Fin 64) (a b : BitVec 14) (t : Time) (s : State) : Host.Outcome State Fault Refusal :=
  run (doSincosSample ch a b t) s

/-- SERIAL_READING (R176). -/
def execSerialReading (ch : Fin 64) (s : State) : Host.Outcome State Fault Refusal :=
  run (doSerialReading ch) s

/-- COUNT_EVENT (R177). -/
def execCountEvent (ch : Fin 64) (s : State) : Host.Outcome State Fault Refusal :=
  run (doCountEvent ch) s

/-- INDEX_EVENT (R179). -/
def execIndexEvent (ch : Fin 64) (t : T16) (s : State) : Host.Outcome State Fault Refusal :=
  run (doIndexEvent ch t) s

/-- CHANNEL_STANDSTILL (R183). -/
def execChannelStandstill (ch : Fin 64) (s : State) : Host.Outcome State Fault Refusal :=
  run (doChannelStandstill ch) s

/-- EMULATION_OUTPUT_COUNT (R191). -/
def execEmuOutputCount (ch : Fin 64) (s : State) : Host.Outcome State Fault Refusal :=
  run (doEmuOutput ch) s

/-- CH_CTRL_EN (R192). -/
def execChCtrlEn (req : Requester) (ch : Fin 64) (v : Word) (s : State) : Host.Outcome State Fault Refusal :=
  run (rowWrite req (.chan ch 0x00) v) s

/-- CMP_EN (R192). -/
def execCmpEn (req : Requester) (ch : Fin 64) (v : Word) (s : State) : Host.Outcome State Fault Refusal :=
  run (rowWrite req (.chan ch 0x00) (v ||| 2)) s

/-- EMU_EN (R190). -/
def execEmuEn (req : Requester) (ch : Fin 64) (v : Word) (s : State) : Host.Outcome State Fault Refusal :=
  run (rowWrite req (.chan ch 0x00) (v ||| 4)) s

/-- CLR_FAULT (R186). -/
def execClrFault (req : Requester) (ch : Fin 64) (v : Word) (s : State) : Host.Outcome State Fault Refusal :=
  run (rowWrite req (.chan ch 0x00) (v ||| 0x10)) s

/-- INDEX_ARM (R179). -/
def execIndexArm (req : Requester) (ch : Fin 64) (v : Word) (s : State) : Host.Outcome State Fault Refusal :=
  run (rowWrite req (.chan ch 0x00) (v ||| 8)) s

/-- POS_HI (R178). -/
def execPosHi (req : Requester) (ch : Fin 64) (v : Word) (s : State) : Host.Outcome State Fault Refusal :=
  run (rowWrite req (.chan ch 0x18) v) s

/-- PCMP_HI (R187). -/
def execPcmpHi (req : Requester) (ch : Fin 64) (v : Word) (s : State) : Host.Outcome State Fault Refusal :=
  run (rowWrite req (.chan ch 0x0F) v) s

/-- SPD_TIMEOUT (R183). -/
def execSpdTimeout (req : Requester) (ch : Fin 64) (v : Word) (s : State) : Host.Outcome State Fault Refusal :=
  run (rowWrite req (.chan ch 0x0D) v) s

/-- POS_LO_READ (R181). -/
def execPosLoRead (req : Requester) (ch : Fin 64) (s : State) : Host.Outcome State Fault Refusal :=
  run (rowRead req (.chan ch 0x17)) s

/-- IDX_LATCH_LO_READ (R181). -/
def execIdxLatchLoRead (req : Requester) (ch : Fin 64) (s : State) : Host.Outcome State Fault Refusal :=
  run (rowRead req (.chan ch 0x1D)) s

end Sys2Proof.Machine
end

