-- ==== Sys2Proof/Machine/PewterRows.lean ====
section
/-!
DEFINITION. Pewter engines (R198 to R217): the meaning of each row (07_pewter_engines.md).
-/
namespace Sys2Proof.Machine

/-- PEWTER_HOLD_STEP (R202). -/
def execPewterHoldStep (pe : Fin 32) (s : State) : Host.Outcome State Fault Refusal :=
  run (doPewterHold pe) s

/-- NOP (R204). -/
def execPeNop (pe : Fin 32) (s : State) : Host.Outcome State Fault Refusal :=
  run (pewterStep pe (peOp 0)) s

/-- SET (R204). -/
def execPeSet (pe : Fin 32) (s : State) : Host.Outcome State Fault Refusal :=
  run (pewterStep pe (peOp 1)) s

/-- MOV (R204). -/
def execPeMov (pe : Fin 32) (s : State) : Host.Outcome State Fault Refusal :=
  run (pewterStep pe (peOp 2)) s

/-- JMP (R204). -/
def execPeJmp (pe : Fin 32) (s : State) : Host.Outcome State Fault Refusal :=
  run (pewterStep pe (peOp 3)) s

/-- WAIT (R204). -/
def execPeWait (pe : Fin 32) (s : State) : Host.Outcome State Fault Refusal :=
  run (pewterStep pe (peOp 4)) s

/-- IN (R206). -/
def execPeIn (pe : Fin 32) (s : State) : Host.Outcome State Fault Refusal :=
  run (pewterStep pe (peOp 5)) s

/-- PUSH (R207). -/
def execPePush (pe : Fin 32) (s : State) : Host.Outcome State Fault Refusal :=
  run (pewterStep pe (peOp 6)) s

/-- OUT (R206). -/
def execPeOut (pe : Fin 32) (s : State) : Host.Outcome State Fault Refusal :=
  run (pewterStep pe (peOp 7)) s

/-- PULL (R207). -/
def execPePull (pe : Fin 32) (s : State) : Host.Outcome State Fault Refusal :=
  run (pewterStep pe (peOp 8)) s

/-- IRQ (R207). -/
def execPeIrq (pe : Fin 32) (s : State) : Host.Outcome State Fault Refusal :=
  run (pewterStep pe (peOp 9)) s

/-- LUT_STEP (R214). -/
def execLutStep (pe : Fin 32) (s : State) : Host.Outcome State Fault Refusal :=
  run (doLutStep pe) s

/-- RESTART (R213). -/
def execRestart (req : Requester) (pe : Fin 32) (v : Word) (s : State) : Host.Outcome State Fault Refusal :=
  run (rowWrite req (.pewter pe 0x00) (v ||| 2)) s

/-- PE_CTRL_EN (R217). -/
def execPeCtrlEn (req : Requester) (pe : Fin 32) (v : Word) (s : State) : Host.Outcome State Fault Refusal :=
  run (rowWrite req (.pewter pe 0x00) v) s

/-- PE_INJECT (R211). -/
def execPeInject (req : Requester) (pe : Fin 32) (v : Word) (s : State) : Host.Outcome State Fault Refusal :=
  run (rowWrite req (.pewter pe 0x08) v) s

/-- PE_TXDATA (R199). -/
def execPeTxdata (req : Requester) (pe : Fin 32) (v : Word) (s : State) : Host.Outcome State Fault Refusal :=
  run (rowWrite req (.pewter pe 0x10) v) s

/-- PE_RXDATA_READ (R199). -/
def execPeRxdataRead (req : Requester) (pe : Fin 32) (s : State) : Host.Outcome State Fault Refusal :=
  run (rowRead req (.pewter pe 0x0F)) s

/-- PE_PROG (R209). -/
def execPeProg (req : Requester) (pe : Fin 32) (v : Word) (s : State) : Host.Outcome State Fault Refusal :=
  run (rowWrite req (.pewter pe 0x11) v) s

/-- PE_LUT (R214). -/
def execPeLut (req : Requester) (pe : Fin 32) (v : Word) (s : State) : Host.Outcome State Fault Refusal :=
  run (rowWrite req (.pewter pe 0x12) v) s

end Sys2Proof.Machine
end

