-- ==== Sys2Proof/Machine/AnalogueRows.lean ====
section
/-!
DEFINITION. Converters and comparators (R218 to R242): the meaning of each row (08_analogue_front_end.md).
-/
namespace Sys2Proof.Machine

/-- SQ_SWTRIG (R226). -/
def execSqSwtrig (req : Requester) (region : Fin 4) (v : Word) (s : State) : Host.Outcome State Fault Refusal :=
  run (rowWrite req (.seqr region 0x3) v) s

/-- SQ_LIST_DATA (R225). -/
def execSqListData (req : Requester) (region : Fin 4) (v : Word) (s : State) : Host.Outcome State Fault Refusal :=
  run (rowWrite req (.seqr region 0x2) v) s

/-- SQ_CTRL_EN (R229). -/
def execSqCtrlEn (req : Requester) (region : Fin 4) (v : Word) (s : State) : Host.Outcome State Fault Refusal :=
  run (rowWrite req (.seqr region 0x0) v) s

/-- ADC_CTRL_EN (R229). -/
def execAdcCtrlEn (req : Requester) (adc : Fin 32) (v : Word) (s : State) : Host.Outcome State Fault Refusal :=
  run (rowWrite req (.adc adc 0x1) v) s

/-- CONVERSION_START (R228). -/
def execConversionStart (region : Fin 4) (s : State) : Host.Outcome State Fault Refusal :=
  run (doConversionStart region) s

/-- CONVERSION_RESULT (R222). -/
def execConversionResult (adc : Fin 32) (vp vn : Int) (s : State) : Host.Outcome State Fault Refusal :=
  run (doConversionResult adc vp vn) s

/-- ADC_LAST_READ (R237). -/
def execAdcLastRead (req : Requester) (adc : Fin 32) (s : State) : Host.Outcome State Fault Refusal :=
  run (rowRead req (.adc adc 0x2)) s

/-- RAW_ZONE_CHANGE (R230). -/
def execRawZoneChange (w : Fin 64) (uV : Int) (s : State) : Host.Outcome State Fault Refusal :=
  run (doRawZoneChange w uV) s

/-- FILTER_SAMPLE (R232). -/
def execFilterSample (w : Fin 64) (uV : Int) (s : State) : Host.Outcome State Fault Refusal :=
  run (doFilterSample w uV) s

/-- SETTLING_END (R233). -/
def execSettlingEnd (w : Fin 64) (s : State) : Host.Outcome State Fault Refusal :=
  run (doSettlingEnd w) s

/-- WC_CTRL_EN (R233). -/
def execWcCtrlEn (req : Requester) (w : Fin 64) (v : Word) (s : State) : Host.Outcome State Fault Refusal :=
  run (rowWrite req (.comp w 0x0) v) s

/-- WC_THR_WRITE (R235). -/
def execWcThrWrite (req : Requester) (w : Fin 64) (hi : Bool) (v : Word) (s : State) : Host.Outcome State Fault Refusal :=
  run (rowWrite req (.comp w (if hi then 0x3 else 0x2)) v) s

end Sys2Proof.Machine
end

