-- ==== Sys2Proof/Machine/LinkRows.lean ====
section
/-!
DEFINITION. The Electrum link (R244 to R270): the meaning of each row (09_electrum_link.md).
-/
namespace Sys2Proof.Machine

/-- FRAME_ORIGINATE (R246). -/
def execFrameOriginate (s : State) : Host.Outcome State Fault Refusal :=
  run (doFrameOriginate) s

/-- FRAME_ARRIVAL (R251). -/
def execFrameArrival (port : Port) (bytes : List Byte) (t : T16) (s : State) : Host.Outcome State Fault Refusal :=
  run (doFrameArrival port bytes t) s

/-- FRAME_MISSED (R263). -/
def execFrameMissed (port : Port) (s : State) : Host.Outcome State Fault Refusal :=
  run (doFrameMissed port) s

/-- LANE_LOCK_LOSS (R263). -/
def execLaneLockLoss (port : Port) (s : State) : Host.Outcome State Fault Refusal :=
  run (doLaneLockLoss port) s

/-- BACKUP_TAKEOVER (R262). -/
def execBackupTakeover (s : State) : Host.Outcome State Fault Refusal :=
  run (doBackupTakeover) s

/-- CANDIDATE_ORIGINATE (R261). -/
def execCandidateOriginate (s : State) : Host.Outcome State Fault Refusal :=
  run (doCandidateOriginate) s

/-- ELC_CTRL_EN (R245). -/
def execElcCtrlEn (req : Requester) (v : Word) (s : State) : Host.Outcome State Fault Refusal :=
  run (rowWrite req (.link 0x00) v) s

/-- ELC_MBX_TX_HI (R267). -/
def execElcMbxTxHi (req : Requester) (v : Word) (s : State) : Host.Outcome State Fault Refusal :=
  run (rowWrite req (.link 0x22) v) s

end Sys2Proof.Machine
end

