-- ==== Sys2Proof/Machine/FaultRows.lean ====
section
/-!
DEFINITION. Faults (R299 to R324): the meaning of each row (11_faults_and_recovery.md).
-/
namespace Sys2Proof.Machine

/-- FAULT_DETECTED (R301). -/
def execFaultDetected (cls : Byte) (index : Fin 512) (detail : Word) (s : State) : Host.Outcome State Fault Refusal :=
  run (doFaultDetected cls index detail) s

/-- QUIET_PERIOD_END (R311). -/
def execQuietPeriodEnd (scope : Scope) (s : State) : Host.Outcome State Fault Refusal :=
  run (doQuietPeriodEnd scope) s

/-- PIN_WIDTH_EXPIRY (R316). -/
def execPinWidthExpiry (s : State) : Host.Outcome State Fault Refusal :=
  run (doPinWidthExpiry) s

/-- SAFE_REQ_N (R317). -/
def execSafeReqN (s : State) : Host.Outcome State Fault Refusal :=
  run (doSafeReqN) s

/-- SAFE_REQ_N_RISE (R311). -/
def execSafeReqNRise (s : State) : Host.Outcome State Fault Refusal :=
  run (doSafeReqNRise) s

end Sys2Proof.Machine
end

