-- ==== Sys2Proof/Machine/ModeRows.lean ====
section
/-!
DEFINITION. Boot, power and halt (R325 to R347): the meaning of each row (12_modes_and_startup.md).
-/
namespace Sys2Proof.Machine

/-- PWR_OK_RISE (R334). -/
def execPwrOkRise (find : BootFind) (s : State) : Host.Outcome State Fault Refusal :=
  run (doPwrOkRise find) s

/-- BOOT_DONE (R334). -/
def execBootDone (s : State) : Host.Outcome State Fault Refusal :=
  run (doBootDone) s

/-- BOOT_STOP (R338). -/
def execBootStop (cause : BitVec 8) (s : State) : Host.Outcome State Fault Refusal :=
  run (doBootStop cause) s

/-- PWR_OK_FALL (R326). -/
def execPwrOkFall (s : State) : Host.Outcome State Fault Refusal :=
  run (doPwrOkFall) s

/-- POWER_FAIL (R346). -/
def execPowerFail (cause : PowerCause) (s : State) : Host.Outcome State Fault Refusal :=
  run (doPowerFail cause) s

/-- POWER_FAIL_RECOVERY (R346). -/
def execPowerFailRecovery (s : State) : Host.Outcome State Fault Refusal :=
  run (doPowerFailRecovery) s

/-- DEBUG_HALT (R345). -/
def execDebugHalt (s : State) : Host.Outcome State Fault Refusal :=
  run (doDebugHalt) s

/-- DEBUG_RESUME (R345). -/
def execDebugResume (s : State) : Host.Outcome State Fault Refusal :=
  run (doDebugResume) s

end Sys2Proof.Machine
end

