-- ==== Sys2Proof/Machine/SecurityRows.lean ====
section
/-!
DEFINITION. Memories, security and boundary scan (R348 to R369): the meaning of each row (13_memory_and_security.md).
-/
namespace Sys2Proof.Machine

/-- DEBUG_CERTIFICATE (R366). -/
def execDebugCertificate (bytes : List Byte) (s : State) : Host.Outcome State Fault Refusal :=
  run (doDebugCertificate bytes) s

/-- EXTEST (R367). -/
def execExtest (s : State) : Host.Outcome State Fault Refusal :=
  run (fun z => jtagTakes z .extest) s

/-- INTEST (R367). -/
def execIntest (s : State) : Host.Outcome State Fault Refusal :=
  run (fun z => jtagTakes z .intest) s

/-- BYPASS (R367). -/
def execBypass (s : State) : Host.Outcome State Fault Refusal :=
  run (doBypass) s

/-- IDCODE (R367). -/
def execIdcode (s : State) : Host.Outcome State Fault Refusal :=
  run (doIdcode) s

/-- SAMPLE_PRELOAD (R367). -/
def execSamplePreload (s : State) : Host.Outcome State Fault Refusal :=
  run (doSamplePreload) s

/-- SCRUB_WORD (R354). -/
def execScrubWord (mem : MemId) (inst : Fin 32) (find : ScrubFinding) (s : State) : Host.Outcome State Fault Refusal :=
  run (doScrubWord mem inst find) s

/-- TAMPER (R365). -/
def execTamper (cause : TamperCause) (s : State) : Host.Outcome State Fault Refusal :=
  run (doTamper cause) s

/-- SECURE_BANK_REBUILD (R364). -/
def execSecureBankRebuild (s : State) : Host.Outcome State Fault Refusal :=
  run (doSecureBankRebuild) s

end Sys2Proof.Machine
end

