-- ==== Sys2Proof/Machine/LifeRows.lean ====
section
/-!
DEFINITION. Lifetime records and monitors (R370 to R388): the meaning of each row (14_lifetime_and_monitors.md).
-/
namespace Sys2Proof.Machine

/-- HISTORY_WRITE (R379), while the store is powered. -/
def doHistoryWriteRow (s : State) : State := if alive s then doHistoryWrite s else s

/-- CALENDAR_SECOND (R370). -/
def execCalendarSecond (s : State) : Host.Outcome State Fault Refusal :=
  run (doCalendarSecond) s

/-- LIFETIME_COMMIT_END (R376). -/
def execLifetimeCommitEnd (ok : Bool) (s : State) : Host.Outcome State Fault Refusal :=
  run (doLifetimeCommitEnd ok) s

/-- HISTORY_WRITE (R379). -/
def execHistoryWrite (s : State) : Host.Outcome State Fault Refusal :=
  run (doHistoryWriteRow) s

/-- WEAR_CLR (R373). -/
def execWearClr (req : Requester) (v : Word) (s : State) : Host.Outcome State Fault Refusal :=
  run (rowWrite req (.life 0x0C) v) s

/-- TEMPERATURE_SAMPLE (R382). -/
def execTemperatureSample (m : Fin 24) (reading : Int) (s : State) : Host.Outcome State Fault Refusal :=
  run (doTemperatureSample m reading) s

/-- VOLTAGE_SAMPLE (R382). -/
def execVoltageSample (m : Fin 24) (reading : Int) (s : State) : Host.Outcome State Fault Refusal :=
  run (doVoltageSample m reading) s

/-- CALIBRATION_PASS (R384). -/
def execCalibrationPass (region : Fin 4) (reading : Int) (s : State) : Host.Outcome State Fault Refusal :=
  run (doCalibrationPass region reading) s

end Sys2Proof.Machine
end

