-- ==== Sys2Proof/Machine/BankRows.lean ====
section
/-!
DEFINITION. Bank Z, and the rows at the end of the table: the meaning of each row (15_pins_power_electrical.md).
-/
namespace Sys2Proof.Machine

/-- HOST_RING_MEMORY_WRITE (R352): over PCI Express. -/
def doHostRingMemWrite (off : BitVec 21) (bytes : List Byte) (s : State) : State :=
  if overSpi s then s else writeRingMem s off.toNat bytes

/-- LEDGER_SAMPLE (R398). -/
def execLedgerSample (exc : Fin 8) (vz current : Nat) (limiting : Bool) (s : State) : Host.Outcome State Fault Refusal :=
  run (doLedgerSample exc vz current limiting) s

/-- EXC_CTRL (R397). -/
def execExcCtrl (req : Requester) (v : Word) (s : State) : Host.Outcome State Fault Refusal :=
  run (rowWrite req (.chip 0x98) v) s

/-- ZIO_CFG_EN (R395). -/
def execZioCfgEn (req : Requester) (z : Fin 16) (v : Word) (s : State) : Host.Outcome State Fault Refusal :=
  run (rowWrite req (.chip (0x80 + z.val)) v) s

/-- LANE_LOCK_GAINED (R245). -/
def execLaneLockGained (port : Port) (s : State) : Host.Outcome State Fault Refusal :=
  run (doLaneLockGained port) s

/-- VBAT_LOSS (R370). -/
def execVbatLoss (s : State) : Host.Outcome State Fault Refusal :=
  run (doVbatLoss) s

/-- BUS_MASTER_ENABLE (R272). -/
def execBusMasterEnable (s : State) : Host.Outcome State Fault Refusal :=
  run (doBusMaster) s

/-- MSI_X_VECTOR_UNMASK (R289). -/
def execMsixUnmask (vec : Option (Fin 32)) (s : State) : Host.Outcome State Fault Refusal :=
  run (doUnmask vec) s

/-- HOST_RING_MEMORY_WRITE (R352). -/
def execHostRingMemWrite (off : BitVec 21) (bytes : List Byte) (s : State) : Host.Outcome State Fault Refusal :=
  run (doHostRingMemWrite off bytes) s

/-- H_CMD_LAT_MAX_READ (R277). -/
def execHCmdLatMaxRead (s : State) : Host.Outcome State Fault Refusal :=
  run (doHostRead 0x07C) s

/-- DEBUG_PORT_ACCESS (R366). -/
def execDebugPortAccess (acc : DebugAccess) (s : State) : Host.Outcome State Fault Refusal :=
  run (doDebugAccess acc) s

/-- ILLEGAL_WORD (R205). -/
def execIllegalWord (pe : Fin 32) (s : State) : Host.Outcome State Fault Refusal :=
  run (pewterStep pe (fun w => !peLegal w)) s

end Sys2Proof.Machine
end

