-- ==== Sys2Proof/Machine/Dispatch.lean ====
section
/-!
DEFINITION. One arm per command: its meaning, called directly.
-/
namespace Sys2Proof.Machine

def exec (i : Instr) (s : State) : Host.Outcome State Fault Refusal :=
  match i with
  | .openSession e => Sys2Proof.Machine.execOpenSession e s
  | .closeSession e => Sys2Proof.Machine.execCloseSession e s
  | .echoWord e => Sys2Proof.Machine.execEchoWord e s
  | .waitUntil e => Sys2Proof.Machine.execWaitUntil e s
  | .readParam e => Sys2Proof.Machine.execReadParam e s
  | .writeParam e => Sys2Proof.Machine.execWriteParam e s
  | .modifyParam e => Sys2Proof.Machine.execModifyParam e s
  | .writeParams e => Sys2Proof.Machine.execWriteParams e s
  | .readBlock e => Sys2Proof.Machine.execReadBlock e s
  | .writeBlock e buf => Sys2Proof.Machine.execWriteBlock e buf s
  | .armTime e => Sys2Proof.Machine.execArmTime e s
  | .armAngle e => Sys2Proof.Machine.execArmAngle e s
  | .cancelEvent e => Sys2Proof.Machine.execCancelEvent e s
  | .replaceEvent e => Sys2Proof.Machine.execReplaceEvent e s
  | .readEvent e => Sys2Proof.Machine.execReadEvent e s
  | .startDomain e => Sys2Proof.Machine.execStartDomain e s
  | .stopDomain e => Sys2Proof.Machine.execStopDomain e s
  | .resyncDomain e => Sys2Proof.Machine.execResyncDomain e s
  | .setVirtualSpeed e => Sys2Proof.Machine.execSetVirtualSpeed e s
  | .loadWindow e buf => Sys2Proof.Machine.execLoadWindow e buf s
  | .verifyWindow e buf => Sys2Proof.Machine.execVerifyWindow e buf s
  | .invokeRoutine e => Sys2Proof.Machine.execInvokeRoutine e s
  | .loadPewter e buf => Sys2Proof.Machine.execLoadPewter e buf s
  | .injectPewter e => Sys2Proof.Machine.execInjectPewter e s
  | .loadLut e buf => Sys2Proof.Machine.execLoadLut e buf s
  | .readFault e => Sys2Proof.Machine.execReadFault e s
  | .acknowledgeFault e => Sys2Proof.Machine.execAcknowledgeFault e s
  | .releaseScope e => Sys2Proof.Machine.execReleaseScope e s
  | .releaseFaultPin e => Sys2Proof.Machine.execReleaseFaultPin e s
  | .setCalendar e => Sys2Proof.Machine.execSetCalendar e s
  | .bindWearCounter e => Sys2Proof.Machine.execBindWearCounter e s
  | .commitLifetime e => Sys2Proof.Machine.execCommitLifetime e s
  | .exportLifetime e => Sys2Proof.Machine.execExportLifetime e s
  | .requestModeRun e => Sys2Proof.Machine.execRequestModeRun e s
  | .requestModeConfigure e => Sys2Proof.Machine.execRequestModeConfigure e s
  | .requestModeService e => Sys2Proof.Machine.execRequestModeService e s
  | .advanceLifecycle e buf => Sys2Proof.Machine.execAdvanceLifecycle e buf s
  | .stageFirmware e buf => Sys2Proof.Machine.execStageFirmware e buf s
  | .verifyFirmware e => Sys2Proof.Machine.execVerifyFirmware e s
  | .activateFirmware e => Sys2Proof.Machine.execActivateFirmware e s
  | .abortStaging e => Sys2Proof.Machine.execAbortStaging e s
  | .submissionFetch f => Sys2Proof.Machine.execSubmissionFetch f s
  | .doorbell ring tail => Sys2Proof.Machine.execDoorbell ring tail s
  | .eqDoorbell ring head => Sys2Proof.Machine.execEqDoorbell ring head s
  | .sqCfgEn ring v => Sys2Proof.Machine.execSqCfgEn ring v s
  | .eqCfgEn ring v => Sys2Proof.Machine.execEqCfgEn ring v s
  | .hostRegisterWrite addr size v => Sys2Proof.Machine.execHostRegisterWrite addr size v s
  | .vlogClear v => Sys2Proof.Machine.execVlogClear v s
  | .hLtLoRead => Sys2Proof.Machine.execHLtLoRead s
  | .imageReady v => Sys2Proof.Machine.execImageReady v s
  | .spiWrite addr bytes => Sys2Proof.Machine.execSpiWrite addr bytes s
  | .spiRead addr len => Sys2Proof.Machine.execSpiRead addr len s
  | .readStatus => Sys2Proof.Machine.execReadStatus s
  | .hotReset => Sys2Proof.Machine.execHotReset s
  | .recordPost => Sys2Proof.Machine.execRecordPost s
  | .irqHoldoffExpiry ring => Sys2Proof.Machine.execIrqHoldoffExpiry ring s
  | .heartbeat => Sys2Proof.Machine.execHeartbeat s
  | .hostTimeout => Sys2Proof.Machine.execHostTimeout s
  | .supervisorDivergence ramError => Sys2Proof.Machine.execSupervisorDivergence ramError s
  | .supervisorRestartDone => Sys2Proof.Machine.execSupervisorRestartDone s
  | .supLockstep => Sys2Proof.Machine.execSupLockstep s
  | .ltPresetHi req v => Sys2Proof.Machine.execLtPresetHi req v s
  | .ltLoRead req => Sys2Proof.Machine.execLtLoRead req s
  | .domSnapCapture req v => Sys2Proof.Machine.execDomSnapCapture req v s
  | .pllSwitch req v => Sys2Proof.Machine.execPllSwitch req v s
  | .activeLockLoss => Sys2Proof.Machine.execActiveLockLoss s
  | .standbyLock gain => Sys2Proof.Machine.execStandbyLock gain s
  | .referenceLost => Sys2Proof.Machine.execReferenceLost s
  | .referenceReturn => Sys2Proof.Machine.execReferenceReturn s
  | .coreClockLost => Sys2Proof.Machine.execCoreClockLost s
  | .inputEdge ball level t => Sys2Proof.Machine.execInputEdge ball level t s
  | .capture cell rise t => Sys2Proof.Machine.execCapture cell rise t s
  | .capLoRead req cell => Sys2Proof.Machine.execCapLoRead req cell s
  | .cellEnSet req cell v => Sys2Proof.Machine.execCellEnSet req cell v s
  | .cellEnClear req cell v => Sys2Proof.Machine.execCellEnClear req cell v s
  | .force req cell v => Sys2Proof.Machine.execForce req cell v s
  | .cmpHiWrite req cell unit v => Sys2Proof.Machine.execCmpHiWrite req cell unit v s
  | .compareMatch cell unit => Sys2Proof.Machine.execCompareMatch cell unit s
  | .readbackMismatch cell ball => Sys2Proof.Machine.execReadbackMismatch cell ball s
  | .toothEdge trk rise t => Sys2Proof.Machine.execToothEdge trk rise t s
  | .missDeadline d => Sys2Proof.Machine.execMissDeadline d s
  | .gapTooth d => Sys2Proof.Machine.execGapTooth d s
  | .standstillDeadline d => Sys2Proof.Machine.execStandstillDeadline d s
  | .toothUpdate d => Sys2Proof.Machine.execToothUpdate d s
  | .virtualTooth d => Sys2Proof.Machine.execVirtualTooth d s
  | .virtualStop d => Sys2Proof.Machine.execVirtualStop d s
  | .domCtrlEn req d v => Sys2Proof.Machine.execDomCtrlEn req d v s
  | .domCtrlResync req d v => Sys2Proof.Machine.execDomCtrlResync req d v s
  | .indexSet req d v => Sys2Proof.Machine.execIndexSet req d v s
  | .vgCtrlRun req d v => Sys2Proof.Machine.execVgCtrlRun req d v s
  | .standstillTime req d v => Sys2Proof.Machine.execStandstillTime req d v s
  | .angleRead req d => Sys2Proof.Machine.execAngleRead req d s
  | .liveAngleCompare region entry => Sys2Proof.Machine.execLiveAngleCompare region entry s
  | .blkTimerExpiry b => Sys2Proof.Machine.execBlkTimerExpiry b s
  | .routineDispatch b => Sys2Proof.Machine.execRoutineDispatch b s
  | .microword b => Sys2Proof.Machine.execMicroword b s
  | .commit b => Sys2Proof.Machine.execCommit b s
  | .routineWatchdog b => Sys2Proof.Machine.execRoutineWatchdog b s
  | .laneRebuildDone b => Sys2Proof.Machine.execLaneRebuildDone b s
  | .custEnClear req b v => Sys2Proof.Machine.execCustEnClear req b v s
  | .periodStart c => Sys2Proof.Machine.execPeriodStart c s
  | .pwmEdge cell => Sys2Proof.Machine.execPwmEdge cell s
  | .ctrig c k => Sys2Proof.Machine.execCtrig c k s
  | .tripSourceActive c src => Sys2Proof.Machine.execTripSourceActive c src s
  | .bpwmCtrlEn req c v => Sys2Proof.Machine.execBpwmCtrlEn req c v s
  | .tripClr req c v => Sys2Proof.Machine.execTripClr req c v s
  | .tripSw req c v => Sys2Proof.Machine.execTripSw req c v s
  | .updlock req c v => Sys2Proof.Machine.execUpdlock req c v s
  | .quadEdge ch ab t => Sys2Proof.Machine.execQuadEdge ch ab t s
  | .stepEdge ch dir t => Sys2Proof.Machine.execStepEdge ch dir t s
  | .pulseRefEdge ch t => Sys2Proof.Machine.execPulseRefEdge ch t s
  | .sincosSample ch a b t => Sys2Proof.Machine.execSincosSample ch a b t s
  | .serialReading ch => Sys2Proof.Machine.execSerialReading ch s
  | .countEvent ch => Sys2Proof.Machine.execCountEvent ch s
  | .indexEvent ch t => Sys2Proof.Machine.execIndexEvent ch t s
  | .channelStandstill ch => Sys2Proof.Machine.execChannelStandstill ch s
  | .emuOutputCount ch => Sys2Proof.Machine.execEmuOutputCount ch s
  | .chCtrlEn req ch v => Sys2Proof.Machine.execChCtrlEn req ch v s
  | .cmpEn req ch v => Sys2Proof.Machine.execCmpEn req ch v s
  | .emuEn req ch v => Sys2Proof.Machine.execEmuEn req ch v s
  | .clrFault req ch v => Sys2Proof.Machine.execClrFault req ch v s
  | .indexArm req ch v => Sys2Proof.Machine.execIndexArm req ch v s
  | .posHi req ch v => Sys2Proof.Machine.execPosHi req ch v s
  | .pcmpHi req ch v => Sys2Proof.Machine.execPcmpHi req ch v s
  | .spdTimeout req ch v => Sys2Proof.Machine.execSpdTimeout req ch v s
  | .posLoRead req ch => Sys2Proof.Machine.execPosLoRead req ch s
  | .idxLatchLoRead req ch => Sys2Proof.Machine.execIdxLatchLoRead req ch s
  | .pewterHoldStep pe => Sys2Proof.Machine.execPewterHoldStep pe s
  | .peNop pe => Sys2Proof.Machine.execPeNop pe s
  | .peSet pe => Sys2Proof.Machine.execPeSet pe s
  | .peMov pe => Sys2Proof.Machine.execPeMov pe s
  | .peJmp pe => Sys2Proof.Machine.execPeJmp pe s
  | .peWait pe => Sys2Proof.Machine.execPeWait pe s
  | .peIn pe => Sys2Proof.Machine.execPeIn pe s
  | .pePush pe => Sys2Proof.Machine.execPePush pe s
  | .peOut pe => Sys2Proof.Machine.execPeOut pe s
  | .pePull pe => Sys2Proof.Machine.execPePull pe s
  | .peIrq pe => Sys2Proof.Machine.execPeIrq pe s
  | .lutStep pe => Sys2Proof.Machine.execLutStep pe s
  | .restart req pe v => Sys2Proof.Machine.execRestart req pe v s
  | .peCtrlEn req pe v => Sys2Proof.Machine.execPeCtrlEn req pe v s
  | .peInject req pe v => Sys2Proof.Machine.execPeInject req pe v s
  | .peTxdata req pe v => Sys2Proof.Machine.execPeTxdata req pe v s
  | .peRxdataRead req pe => Sys2Proof.Machine.execPeRxdataRead req pe s
  | .peProg req pe v => Sys2Proof.Machine.execPeProg req pe v s
  | .peLut req pe v => Sys2Proof.Machine.execPeLut req pe v s
  | .sqSwtrig req region v => Sys2Proof.Machine.execSqSwtrig req region v s
  | .sqListData req region v => Sys2Proof.Machine.execSqListData req region v s
  | .sqCtrlEn req region v => Sys2Proof.Machine.execSqCtrlEn req region v s
  | .adcCtrlEn req adc v => Sys2Proof.Machine.execAdcCtrlEn req adc v s
  | .conversionStart region => Sys2Proof.Machine.execConversionStart region s
  | .conversionResult adc vp vn => Sys2Proof.Machine.execConversionResult adc vp vn s
  | .adcLastRead req adc => Sys2Proof.Machine.execAdcLastRead req adc s
  | .rawZoneChange w uV => Sys2Proof.Machine.execRawZoneChange w uV s
  | .filterSample w uV => Sys2Proof.Machine.execFilterSample w uV s
  | .settlingEnd w => Sys2Proof.Machine.execSettlingEnd w s
  | .wcCtrlEn req w v => Sys2Proof.Machine.execWcCtrlEn req w v s
  | .wcThrWrite req w hi v => Sys2Proof.Machine.execWcThrWrite req w hi v s
  | .frameOriginate => Sys2Proof.Machine.execFrameOriginate s
  | .frameArrival port bytes t => Sys2Proof.Machine.execFrameArrival port bytes t s
  | .frameMissed port => Sys2Proof.Machine.execFrameMissed port s
  | .laneLockLoss port => Sys2Proof.Machine.execLaneLockLoss port s
  | .backupTakeover => Sys2Proof.Machine.execBackupTakeover s
  | .candidateOriginate => Sys2Proof.Machine.execCandidateOriginate s
  | .elcCtrlEn req v => Sys2Proof.Machine.execElcCtrlEn req v s
  | .elcMbxTxHi req v => Sys2Proof.Machine.execElcMbxTxHi req v s
  | .faultDetected cls index detail => Sys2Proof.Machine.execFaultDetected cls index detail s
  | .quietPeriodEnd scope => Sys2Proof.Machine.execQuietPeriodEnd scope s
  | .pinWidthExpiry => Sys2Proof.Machine.execPinWidthExpiry s
  | .safeReqN => Sys2Proof.Machine.execSafeReqN s
  | .safeReqNRise => Sys2Proof.Machine.execSafeReqNRise s
  | .pwrOkRise find => Sys2Proof.Machine.execPwrOkRise find s
  | .bootDone => Sys2Proof.Machine.execBootDone s
  | .bootStop cause => Sys2Proof.Machine.execBootStop cause s
  | .pwrOkFall => Sys2Proof.Machine.execPwrOkFall s
  | .powerFail cause => Sys2Proof.Machine.execPowerFail cause s
  | .powerFailRecovery => Sys2Proof.Machine.execPowerFailRecovery s
  | .debugHalt => Sys2Proof.Machine.execDebugHalt s
  | .debugResume => Sys2Proof.Machine.execDebugResume s
  | .debugCertificate bytes => Sys2Proof.Machine.execDebugCertificate bytes s
  | .extest => Sys2Proof.Machine.execExtest s
  | .intest => Sys2Proof.Machine.execIntest s
  | .bypass => Sys2Proof.Machine.execBypass s
  | .idcode => Sys2Proof.Machine.execIdcode s
  | .samplePreload => Sys2Proof.Machine.execSamplePreload s
  | .scrubWord mem inst find => Sys2Proof.Machine.execScrubWord mem inst find s
  | .tamper cause => Sys2Proof.Machine.execTamper cause s
  | .secureBankRebuild => Sys2Proof.Machine.execSecureBankRebuild s
  | .calendarSecond => Sys2Proof.Machine.execCalendarSecond s
  | .lifetimeCommitEnd ok => Sys2Proof.Machine.execLifetimeCommitEnd ok s
  | .historyWrite => Sys2Proof.Machine.execHistoryWrite s
  | .wearClr req v => Sys2Proof.Machine.execWearClr req v s
  | .temperatureSample m reading => Sys2Proof.Machine.execTemperatureSample m reading s
  | .voltageSample m reading => Sys2Proof.Machine.execVoltageSample m reading s
  | .calibrationPass region reading => Sys2Proof.Machine.execCalibrationPass region reading s
  | .ledgerSample exc vz current limiting => Sys2Proof.Machine.execLedgerSample exc vz current limiting s
  | .excCtrl req v => Sys2Proof.Machine.execExcCtrl req v s
  | .zioCfgEn req z v => Sys2Proof.Machine.execZioCfgEn req z v s
  | .laneLockGained port => Sys2Proof.Machine.execLaneLockGained port s
  | .vbatLoss => Sys2Proof.Machine.execVbatLoss s
  | .busMasterEnable => Sys2Proof.Machine.execBusMasterEnable s
  | .msixUnmask vec => Sys2Proof.Machine.execMsixUnmask vec s
  | .hostRingMemWrite off bytes => Sys2Proof.Machine.execHostRingMemWrite off bytes s
  | .hCmdLatMaxRead => Sys2Proof.Machine.execHCmdLatMaxRead s
  | .debugPortAccess acc => Sys2Proof.Machine.execDebugPortAccess acc s
  | .illegalWord pe => Sys2Proof.Machine.execIllegalWord pe s

end Sys2Proof.Machine
end

