-- ==== Sys2Proof/Machine/Tick.lean ====
section
/-!
DEFINITION. One tick of the core clock, which passes when no command waits (log entry 2): the end of the present tick, with
the examinations due in it, the writes that committed in it (00_scope.md R9, 01_architecture_and_timebase.md R17) and the
banks of region RAM (R18); line time with its preset and discipline (R28, R29); the start of the next tick, with fault
reactions (11_faults_and_recovery.md R304), the edges whose tick has come (03_timer_cells_and_events.md R86), what domains
take in (02_angle_domains.md R78), and commands that waited (10_mailbox_interface.md R293).
-/
namespace Sys2Proof.Machine

/-! ### The end of a tick -/

/-- R93, R160: what the end of a tick examines. -/
def lateJob (s : State) (j : Job) : State :=
  match j with
  | .trip k clear software => examineTrip s k clear software
  | .measure c rise t => if cellsOn s && measures s c then measureEdge s c rise t else s
  | .react .. => s
  | .exportTo _ => s

/-- R380: the entry of an export of the present tick. -/
def exportDue (s : State) (j : Nat × Job) : Option Entry :=
  match j.2 with
  | .exportTo e => if j.1 ≤ s.time.tick then some e else none
  | _ => none

/-- R93, R160: the examinations due in the present tick. -/
def endJobs (s : State) : State :=
  let s1 := (s.agenda.jobs.filter (fun j => decide (j.1 ≤ s.time.tick))).foldl (fun z j => lateJob z j.2) s
  { s1 with agenda := { s1.agenda with
      jobs := s1.agenda.jobs.filter (fun j => !decide (j.1 ≤ s.time.tick) || (exportDue s j).isSome) } }

/-- R376, R380: the snapshot of the present tick, and the images that exports of the tick write of it. -/
def endSnapshot (s : State) : State :=
  let s1 := refreshSnapshot s
  let s2 := (s1.agenda.jobs.filterMap (exportDue s1)).foldl writeExport s1
  { s2 with agenda := { s2.agenda with jobs := s2.agenda.jobs.filter (fun j => (exportDue s j).isNone) } }

/-- R15, R312, R399: what was noted of the present tick alone is forgotten. -/
def forgetTick (s : State) : State :=
  { s with par := { s.par with fresh := s.par.fresh.filter (fun x => decide (s.time.tick < x.tick)) }
           flt := { s.flt with leaving := [] }
           pins := { s.pins with zioOld := [] } }

/-- R9, R17, R18: the end of the present tick. -/
def endTick (s : State) : State :=
  forgetTick (endSnapshot (serveBanks (applyLate (frameTick (noteLines (noteDriven (endJobs (refreshSnaps s))))))))

/-! ### Time -/

/-- R29: line time of the next tick under the discipline of the link: the phase accumulator, in units of 10⁻⁸ tick, holds
the count for one tick or advances it by 2 when it wraps. -/
def disciplined (x : Timebase) : Timebase :=
  let p := x.phase + x.rate
  if 100000000 ≤ p then { x with lt := x.lt + 2, phase := p - 100000000 }
  else if p ≤ -100000000 then { x with phase := p + 100000000 }
  else { x with lt := x.lt + 1, phase := p }

/-- R27, R28: line time runs from its start in BOOT on, while the device has power and its core clock. -/
def clockRuns (s : State) : Bool := clockOn s && s.boot.lineOn

/-- R28 to R31: line time moves to the next tick: a preset where one is pending, else the count. -/
def advanceLine (s : State) : State :=
  if !clockRuns s then s
  else
    match s.time.preset with
    | some p =>
      let s1 := timeStep (rmtFlush s)
      passEdges (elcTimeStep { s1 with time := { s1.time with lt := p, preset := none } }) (now s)
    | none => passEdges { s with time := disciplined s.time } (now s)

/-- R47: whole seconds since the entry to CONFIGURE, in sixteenths of a picosecond of ticks of 1.25 ns or 1.5625 ns. -/
def advanceUptime (s : State) : State :=
  if !alive s then s
  else
    let a := s.time.upAcc + (if s.sys.core640 then 25000 else 20000)
    if 16000000000000 ≤ a then
      { s with time := { s.time with upAcc := a - 16000000000000, upSec := word (min 0xFFFFFF (s.time.upSec.toNat + 1)) } }
    else { s with time := { s.time with upAcc := a } }

/-- The next tick has begun: the tick count, line time and uptime move on. -/
def advance (s : State) : State :=
  let s1 := advanceUptime (advanceLine s)
  bootStep { s1 with time := { s1.time with tick := s.time.tick + 1 } }

/-! ### The start of a tick -/

/-- R293: a WAIT_UNTIL whose line time has come commits. -/
def waitDone (s : State) (r : Fin 16) : State :=
  match s.host.subs[r].waitFor with
  | some p =>
    if supOn s && due s p.1 then
      flushRing (complete (updSub s r (fun x => { x with waitFor := none })) 0x04 p.2 .ok 0) r
    else s
  | none => s

/-- R293: commands of a ring that nothing of the ring holds back any more. -/
def released (s : State) (r : Fin 16) : List Instr :=
  if s.host.subs[r].waitFor.isNone && !invokeOut s r then s.host.subs[r].parked else []

/-- R294: submission rings in the order the supervisor serves them. -/
def serviceOrder (s : State) : List (Fin 16) :=
  [3, 2, 1, 0].flatMap (fun p => (List.finRange 16).filter (fun r => decide (fld (sqCfg s r) 29 28 = p)))

/-- R293, R296: the commands that waited go back to the queue, where the supervisor serves. -/
def releaseParked (s : State) : State :=
  if !supOn s then s
  else
    let l := serviceOrder s
    let s1 := l.foldl (fun z r =>
      if (released s r).isEmpty then z else updSub z r (fun x => { x with parked := [] })) s
    { s1 with pending := s1.pending ++ l.flatMap (released s) }

/-- R11: what a boundary can no longer ask of recent writes is forgotten. -/
def pruneWrites (s : State) : State :=
  { s with par := { s.par with hlog := s.par.hlog.filter (fun h => decide (s.time.tick < h.tick + 4096)) } }

/-- R86, R88, R201: what the units do of themselves at the start of a tick: reactions, output edges whose tick has come, teeth
and copies that domains take in, carriers that start, requests that cannot be served, injected Pewter words, channels that
stand still. -/
def startUnits (s : State) : State :=
  chanStands (stepInjections (dropHeads (alignCarriers (rmtTakeAll (takeInAll (edgesOut (outsAppear (reactions s))))))))

/-- R281, R288, R293: what the rings do at the start of a tick: a disabled event ring is off, status slots that were behind are
written, a wait ends, bulk commands move on. -/
def startRing (s : State) (r : Fin 16) : State := flushRing (waitDone (bulkNext (flushSlot (endDisable s r) r) r) r) r

/-- The start of a tick. -/
def startTick (s : State) : State :=
  releaseParked (settle ((List.finRange 16).foldl startRing (startUnits (pruneWrites s))))

/-- One tick. Without its core clock the device does nothing. -/
def tick (s : State) : State :=
  if clockOn s then startTick (advance (endTick s)) else { s with time := { s.time with tick := s.time.tick + 1 } }

end Sys2Proof.Machine
end

