-- ==== Sys2Proof/Safety.lean ====
section
/-!
DEFINITION. What counts as a safe state of the device, in the terms the statements use: what follows every command has been
followed (12_modes_and_startup.md R326, R329; 11_faults_and_recovery.md R311; 15_pins_power_electrical.md R397), and memories
are in their canonical form.
-/
namespace Sys2Proof.Machine

/-- R326, R329: the mode DEGRADED stands instead of RUN exactly while one of its causes holds. -/
def ModeFollows (s : State) : Prop :=
  (s.sys.mode = .run → degradedCause s = false) ∧ (s.sys.mode = .degraded → degradedCause s = true)

/-- R397: an excitation output is on exactly while nothing holds it off. -/
def OutputsFollow (s : State) : Prop := ∀ n : Fin 8, s.excs[n].on = excWanted s n

/-- R311: every scope in fault state knows whether its active condition holds. -/
def ScopesFollow (s : State) : Prop := ∀ y ∈ s.flt.scopes, y.active = activeCond s y.scope

/-- What holds after every step, whatever the step was. -/
def Settled (s : State) : Prop := ModeFollows s ∧ OutputsFollow s ∧ ScopesFollow s

/-- The memories of the device and the parameter store are in their canonical form. -/
def MemoriesWf (s : State) : Prop :=
  Memory.wf regReset s.par.reg = true ∧ Memory.wf regReset s.par.work = true ∧ Memory.wf pramReset s.mem.pram = true ∧
    Memory.wf (zeroMem 24) s.mem.rram = true ∧ Memory.wf (cstoreReset s.boot) s.mem.cstore = true ∧
    Memory.wf (zeroMem 16) s.mem.peProg = true ∧ Memory.wf (zeroMem 8) s.mem.lut = true ∧
    Memory.wf (zeroMem 8) s.mem.ring = true ∧ Memory.wf (zeroMem 24) s.mem.sqList = true ∧
    Memory.wf hregReset s.host.hregs = true ∧ Memory.wf (zeroMem 8) s.sec.flash = true

/-- A requester reaches a parameter, and nothing refuses the write before the unit sees it (R9, R10, R319, R366). -/
def Accepts (s : State) (who : Requester) (l : PLoc) (v : Word) : Prop :=
  reaches s who l = true ∧ ∃ i, paramInfo l = some i ∧ writeRefused s l i v = none

/-- R9: a class L write of a requester has committed, with the word it takes from what the requester holds, and waits for the
end of its tick; a program address or list address that the requester holds has moved with it (R217, R225). -/
def Committed (s : State) (who : Requester) (l : PLoc) (v : Word) : State :=
  addLate (sendHeld s who l (lowFor s who l) v) (writeRank who l) who (.write (lowFor s who l) l v)

/-- R9: the state after the end of a tick lets a class L write act that a requester committed with the word `low`. -/
def Acts (z : State) (who : Requester) (low : Word) (l : PLoc) (v : Word) : State :=
  lateEffect z ⟨writeRank who l, who, z.time.tick, .write low l v⟩

/-- A host command finds the device in service, nothing of its ring holds it back, its entry is the ring's next and leaves
the state `z`, and the checks that precede its own pass (R290, R293, R296). -/
def Takes (s : State) (op : Byte) (e : Entry) (z : State) : Prop :=
  (alive s && decide (s.sys.mode ≠ .powerFail)) = true ∧ mustWait s op.toNat e = false ∧ takeHead s op e = some z ∧
    cmdCheck z op.toNat e = none

/-- The next state of a host command that ends in the state `z` with a status and a value: its completion (R290), entries of
the ring that no row applies, and what follows every command. -/
def Completes (z : State) (op : Byte) (e : Entry) (t : Status) (b : Word) : State :=
  settle (flushRing (complete z op.toNat e t b) e.ring)

/-- R282, R291: the device gets a command's buffer: it lies in ring memory, or its DMA read does not fail. -/
def BufArrives (e : Entry) (buf : Buf) : Prop := bufDev e = true ∨ ∃ bs, buf = .data bs

/-- R282: the bytes of a buffer that arrives, whose address words begin at argument `i`. -/
def bufBytes (z : State) (e : Entry) (i n : Nat) (buf : Buf) : List Byte := (readBuffer z e i n buf).1.getD []

/-- R348, R353: the state after a buffer was read: an uncorrectable word of ring memory among its bytes was found. -/
def bufAfter (z : State) (e : Entry) (i n : Nat) (buf : Buf) : State := (readBuffer z e i n buf).2

/-- Line time, pins, what the tick still has to do, and the units behind the parameters are the same in two states. -/
def SameUnits (s t : State) : Prop :=
  t.time = s.time ∧ t.agenda = s.agenda ∧ t.pins = s.pins ∧ t.cells = s.cells ∧ t.doms = s.doms ∧ t.trks = s.trks ∧ t.blks = s.blks ∧
    t.bcar = s.bcar ∧ t.gcar = s.gcar ∧ t.chans = s.chans ∧ t.pes = s.pes ∧ t.adcs = s.adcs ∧ t.seqs = s.seqs ∧
    t.comps = s.comps ∧ t.life = s.life ∧ t.mons = s.mons ∧ t.elc = s.elc ∧ t.boot = s.boot ∧ t.sec = s.sec

/-- One register changes to `v`, and nothing else of the parameters, the memories and the units. -/
def OnlyRegister (s t : State) (l : PLoc) (v : Word) : Prop :=
  SameUnits s t ∧ t.mem = s.mem ∧ t.par.work = s.par.work ∧ reg t l = v ∧ ∀ pa, pa ≠ paOf l → regAt t pa = regAt s pa

/-- R202: a step of an engine is due in tick `n`, it holds nothing, and its word `w` of one type is legal; `z` is the engine
after it took a pending instruction. -/
def PeTakes (s : State) (p : Fin 32) (op n : Nat) (w : PewterWord) (injected : Bool) (z : State) : Prop :=
  peDue s p false = some n ∧ s.pes[p].hold = 0 ∧ peWord s p n = some (w, injected) ∧ fld w 15 12 = op ∧ peLegal w = true ∧
    z = updPe s p (fun e => { e with inj := if injected && e.ir.isNone then none else e.inj })

/-- R202: the next state of a step whose word completes with the state `z` and the output bits `o`: its side field, which
prevails, and its hold, where the PC goes, and the next step. -/
def PeEnds (z : State) (p : Fin 32) (n : Nat) (w : PewterWord) (o : BitVec 16) (injected : Bool) (target : Option (BitVec 6)) :
    State :=
  settle (peNext (pePc (updPe (setOuts z p n (sideOut z p w o)) p (fun e =>
    { e with hold := (e.holds[Fin.ofNat 4 (fld w 1 0)]).toNat, ir := none, irInj := false })) p n injected target) p n)

end Sys2Proof.Machine
end

