-- ==== Sys2Proof/Certificates/Slice0/Obligations.lean ====
section
/-!
DEFINITION. The statements about this model, one Prop each, from the numbered rules of the spec. `settle` is what follows
every command; `SettleLeaves` says what it leaves alone.
-/
open Sys2Proof Sys2Proof.Machine

/-- A step takes the command at the front of the queue and runs it with the rest of the queue; with no command waiting a tick
passes (the model's choice, log entry 2). -/
def Obligations.StepRunsFront : Prop :=
  (∀ (s : State) (c : Instr) (rest : List Instr), s.pending = c :: rest → step s = exec c { s with pending := rest }) ∧
  (∀ s : State, s.pending = [] → step s = .next (tick s))

/-- No command stops the machine: exec and step answer a next state for every command and state. -/
def Obligations.EveryStepCompletes : Prop :=
  (∀ (c : Instr) (s : State), ∃ t, exec c s = .next t) ∧ (∀ s : State, ∃ t, step s = .next t)

/-- The invariant that every step establishes, from any state at all: the mode follows the causes of DEGRADED (R326, R329), the
excitation outputs follow what holds them off (R397), the scopes follow their active conditions (R311). -/
def Obligations.StepSettled : Prop :=
  ∀ s t : State, step s = .next t → Settled t

/-- The state after reset satisfies the invariant, and its memories are in canonical form. -/
def Obligations.ResetSettled : Prop :=
  Settled State.reset ∧ MemoriesWf State.reset ∧ State.reset.pending = []

/-- The frame of what follows every command, with no detection waiting for the collector. -/
def Obligations.SettleLeaves : Prop :=
  ∀ s : State, s.flt.reports = [] →
    (settle s).pending = s.pending ∧ (settle s).freshN = s.freshN ∧ (settle s).time = s.time ∧
    (settle s).agenda = s.agenda ∧ (settle s).par = { s.par with fresh := (settle s).par.fresh } ∧
    (settle s).mem = s.mem ∧ (settle s).pins = s.pins ∧ (settle s).sup = s.sup ∧ (settle s).cells = s.cells ∧
    (settle s).doms = s.doms ∧ (settle s).trks = s.trks ∧ (settle s).blks = s.blks ∧ (settle s).bcar = s.bcar ∧
    (settle s).gcar = s.gcar ∧ (settle s).chans = s.chans ∧ (settle s).pes = s.pes ∧ (settle s).adcs = s.adcs ∧
    (settle s).seqs = s.seqs ∧ (settle s).comps = s.comps ∧ (settle s).life = s.life ∧ (settle s).mons = s.mons ∧
    (settle s).elc = s.elc ∧ (settle s).boot = s.boot ∧ (settle s).sec = s.sec ∧
    (settle s).flt.slots = s.flt.slots ∧ (settle s).flt.reports = [] ∧ (settle s).host.subs = s.host.subs ∧
    (settle s).host.evts = s.host.evts ∧
    ((settle s).sys.mode = s.sys.mode ∨
      (s.sys.mode = .run ∧ (settle s).sys.mode = .degraded) ∨ (s.sys.mode = .degraded ∧ (settle s).sys.mode = .run))

/-- R292, R293: the session commands. -/
def Obligations.SessionCommandsComplete : Prop :=
  (∀ (e : Entry) (s z : State), Takes s 0x01 e z → fld e.a0 7 0 = 3 → (z.host.sessionOpen = false ∨ bit e.a0 23 = true) →
    exec (.openSession e) s = .next (Completes
      { z with host := { z.host with
          sessionOpen := true
          session := z.host.session + 1
          watchdogMs := BitVec.ofNat 16 (fld e.a1 15 0)
          watchdogFrom := z.time.tick
          hostLost := false } } 0x01 e .ok (z.host.session + 1))) ∧
  (∀ (e : Entry) (s z : State), Takes s 0x01 e z → fld e.a0 7 0 ≠ 3 →
    exec (.openSession e) s = .next (Completes z 0x01 e .versionMismatch 0)) ∧
  (∀ (e : Entry) (s z : State), Takes s 0x01 e z → fld e.a0 7 0 = 3 → z.host.sessionOpen = true → bit e.a0 23 = false →
    exec (.openSession e) s = .next (Completes z 0x01 e .sessionBusy 0)) ∧
  (∀ (e : Entry) (s z : State), Takes s 0x02 e z →
    exec (.closeSession e) s = .next (Completes
      { z with host := { z.host with sessionOpen := false, watchdogMs := 0 } } 0x02 e .ok 0)) ∧
  (∀ (e : Entry) (s z : State), Takes s 0x03 e z →
    exec (.echoWord e) s = .next (Completes z 0x03 e .ok e.a0)) ∧
  (∀ (e : Entry) (s z : State), Takes s 0x04 e z → due z (mkTime e.a1 e.a0) = true →
    exec (.waitUntil e) s = .next (Completes z 0x04 e .ok 0)) ∧
  (∀ (e : Entry) (s z : State), Takes s 0x04 e z → due z (mkTime e.a1 e.a0) = false →
    exec (.waitUntil e) s = .next (settle (flushRing
      (updSub z e.ring (fun x => { x with waitFor := some (mkTime e.a1 e.a0, e) })) e.ring)))

/-- R292, R293, R45: the parameter commands. -/
def Obligations.ParameterCommandsComplete : Prop :=
  (∀ (e : Entry) (w : Word) (y : State) (t : Status) (s z : State), Takes s 0x10 e z → readParam z .host e.a0.toNat = (w, y, t) →
    exec (.readParam e) s = .next (Completes y 0x10 e t (if t = .ok then w else 0))) ∧
  (∀ (e : Entry) (y : State) (t : Status) (s z : State), Takes s 0x11 e z → writeParam z .host e.a0.toNat e.a1 = (y, t) →
    exec (.writeParam e) s = .next (Completes y 0x11 e t 0)) ∧
  (∀ (e : Entry) (r : Fin 4) (w : Nat) (s z : State), Takes s 0x11 e z → w < 0x10000 → e.a0.toNat = 0x200000 + r.val * 0x10000 + w →
    exec (.writeParam e) s = .next (Completes (askBank z r w 8 (some e.a1)) 0x11 e .ok 0)) ∧
  (∀ (e : Entry) (v : Word) (x y : State) (s z : State), Takes s 0x12 e z → readParam z .host e.a0.toNat = (v, x, .ok) → writeParam x .host e.a0.toNat (((v &&& ~~~e.a1) ||| (e.a2 &&& e.a1)) &&& ~~~(actBits e.a0.toNat &&& ~~~e.a1)) = (y, .ok) →
    exec (.modifyParam e) s = .next (Completes y 0x12 e .ok v)) ∧
  (∀ (e : Entry) (x y : State) (v : Word) (t : Status) (s z : State), Takes s 0x12 e z → readParam z .host e.a0.toNat = (v, x, .ok) → writeParam x .host e.a0.toNat (((v &&& ~~~e.a1) ||| (e.a2 &&& e.a1)) &&& ~~~(actBits e.a0.toNat &&& ~~~e.a1)) = (y, t) → t ≠ .ok →
    exec (.modifyParam e) s = .next (Completes z 0x12 e t 0)) ∧
  (∀ (e : Entry) (s z : State), Takes s 0x13 e z → fld e.a0 1 0 = 0 →
    exec (.writeParams e) s = .next (Completes z 0x13 e .addrInvalid 0)) ∧
  (∀ (e : Entry) (y s z : State), Takes s 0x13 e z → fld e.a0 1 0 ≠ 0 → checkPairs z z 0 ([(e.a1.toNat, e.a2), (e.a3.toNat, e.a4), (e.a5.toNat, e.a6)].take (fld e.a0 1 0)) = .ok y →
    exec (.writeParams e) s = .next (Completes y 0x13 e .ok 0)) ∧
  (∀ (e : Entry) (k : Nat) (t : Status) (y : State) (s z : State), Takes s 0x13 e z → fld e.a0 1 0 ≠ 0 → checkPairs z z 0 ([(e.a1.toNat, e.a2), (e.a3.toNat, e.a4), (e.a5.toNat, e.a6)].take (fld e.a0 1 0)) = .error (k, t, y) →
    exec (.writeParams e) s = .next (Completes { y with par := { y.par with lows := z.par.lows } } 0x13 e t (word k))) ∧
  (∀ (e : Entry) (s z : State), Takes s 0x14 e z → e.a1.toNat = 0 ∨ 4096 < e.a1.toNat →
    exec (.readBlock e) s = .next (Completes z 0x14 e .addrInvalid 0)) ∧
  (∀ (e : Entry) (y : State) (m : BulkMove) (s z : State), Takes s 0x14 e z → 1 ≤ e.a1.toNat → e.a1.toNat ≤ 4096 →
    bulkPiece z ⟨false, e, 0, [], []⟩ = (y, .inl m) →
    exec (.readBlock e) s = .next (settle (flushRing (updSub y e.ring (fun q => { q with bulk := some m })) e.ring))) ∧
  (∀ (e : Entry) (y : State) (t : Status) (b : Word) (s z : State), Takes s 0x14 e z → 1 ≤ e.a1.toNat → e.a1.toNat ≤ 4096 →
    bulkPiece z ⟨false, e, 0, [], []⟩ = (y, .inr (t, b)) →
    exec (.readBlock e) s = .next (Completes y 0x14 e t b)) ∧
  (∀ (e : Entry) (buf : Buf) (s z : State), Takes s 0x15 e z → e.a1.toNat = 0 ∨ 4096 < e.a1.toNat →
    exec (.writeBlock e buf) s = .next (Completes z 0x15 e .addrInvalid 0)) ∧
  (∀ (e : Entry) (buf : Buf) (bs : List Byte) (x y : State) (m : BulkMove) (s z : State), Takes s 0x15 e z → 1 ≤ e.a1.toNat →
    e.a1.toNat ≤ 4096 → readBuffer z e 2 (4 * e.a1.toNat) buf = (some bs, x) → bulkPiece x ⟨true, e, 0, bs, []⟩ = (y, .inl m) →
    exec (.writeBlock e buf) s = .next (settle (flushRing (updSub y e.ring (fun q => { q with bulk := some m })) e.ring))) ∧
  (∀ (e : Entry) (buf : Buf) (bs : List Byte) (x y : State) (t : Status) (b : Word) (s z : State), Takes s 0x15 e z →
    1 ≤ e.a1.toNat → e.a1.toNat ≤ 4096 → readBuffer z e 2 (4 * e.a1.toNat) buf = (some bs, x) →
    bulkPiece x ⟨true, e, 0, bs, []⟩ = (y, .inr (t, b)) →
    exec (.writeBlock e buf) s = .next (Completes y 0x15 e t b)) ∧
  (∀ (e : Entry) (buf : Buf) (x : State) (s z : State), Takes s 0x15 e z → 1 ≤ e.a1.toNat → e.a1.toNat ≤ 4096 → readBuffer z e 2 (4 * e.a1.toNat) buf = (none, x) →
    exec (.writeBlock e buf) s = .next (Completes x 0x15 e .dmaError 0))

/-- R89, R94, R95, R107, R108: the event commands. -/
def Obligations.EventCommandsComplete : Prop :=
  (∀ (e : Entry) (s z : State), Takes s 0x20 e z → armTimeCheck z e = .ok →
    exec (.armTime e) s = .next (Completes ((timedWrites e).foldl (fun y w => addLate y 4 .host (timedLate e w)) z) 0x20 e .ok 0)) ∧
  (∀ (e : Entry) (w : CmpUnit × Time × BitVec 4) (k : Nat) (y : State), lateEffect y ⟨k, .host, y.time.tick, timedLate e w⟩ =
    applyCompare y (Fin.ofNat 512 (fld e.a0 8 0)) w.1 w.2.1 w.2.2 (some (timedEdge e w.1).1) (timedEdge e w.1).2 true) ∧
  (∀ (e : Entry) (s z : State), Takes s 0x20 e z → armTimeCheck z e ≠ .ok →
    exec (.armTime e) s = .next (Completes z 0x20 e (armTimeCheck z e) 0)) ∧
  (∀ (e : Entry) (d : Fin 16) (k : BitVec 8) (s z : State), Takes s 0x21 e z → d = Fin.ofNat 16 (regFld z (.cell (Fin.ofNat 512 (fld e.a2 23 15)) 0x00) 7 4) → armCheck z d none e.a0 e.a1 e.a2 e.a3 = .ok → freeSlot z.doms[d].arm = some k →
    exec (.armAngle e) s = .next (Completes (armPut z (mkHandle d k) ⟨e.a0, e.a1, e.a2, e.a3, 0, 0, []⟩) 0x21 e .ok ((mkHandle d k).setWidth 24))) ∧
  (∀ (e : Entry) (d : Fin 16) (s z : State), Takes s 0x21 e z → d = Fin.ofNat 16 (regFld z (.cell (Fin.ofNat 512 (fld e.a2 23 15)) 0x00) 7 4) → armCheck z d none e.a0 e.a1 e.a2 e.a3 ≠ .ok →
    exec (.armAngle e) s = .next (Completes z 0x21 e (armCheck z d none e.a0 e.a1 e.a2 e.a3) 0)) ∧
  (∀ (e : Entry) (s z : State), Takes s 0x22 e z → fld e.a0 23 22 = 0 → armGet z (BitVec.ofNat 12 (fld e.a0 11 0)) = none →
    exec (.cancelEvent e) s = .next (Completes z 0x22 e .notFound 0)) ∧
  (∀ (e : Entry) (a : ArmEntry) (y : State) (n : Nat) (s z : State), Takes s 0x22 e z → fld e.a0 23 22 = 0 → armGet z (BitVec.ofNat 12 (fld e.a0 11 0)) = some a → cancelEntry z (BitVec.ofNat 12 (fld e.a0 11 0)) (bit e.a0 21) = (y, n) →
    exec (.cancelEvent e) s = .next (Completes y 0x22 e .ok (word n))) ∧
  (∀ (e : Entry) (y : State) (n : Nat) (s z : State), Takes s 0x22 e z → fld e.a0 23 22 = 1 ∨ fld e.a0 23 22 = 2 → cancelEntries z (inCancelScope z e) (bit e.a0 21) = (y, n) →
    exec (.cancelEvent e) s = .next (Completes y 0x22 e .ok (word n))) ∧
  (∀ (e : Entry) (y : State) (n : Nat) (s z : State), Takes s 0x22 e z → fld e.a0 23 22 = 3 → cancelTimed z (Fin.ofNat 512 (fld e.a0 8 0)) = (y, n) →
    exec (.cancelEvent e) s = .next (Completes y 0x22 e .ok (word n))) ∧
  (∀ (e : Entry) (s z : State), Takes s 0x23 e z → armGet z (BitVec.ofNat 12 (fld e.a0 11 0)) = none →
    exec (.replaceEvent e) s = .next (Completes z 0x23 e .notFound 0)) ∧
  (∀ (e : Entry) (y : State) (t : Status) (s z : State), Takes s 0x23 e z → replaceEvent z (BitVec.ofNat 12 (fld e.a0 11 0)) e.a1 e.a2 e.a3 e.a4 = (y, t) →
    exec (.replaceEvent e) s = .next (Completes y 0x23 e t 0)) ∧
  (∀ (e : Entry) (s z : State), Takes s 0x24 e z → 4 < fld e.a0 14 12 →
    exec (.readEvent e) s = .next (Completes z 0x24 e .addrInvalid 0)) ∧
  (∀ (e : Entry) (s z : State), Takes s 0x24 e z → fld e.a0 14 12 ≤ 4 → armGet z (BitVec.ofNat 12 (fld e.a0 11 0)) = none →
    exec (.readEvent e) s = .next (Completes z 0x24 e .notFound 0)) ∧
  (∀ (e : Entry) (a : ArmEntry) (s z : State), Takes s 0x24 e z → fld e.a0 14 12 ≤ 4 → armGet z (BitVec.ofNat 12 (fld e.a0 11 0)) = some a →
    exec (.readEvent e) s = .next (Completes z 0x24 e .ok (entWord z (BitVec.ofNat 12 (fld e.a0 11 0)) (fld e.a0 14 12))))

/-- R51, R65, R67, R74: the domain commands. -/
def Obligations.DomainCommandsComplete : Prop :=
  (∀ (e : Entry) (d : Fin 16) (s z : State), Takes s 0x30 e z → d = Fin.ofNat 16 (fld e.a0 3 0) →
    domEn (lateView z) d = true ∨ trkTaken (lateView z) d = false →
    exec (.startDomain e) s = .next (Completes (addLate z 4 .host (.write 0 (.dom d 0x00) 1)) 0x30 e .ok 0)) ∧
  (∀ (e : Entry) (d : Fin 16) (s z : State), Takes s 0x30 e z → d = Fin.ofNat 16 (fld e.a0 3 0) →
    domEn (lateView z) d = false → trkTaken (lateView z) d = true →
    exec (.startDomain e) s = .next (Completes z 0x30 e .conflict 0)) ∧
  (∀ (e : Entry) (d : Fin 16) (s z : State), Takes s 0x31 e z → d = Fin.ofNat 16 (fld e.a0 3 0) → bit e.a0 8 = false →
    exec (.stopDomain e) s = .next (Completes (addLate z 4 .host (.write 0 (.dom d 0x00) 0)) 0x31 e .ok
      (word (domDisable (lateView z) d).2))) ∧
  (∀ (e : Entry) (d : Fin 16) (y : State) (n : Nat) (s z : State), Takes s 0x31 e z → d = Fin.ofNat 16 (fld e.a0 3 0) →
    bit e.a0 8 = true → y = (cancelEntries z (handlesOf z d) (bit e.a0 9)).1 → n = (cancelEntries z (handlesOf z d) (bit e.a0 9)).2 →
    exec (.stopDomain e) s = .next (Completes (addLate y 4 .host (.write 0 (.dom d 0x00) 0)) 0x31 e .ok
      (word (n + (domDisable (lateView y) d).2)))) ∧
  (∀ (e : Entry) (d : Fin 16) (s z : State), Takes s 0x32 e z → d = Fin.ofNat 16 (fld e.a0 3 0) →
    (flushIntake z d).doms[d].st = .lost →
    exec (.resyncDomain e) s = .next (Completes (addLate z 4 .host (.write 0 (.dom d 0x00) 3)) 0x32 e .ok 0)) ∧
  (∀ (e : Entry) (d : Fin 16) (s z : State), Takes s 0x32 e z → d = Fin.ofNat 16 (fld e.a0 3 0) →
    (flushIntake z d).doms[d].st ≠ .lost →
    exec (.resyncDomain e) s = .next (Completes z 0x32 e .targetMode 0)) ∧
  (∀ (d : Fin 16) (y : State), domEn y d = false → trkTaken y d = false →
    (∃ x, Acts y .host 0 (.dom d 0x00) 1 = x ∧ x.doms[d].st = (if domKind y d = 3 then .stopped else .syncing) ∧ x.doms[d].leafSt = x.doms[d].st)) ∧
  (∀ (d : Fin 16) (y : State), domEn y d = true →
    (∃ x, Acts y .host 0 (.dom d 0x00) 0 = x ∧ x.doms[d].st = .off ∧ x.doms[d].leafSt = .off ∧ x.doms[d].arm = [])) ∧
  (∀ (e : Entry) (d : Fin 16) (s z : State), Takes s 0x33 e z → d = Fin.ofNat 16 (fld e.a0 3 0) → domKind z d = 3 →
    exec (.setVirtualSpeed e) s = .next (Completes (writeChecked (writeChecked (writeChecked z .host (paOf (.dom d 0x16)) e.a2)
      .host (paOf (.dom d 0x14)) e.a1) .host (paOf (.dom d 0x15)) 1) 0x33 e .ok 0)) ∧
  (∀ (e : Entry) (s z : State), Takes s 0x33 e z → domKind z (Fin.ofNat 16 (fld e.a0 3 0)) ≠ 3 →
    exec (.setVirtualSpeed e) s = .next (Completes z 0x33 e .targetMode 0))

/-- R113, R143, R293, R362: the commands on microcode windows and routines. -/
def Obligations.WindowCommandsComplete : Prop :=
  (∀ (e : Entry) (buf : Buf) (x : State) (s z : State), Takes s 0x40 e z → x = (windowCheck e buf z).2 →
    exec (.loadWindow e buf) s = .next (match (windowCheck e buf z).1 with | .ok bs => Completes ((windowBlocks e).foldl (writeWindow bs) x) 0x40 e .ok 0 | .error t => Completes x 0x40 e t 0)) ∧
  (∀ (e : Entry) (buf : Buf) (x : State) (s z : State), Takes s 0x41 e z → x = (windowCheck e buf z).2 →
    exec (.verifyWindow e buf) s = .next (match (windowCheck e buf z).1 with | .ok bs => (if (windowBlocks e).all (windowHolds x bs) then Completes x 0x41 e .ok 0 else Completes x 0x41 e .verifyFail (word (((windowBlocks e).find? (fun b => !windowHolds x bs b)).getD 0).val)) | .error t => Completes x 0x41 e t 0)) ∧
  (∀ (e : Entry) (b : Fin 32) (s z : State), Takes s 0x42 e z → b = (Fin.ofNat 32 (fld e.a0 4 0)) → blockHeld z b = true →
    exec (.invokeRoutine e) s = .next (Completes z 0x42 e .scopeFault 0)) ∧
  (∀ (e : Entry) (b : Fin 32) (s z : State), Takes s 0x42 e z → b = (Fin.ofNat 32 (fld e.a0 4 0)) → blockHeld z b = false →
    exec (.invokeRoutine e) s = .next (settle (flushRing (updBlk z b (fun k =>
      { k with queues := k.queues.set 17 (k.queues[17] ++ [⟨e.a1, BitVec.ofNat 6 (fld e.a0 13 8), 0, none, some e, z.time.tick, !regBit z (.block b 0x00) 0⟩]) })) e.ring)))

/-- R209, R211, R214: the commands on Pewter engines. -/
def Obligations.EngineCommandsComplete : Prop :=
  (∀ (e : Entry) (buf : Buf) (s z : State), Takes s 0x50 e z → 64 < fld e.a1 5 0 + fld e.a2 6 0 →
    exec (.loadPewter e buf) s = .next (Completes z 0x50 e .addrInvalid 0)) ∧
  (∀ (e : Entry) (buf : Buf) (bs : List Byte) (x : State) (s z : State), Takes s 0x50 e z → fld e.a1 5 0 + fld e.a2 6 0 ≤ 64 → readBuffer z e 3 (2 * fld e.a2 6 0) buf = (some bs, x) →
    exec (.loadPewter e buf) s = .next (Completes (storePewter x (Fin.ofNat 32 (4 * fld e.a0 2 0)) (fld e.a1 5 0) bs) 0x50 e .ok 0)) ∧
  (∀ (e : Entry) (buf : Buf) (x : State) (s z : State), Takes s 0x50 e z → fld e.a1 5 0 + fld e.a2 6 0 ≤ 64 → readBuffer z e 3 (2 * fld e.a2 6 0) buf = (none, x) →
    exec (.loadPewter e buf) s = .next (Completes x 0x50 e .dmaError 0)) ∧
  (∀ (e : Entry) (p : Fin 32) (s z : State), Takes s 0x51 e z → p = (Fin.ofNat 32 (fld e.a0 4 0)) → z.pes[p].inj.isSome = true →
    exec (.injectPewter e) s = .next (Completes z 0x51 e .targetBusy 0)) ∧
  (∀ (e : Entry) (p : Fin 32) (s z : State), Takes s 0x51 e z → p = (Fin.ofNat 32 (fld e.a0 4 0)) → z.pes[p].inj = none →
    exec (.injectPewter e) s = .next (Completes (updPe z p (fun k => { k with inj := some (z.time.tick, e.a1.setWidth 16) })) 0x51 e .ok 0)) ∧
  (∀ (e : Entry) (buf : Buf) (s z : State), Takes s 0x52 e z → peEn z (Fin.ofNat 32 (fld e.a0 4 0)) = true →
    exec (.loadLut e buf) s = .next (Completes z 0x52 e .staticLocked 0)) ∧
  (∀ (e : Entry) (buf : Buf) (bs : List Byte) (x : State) (s z : State), Takes s 0x52 e z → peEn z (Fin.ofNat 32 (fld e.a0 4 0)) = false → readBuffer z e 1 256 buf = (some bs, x) →
    exec (.loadLut e buf) s = .next (Completes (storeLut x (Fin.ofNat 32 (fld e.a0 4 0)) 0 bs) 0x52 e .ok 0)) ∧
  (∀ (e : Entry) (buf : Buf) (x : State) (s z : State), Takes s 0x52 e z → peEn z (Fin.ofNat 32 (fld e.a0 4 0)) = false → readBuffer z e 1 256 buf = (none, x) →
    exec (.loadLut e buf) s = .next (Completes x 0x52 e .dmaError 0))

/-- R303, R313, R316: the fault commands. -/
def Obligations.FaultCommandsComplete : Prop :=
  (∀ (e : Entry) (s z : State), Takes s 0x60 e z → faultFound z e = none →
    exec (.readFault e) s = .next (Completes z 0x60 e .notFound 0)) ∧
  (∀ (e : Entry) (bs : List Byte) (s z : State), Takes s 0x60 e z → faultFound z e = some bs →
    exec (.readFault e) s = .next (Completes (writeBuffer z e 1 bs) 0x60 e .ok 0)) ∧
  (∀ (e : Entry) (s z : State), Takes s 0x61 e z → bit e.a0 23 = false → z.flt.slots[(Fin.ofNat 64 (fld e.a0 5 0) : Fin 64)] = none →
    exec (.acknowledgeFault e) s = .next (Completes z 0x61 e .notFound 0)) ∧
  (∀ (e : Entry) (k : Fin 64) (f : OpenFault) (s z : State), Takes s 0x61 e z → k = Fin.ofNat 64 (fld e.a0 5 0) → bit e.a0 23 = false → z.flt.slots[k] = some f → f.acked = none → f.closed = none →
    exec (.acknowledgeFault e) s = .next (Completes (updFlt (histUpdate z f.body (fun h => { h with acked := some (now z) }))
      (fun c => { c with slots := c.slots.set k (some { f with acked := some (now z) }) })) 0x61 e .ok 1)) ∧
  (∀ (e : Entry) (k : Fin 64) (f : OpenFault) (s z : State), Takes s 0x61 e z → k = Fin.ofNat 64 (fld e.a0 5 0) → bit e.a0 23 = false → z.flt.slots[k] = some f → f.acked.isSome = true →
    exec (.acknowledgeFault e) s = .next (Completes z 0x61 e .ok 0)) ∧
  (∀ (e : Entry) (s z : State), Takes s 0x62 e z → scopeArg e = none →
    exec (.releaseScope e) s = .next (Completes z 0x62 e .addrInvalid 0)) ∧
  (∀ (e : Entry) (x : Scope) (s z : State), Takes s 0x62 e z → scopeArg e = some x → isLatched z x = false →
    exec (.releaseScope e) s = .next (Completes z 0x62 e .notLatched 0)) ∧
  (∀ (e : Entry) (x : Scope) (s z : State), Takes s 0x62 e z → scopeArg e = some x → isLatched z x = true → (openWithin z x || faultNow z x || activeCond z x) = true →
    exec (.releaseScope e) s = .next (Completes z 0x62 e .faultActive 0)) ∧
  (∀ (e : Entry) (x : Scope) (s z : State), Takes s 0x62 e z → scopeArg e = some x → isLatched z x = true → (openWithin z x || faultNow z x || activeCond z x) = false →
    exec (.releaseScope e) s = .next (Completes (exitScope z x true) 0x62 e .ok 0)) ∧
  (∀ (e : Entry) (s z : State), Takes s 0x63 e z → pinHeld z = true →
    exec (.releaseFaultPin e) s = .next (Completes z 0x63 e .faultActive 0)) ∧
  (∀ (e : Entry) (s z : State), Takes s 0x63 e z → pinHeld z = false →
    exec (.releaseFaultPin e) s = .next (Completes (doPinWidthExpiry (updFlt z (fun c => { c with pinReleased := c.pin }))) 0x63 e .ok 0))

/-- R370, R373, R376, R380: the lifetime commands. -/
def Obligations.LifetimeCommandsComplete : Prop :=
  (∀ (e : Entry) (s z : State), Takes s 0x70 e z → z.sys.mode = .configure ∨ z.sys.mode = .service →
    exec (.setCalendar e) s = .next (Completes (setCalendar z (mkTime e.a1 e.a0)) 0x70 e .ok 0)) ∧
  (∀ (e : Entry) (s z : State), Takes s 0x70 e z → ¬(z.sys.mode = .configure ∨ z.sys.mode = .service) →
    exec (.setCalendar e) s = .next (Completes z 0x70 e .modeRefused 0)) ∧
  (∀ (e : Entry) (s z : State), Takes s 0x71 e z → 6 ≤ fld e.a1 11 9 →
    exec (.bindWearCounter e) s = .next (Completes z 0x71 e .addrInvalid 0)) ∧
  (∀ (e : Entry) (k : Fin 256) (s z : State), Takes s 0x71 e z → k = Fin.ofNat 256 (fld e.a0 7 0) → fld e.a1 11 9 < 6 → fld e.a1 11 9 ≠ 0 → fld (lateView z).life.binds[k] 11 9 ≠ 0 →
    exec (.bindWearCounter e) s = .next (Completes z 0x71 e .conflict 0)) ∧
  (∀ (e : Entry) (k : Fin 256) (s z : State), Takes s 0x71 e z → k = Fin.ofNat 256 (fld e.a0 7 0) → fld e.a1 11 9 < 6 → fld e.a1 11 9 = 0 ∨ fld (lateView z).life.binds[k] 11 9 = 0 →
    exec (.bindWearCounter e) s = .next (Completes (requestCommit (addLate z 4 .host (.bind k (e.a1.setWidth 12)))) 0x71 e .ok 0)) ∧
  (∀ (e : Entry) (s z : State), Takes s 0x72 e z →
    exec (.commitLifetime e) s = .next (Completes (requestCommit z) 0x72 e .ok 0)) ∧
  (∀ (e : Entry) (s z : State), Takes s 0x73 e z → z.sys.mode ≠ .service →
    exec (.exportLifetime e) s = .next (Completes z 0x73 e .modeRefused 0)) ∧
  (∀ (e : Entry) (s z : State), Takes s 0x73 e z → z.sys.mode = .service → e.a3.toNat < 51968 →
    exec (.exportLifetime e) s = .next (Completes z 0x73 e .queueFull 0)) ∧
  (∀ (e : Entry) (s z : State), Takes s 0x73 e z → z.sys.mode = .service → 51968 ≤ e.a3.toNat →
    exec (.exportLifetime e) s = .next (Completes (addJob (requestCommit z) z.time.tick (.exportTo e)) 0x73 e .ok 51968)) ∧
  (∀ (e : Entry) (s : State), s.agenda.jobs = [(s.time.tick, .exportTo e)] → endSnapshot s =
    { writeBuffer (refreshSnapshot s) e 0 (exportImage (refreshSnapshot s) (snapshotOf (refreshSnapshot s).life (commitNumber (refreshSnapshot s)))) with
      agenda := { s.agenda with jobs := [] } }) ∧
  (∀ (k : Fin 256) (v : BitVec 12) (r n : Nat) (s : State), lateEffect s ⟨r, .host, n, .bind k v⟩ = { s with life := { s.life with binds := s.life.binds.set k v } })

/-- R326, R327: the mode requests. -/
def Obligations.ModeCommandsComplete : Prop :=
  (∀ (e : Entry) (y : State) (t : Status) (b : Word) (s z : State), Takes s 0x80 e z → fld e.a0 3 0 = 3 → requestRun z = (y, t, b) →
    exec (.requestModeRun e) s = .next (Completes y 0x80 e t b)) ∧
  (∀ (e : Entry) (s z : State), Takes s 0x80 e z → fld e.a0 3 0 = 3 → z.sys.mode = .configure → runCheck z = none →
    exec (.requestModeRun e) s = .next (Completes (awaitPeriods (startRun (setMode (leaveConfigure z) (runMode (leaveConfigure z)) 0x02))) 0x80 e .ok 0)) ∧
  (∀ (e : Entry) (s z : State), Takes s 0x80 e z → fld e.a0 3 0 = 2 → z.sys.mode = .configure →
    exec (.requestModeConfigure e) s = .next (Completes z 0x80 e .ok 0)) ∧
  (∀ (e : Entry) (s z : State), Takes s 0x80 e z → fld e.a0 3 0 = 2 → z.sys.mode = .run ∨ z.sys.mode = .degraded ∨ z.sys.mode = .safeHold →
    exec (.requestModeConfigure e) s = .next (Completes (enterConfigure z) 0x80 e .ok 0)) ∧
  (∀ (e : Entry) (s z : State), Takes s 0x80 e z → fld e.a0 3 0 = 7 → z.sys.mode = .service →
    exec (.requestModeService e) s = .next (Completes z 0x80 e .ok 0)) ∧
  (∀ (e : Entry) (s z : State), Takes s 0x80 e z → fld e.a0 3 0 = 7 → z.sys.mode = .configure →
    exec (.requestModeService e) s = .next (Completes (setMode (leaveConfigure z) .service 0x02) 0x80 e .ok 0)) ∧
  (∀ (e : Entry) (s z : State), Takes s 0x80 e z → fld e.a0 3 0 = 7 → z.sys.mode = .run ∨ z.sys.mode = .degraded ∨ z.sys.mode = .safeHold →
    exec (.requestModeService e) s = .next (Completes z 0x80 e .modeRefused 0))

/-- R344, R357, R359: the life-cycle and firmware commands. -/
def Obligations.FirmwareCommandsComplete : Prop :=
  (∀ (e : Entry) (buf : Buf) (s z : State), Takes s 0x81 e z → z.sys.mode ≠ .service →
    exec (.advanceLifecycle e buf) s = .next (Completes z 0x81 e .modeRefused 0)) ∧
  (∀ (e : Entry) (buf : Buf) (bs : List Byte) (x : State) (s z : State), Takes s 0x81 e z → z.sys.mode = .service → e.a4.toNat = 260 → readBuffer z e 1 260 buf = (some bs, x) →
    exec (.advanceLifecycle e buf) s = .next (match certCheck x e bs with | .ok lc => Completes (startJob x (.lifecycle lc (if lc = .development then some (BitVec.ofNat 384 (certField bs 20 48)) else none))) 0x81 e .ok 0 | .error t => Completes x 0x81 e t 0)) ∧
  (∀ (e : Entry) (buf : Buf) (s z : State), Takes s 0x90 e z → z.sys.mode ≠ .service →
    exec (.stageFirmware e buf) s = .next (Completes z 0x90 e .modeRefused 0)) ∧
  (∀ (e : Entry) (buf : Buf) (bs : List Byte) (x : State) (s z : State), Takes s 0x90 e z → z.sys.mode = .service → 1 ≤ e.a1.toNat → e.a1.toNat ≤ 65536 → readBuffer z e 2 e.a1.toNat buf = (some bs, x) →
    exec (.stageFirmware e buf) s = .next (Completes (updSec (storeFlash x e.a0.toNat bs) (fun y => { y with stage := .written })) 0x90 e .ok 0)) ∧
  (∀ (e : Entry) (s z : State), Takes s 0x91 e z → z.sys.mode = .service → z.sec.stage ≠ .none →
    exec (.verifyFirmware e) s = .next (if imageResult z (imageInfo (stagedBytes z)) = none then Completes (updSec z (fun y => { y with stage := .verified })) 0x91 e .ok ((imageInfo (stagedBytes z)).version.setWidth 24) else Completes z 0x91 e .signatureFail 0)) ∧
  (∀ (e : Entry) (s z : State), Takes s 0x91 e z → z.sys.mode = .service → z.sec.stage = .none →
    exec (.verifyFirmware e) s = .next (Completes z 0x91 e .signatureFail 0)) ∧
  (∀ (e : Entry) (s z : State), Takes s 0x91 e z → z.sys.mode ≠ .service →
    exec (.verifyFirmware e) s = .next (Completes z 0x91 e .modeRefused 0)) ∧
  (∀ (e : Entry) (s z : State), Takes s 0x92 e z → z.sys.mode ≠ .service →
    exec (.activateFirmware e) s = .next (Completes z 0x92 e .modeRefused 0)) ∧
  (∀ (e : Entry) (s z : State), Takes s 0x92 e z → z.sys.mode = .service → z.sec.stage ≠ .verified →
    exec (.activateFirmware e) s = .next (Completes z 0x92 e .checkFail 0x06)) ∧
  (∀ (e : Entry) (s z : State), Takes s 0x92 e z → z.sys.mode = .service → z.sec.stage = .verified →
    exec (.activateFirmware e) s = .next (Completes (startJob z .firmware) 0x92 e .ok 0)) ∧
  (∀ (e : Entry) (s z : State), Takes s 0x93 e z → z.sys.mode ≠ .service →
    exec (.abortStaging e) s = .next (Completes z 0x93 e .modeRefused 0)) ∧
  (∀ (e : Entry) (s z : State), Takes s 0x93 e z → z.sys.mode = .service →
    exec (.abortStaging e) s = .next (Completes { z with sec := { z.sec with stage := .none, flash := [] } } 0x93 e .ok 0))

/-- R280, R281, R283, R284, R288: rows on rings. -/
def Obligations.RingRowsComplete : Prop :=
  (∀ (op : Byte) (e : Entry) (s : State), supOn s = true →
    canFetch s e.ring = true →
    sqInRing s e.ring = false →
    exec (.submissionFetch (.entry op e)) s = .next (settle (flushRing (updSub (fetchOne s e.ring) e.ring (fun x => { x with fetched := x.fetched ++ [(op, e)] })) e.ring))) ∧
  (∀ (r : Fin 16) (c : BitVec 4) (s : State), supOn s = true →
    canFetch s r = true →
    sqInRing s r = false →
    exec (.submissionFetch (.fail r c)) s = .next (settle (flushRing (updSub (ringError (fetchOne (dmaFailed s r false c (slotAddr s r s.host.subs[r].head)) r) r) r
      (fun x => { x with fetchFail := true })) r))) ∧
  (∀ (r : Fin 16) (tail : BitVec 16) (s : State), hostUp s = true →
    s.sys.mode ≠ .boot →
    bit (sqCfg s r) 31 = true →
    (tail - s.host.subs[r].done).toNat ≤ depthOf (sqCfg s r) →
    (s.host.subs[r].tail - s.host.subs[r].done).toNat ≤ (tail - s.host.subs[r].done).toNat →
    exec (.doorbell r tail) s = .next (settle { s with host := { s.host with
      watchdogFrom := s.time.tick
      subs := s.host.subs.set r { s.host.subs[r] with tail := tail }
      bells := s.host.bells.set r (s.host.bells[r] ++ [(tail, s.time.tick)]) } })) ∧
  (∀ (r : Fin 16) (head : BitVec 32) (s : State), hostUp s = true →
    s.sys.mode ≠ .boot →
    eqOn s r = true →
    (head - s.host.evts[r].head).toNat ≤ (s.host.evts[r].tail - s.host.evts[r].head).toNat →
    s.host.evts[r].sumBit = none →
    exec (.eqDoorbell r head) s = .next (settle (drainAll (updEvt s r (fun v => { v with head := head })) r))) ∧
  (∀ (r : Fin 16) (v : Word32) (s : State), hostUp s = true →
    s.sys.mode ≠ .boot →
    bit v 31 = true →
    bit (sqCfg s r) 31 = false →
    placeBad s (v &&& 0xFFF00000) (sqBase s r) 32 = false →
    exec (.sqCfgEn r v) s = .next (settle (writeSqSlot (updHost (updSub (setHreg s (sqReg r 0x08) (v &&& 0xFFF00000)) r (fun _ => subReset)) (fun h =>
      { h with sqErr := h.sqErr &&& ~~~(BitVec.ofNat 16 (2 ^ r.val)), bells := h.bells.set r [] })) r))) ∧
  (∀ (r : Fin 16) (v : Word32) (s : State), hostUp s = true →
    s.sys.mode ≠ .boot →
    bit v 31 = true →
    bit (eqCfg s r) 31 = false →
    placeBad s v (eqBase s r) 16 = false →
    exec (.eqCfgEn r v) s = .next (settle (writeEqSlot (updEvt (setHreg s (eqReg r 0x08) v) r (fun e => { evtReset with disc := e.disc })) r)))

/-- R276, R277, R298, R336: rows on host registers. -/
def Obligations.HostRegisterRowsComplete : Prop :=
  (∀ (v : Word32) (s : State), hostUp s = true →
    s.sys.mode ≠ .boot →
    exec (.hostRegisterWrite 0x02C 4 v) s = .next (settle (setHreg s 0x02C v))) ∧
  (∀ (v : Word32) (s : State), hostUp s = true →
    s.sys.mode ≠ .boot →
    exec (.hostRegisterWrite 0x040 4 v) s = .next (settle { s with host := { s.host with irqStat := hostClear s 0x040 s.host.irqStat v } })) ∧
  (∀ (a : BitVec 16) (n : Nat) (v : Word32) (s : State), hostUp s = true →
    s.sys.mode ≠ .boot →
    n ≠ 4 →
    exec (.hostRegisterWrite a n v) s = .next (settle (refuseAccess s 0 a.toNat 1 false))) ∧
  (∀ (v : Word32) (s : State), hostUp s = true →
    s.sys.mode ≠ .boot →
    exec (.vlogClear v) s = .next (settle { s with host := { s.host with vlog := [], vlogLost := 0 } })) ∧
  (∀ (s : State), hostUp s = true →
    s.sys.mode ≠ .boot →
    exec (.hLtLoRead) s = .next (settle (busOut { s with host := { s.host with ltHeld := some ((now s >>> 32).setWidth 16) } }
      (.readData (leBytes ((now s).setWidth 32).toNat 4))))) ∧
  (∀ (s : State), hostUp s = true →
    s.sys.mode ≠ .boot →
    hostKept s 0x07C = [] →
    exec (.hCmdLatMaxRead) s = .next (settle (busOut { s with host := { s.host with cmdLatMax := 0 } } (.readData (leBytes (s.host.cmdLatMax.setWidth 32).toNat 4))))) ∧
  (∀ (x : Fresh) (l : List Fresh) (s : State), hostUp s = true →
    s.sys.mode ≠ .boot →
    hostKept s 0x07C = x :: l →
    exec (.hCmdLatMaxRead) s = .next (settle (busOut { s with host := { s.host with cmdLatMax := x.add } } (.readData (leBytes (x.old.setWidth 32).toNat 4))))) ∧
  (∀ (v : Word32) (s : State), hostUp s = true →
    s.sys.mode = .boot →
    exec (.imageReady v) s = .next (settle (imageReadySet { s with host := { s.host with hostCtrl := s.host.hostCtrl ||| 0x100 } }))) ∧
  (∀ (v : Word32) (s : State), hostUp s = true →
    s.sys.mode ≠ .boot →
    exec (.imageReady v) s = .next (settle { s with host := { s.host with hostCtrl := (v ||| 0x100) &&& 0x11F } }))

/-- R273 to R276, R352: rows of the SPI port and of ring memory. -/
def Obligations.BusRowsComplete : Prop :=
  (∀ (a : Word) (bs : List Byte) (s : State), hostUp s = true →
    overSpi s = true →
    a.toNat < 0x1000 →
    a.toNat % 4 = 0 →
    exec (.spiWrite a bs) s = .next (settle (spiRegWrites s a.toNat bs))) ∧
  (∀ (a : Word) (bs : List Byte) (s : State), hostUp s = true →
    overSpi s = true →
    0x200000 ≤ a.toNat →
    a.toNat + bs.length ≤ 0x400000 →
    bs ≠ [] →
    exec (.spiWrite a bs) s = .next (settle (writeRingMem s (a.toNat - 0x200000) bs))) ∧
  (∀ (a : Word) (n : Nat) (s : State), hostUp s = true →
    overSpi s = true →
    0x200000 ≤ a.toNat →
    a.toNat + n ≤ 0x400000 →
    1 ≤ n →
    exec (.spiRead a n) s = .next (settle (busOut (readRingMem (busOut s (.status (spiStatus s))) (a.toNat - 0x200000) n).2
      (.readData (((readRingMem (busOut s (.status (spiStatus s))) (a.toNat - 0x200000) n).1 ++ List.replicate n 0).take n))))) ∧
  (∀ (s : State), hostUp s = true →
    overSpi s = true →
    exec (.readStatus) s = .next (settle { (busOut s (.status (spiStatus s))) with host := { (busOut s (.status (spiStatus s))).host with spiSticky := 0 } })) ∧
  (∀ (off : BitVec 21) (bs : List Byte) (s : State), hostUp s = true →
    overSpi s = false →
    0x10000 ≤ off.toNat →
    bs ≠ [] →
    exec (.hostRingMemWrite off bs) s = .next (settle (hostRingStore s off.toNat (bs.take (0x200000 - off.toNat))))) ∧
  (∀ (off : BitVec 21) (bs : List Byte) (s : State), hostUp s = true →
    overSpi s = false →
    off.toNat < 0x10000 →
    bs ≠ [] →
    exec (.hostRingMemWrite off bs) s = .next (settle (refuseAccess s 1 off.toNat 1 true)))

/-- R272, R277, R287, R289, R293, R297, R319: host events. -/
def Obligations.HostEventRowsComplete : Prop :=
  (∀ (z : State) (s : State), hostUp s = true →
    overSpi s = false →
    z = closeSession ((List.finRange 16).foldl (fun y r => writeEqCfg (writeSqCfg y r (sqCfg y r &&& 0x7FFFFFFF)) r (eqCfg y r &&& 0x7FFFFFFF)) s) →
    exec (.hotReset) s = .next (settle (setHreg { z with host := { z.host with hostCtrl := 0, busMaster := false, msixFnMask := false, msixMask := 0xFFFFFFFF, msixPend := 0, hregs := z.host.hregs.filter (fun p => decide (p.1 < 0x2000)) } } 0x044 0))) ∧
  (∀ (p : Placed) (l : List Placed) (s : State), postingOn s = true →
    s.host.arb = p :: l →
    exec (.recordPost) s = .next (settle (arrive { s with host := { s.host with arb := l } } p.ring p.body))) ∧
  (∀ (r : Fin 16) (t : Nat) (s : State), s.host.evts[r].oldest = some t →
    postingOn s = true →
    eqOn s r = true →
    bit (eqCfg s r) 24 = true →
    fld (eqCfg s r) 11 0 ≠ 0 →
    s.host.evts[r].tail ≠ s.host.evts[r].irqTail →
    t + 800 * fld (eqCfg s r) 11 0 ≤ s.time.tick →
    exec (.irqHoldoffExpiry r) s = .next (settle (fireIrq s r))) ∧
  (∀ (s : State), supOn s = true →
    exec (.heartbeat) s = .next (settle { s with host := { s.host with heartbeat := s.host.heartbeat + 1 } })) ∧
  (∀ (s : State), alive s = true →
    s.sys.mode ≠ .powerFail →
    s.sys.mode ≠ .halt →
    s.host.sessionOpen = true →
    s.host.watchdogMs.toNat ≠ 0 →
    s.host.watchdogFrom + s.host.watchdogMs.toNat * msTicks s ≤ s.time.tick →
    exec (.hostTimeout) s = .next (settle (report { s with host := { s.host with sessionOpen := false, watchdogMs := 0, hostLost := true } } 0x2E .chip
      s.host.watchdogMs.toNat false))) ∧
  (∀ (ram : Bool) (s : State), alive s = true →
    s.sys.mode ≠ .powerFail →
    s.sup.halted = false →
    s.sup.out = none →
    exec (.supervisorDivergence ram) s = .next (settle (supervisorOut s (if ram then .ramError else .divergence)))) ∧
  (∀ (t : Nat) (c : SupCause) (s : State), s.sup.out = some (t, c) →
    alive s = true →
    s.sys.mode ≠ .powerFail →
    bit s.host.hostCtrl 4 = false →
    exec (.supervisorRestartDone) s = .next (settle (report (dutyAdd (raiseIrq (updHost
      ((List.finRange 16).foldl refetch { s with sup := { s.sup with out := none } })
      (fun h => { h with supRestarts := BitVec.ofNat 16 (satAdd 16 s.host.supRestarts.toNat 1) })) 5) 5 1) 0x08 .chip
      (if c = .divergence then 0 else 1) false))) ∧
  (∀ (s : State), alive s = true →
    s.sys.mode ≠ .powerFail →
    s.sup.out.isSome = true →
    s.sup.restart + 32000 < s.time.tick →
    exec (.supLockstep) s = .next (settle (report { s with sup := { s.sup with restart := s.time.tick } } 0x29 .chip 1 false))) ∧
  (∀ (s : State), hostUp s = true →
    overSpi s = false →
    exec (.busMasterEnable) s = .next (settle ((List.finRange 16).foldl drainAll (sendPending { s with host := { s.host with busMaster := true } })))) ∧
  (∀ (v : Fin 32) (s : State), hostUp s = true →
    overSpi s = false →
    exec (.msixUnmask (some v)) s = .next (settle (sendPending { s with host := { s.host with msixMask := s.host.msixMask &&& ~~~(BitVec.ofNat 32 (2 ^ v.val)) } }))) ∧
  (∀ (s : State), hostUp s = true →
    overSpi s = false →
    exec (.msixUnmask none) s = .next (settle (sendPending { s with host := { s.host with msixFnMask := false } })))

/-- R24 to R27, R29, R32, R47: rows on the timebase and the clocks. -/
def Obligations.ClockRowsComplete : Prop :=
  (∀ (req : Requester) (v : Word) (s : State), Accepts s req (.chip 0x27) v →
    exec (.ltPresetHi req v) s = .next (settle ({ setReg (setReg s (.chip 0x26) (lowOf s req (.chip 0x26))) (.chip 0x27) v with
      time := { s.time with preset := some (mkTime v (lowOf s req (.chip 0x26))) } }))) ∧
  (∀ (req : Requester) (s : State), reaches s req (.chip 0x24) = true →
    capOf s req (.chip 0x24) = none →
    exec (.ltLoRead req) s = .next (settle (setCap s req (.chip 0x25) (hiWord (now s))))) ∧
  (∀ (req : Requester) (v : Word) (s : State), Accepts s req (.chip 0x50) (v ||| 1) →
    exec (.domSnapCapture req v) s = .next (settle (inTick s 1 (takeSnap req)))) ∧
  (∀ (req : Requester) (v : Word) (s : State), Accepts s req (.chip 0x21) (v ||| 1) →
    exec (.pllSwitch req v) s = .next (settle (Committed s req (.chip 0x21) (v ||| 1)))) ∧
  (∀ (req : Requester) (low v : Word) (z : State), z.time.clk.standbyLock = false → bit v 1 = true →
    Acts z req low (.chip 0x21) (v ||| 1) = setReg (inTick z 1 (fun y => orReg y (.chip 0x22) 0x10)) (.chip 0x21) ((v ||| 1) &&& 2)) ∧
  (∀ (req : Requester) (low v : Word) (z : State), z.time.clk.standbyLock = true → bit v 1 = true →
    Acts z req low (.chip 0x21) (v ||| 1) = setReg (inTick z 1 switchover) (.chip 0x21) ((v ||| 1) &&& 2)) ∧
  (∀ (s : State), alive s = true →
    s.time.clk.activeLock = true →
    exec (.activeLockLoss) s = .next (settle (switchover { s with time := { s.time with clk := { s.time.clk with activeLock := false } } }))) ∧
  (∀ (s : State), alive s = true →
    s.time.clk.standbyLock = false →
    s.time.clk.refOk = true →
    standbyEn s = true →
    exec (.standbyLock true) s = .next (settle (secondSwitchover { s with time := { s.time with clk := { s.time.clk with standbyLock := true } } }))) ∧
  (∀ (s : State), alive s = true →
    s.time.clk.standbyLock = true →
    exec (.standbyLock false) s = .next (settle (report { s with time := { s.time with clk := { s.time.clk with standbyLock := false } } } 0x06 .chip 2 false))) ∧
  (∀ (s : State), alive s = true →
    s.time.clk.refOk = true →
    exec (.referenceLost) s = .next (settle (report (bump { s with time := { s.time with clk := { s.time.clk with refOk := false, holdover := true, standbyLock := false } } }
      (.chip 0x23) 23 8 1) 0x06 .chip 3 false))) ∧
  (∀ (s : State), alive s = true →
    s.time.clk.refOk = false →
    exec (.referenceReturn) s = .next (settle (report { s with time := { s.time with clk := { s.time.clk with refOk := true, holdover := false } } } 0x06 .chip 4 false))) ∧
  (∀ (s : State), s.sys.mode ≠ .retention →
    s.time.clk.coreLost = false →
    exec (.coreClockLost) s = .next (settle { s with time := { s.time with clk := { s.time.clk with coreLost := true } }, boot := { s.boot with clkLost := some (now s) } }))

/-- R22, R82, R85, R86, R91 to R93, R101: rows of timer cells. -/
def Obligations.CellRowsComplete : Prop :=
  (∀ (b : Ball) (l : Bool) (t : T16) (n : Fin 512) (s : State), clockOn s = true →
    ballIn s b ≠ l →
    due s (tickPart t) = true →
    inputOf s b = some n →
    cellsOn s = true →
    exec (.inputEdge b l t) s = .next (settle (measureAll (pewterSee (setBall s b l) n l t) n l t))) ∧
  (∀ (b : Ball) (l : Bool) (t : T16) (s : State), clockOn s = true →
    ballIn s b ≠ l →
    due s (tickPart t) = true →
    inputOf s b = none →
    exec (.inputEdge b l t) s = .next (settle (setBall s b l))) ∧
  (∀ (b : Ball) (l : Bool) (t : T16) (n : Fin 512) (s : State), clockOn s = true →
    ballIn s b ≠ l →
    due s (tickPart t) = true →
    inputOf s b = some n →
    alive s = true →
    cellsOn s = false →
    exec (.inputEdge b l t) s = .next (settle (pewterSee (setBall s b l) n l t))) ∧
  (∀ (c : Fin 512) (rise : Bool) (t : T16) (x : XSrc) (s : State), capSrc s c = some x →
    cellsOn s = true →
    capOn s c = true →
    due s (captureTick s x t) = true →
    (if rise != regBit s (.cell c 0x0C) 11 then decide (regFld s (.cell c 0x0C) 10 9 = 1 ∨ regFld s (.cell c 0x0C) 10 9 = 3)
      else decide (regFld s (.cell c 0x0C) 10 9 = 2 ∨ regFld s (.cell c 0x0C) 10 9 = 3)) = true →
    regBit s (.cell c 0x09) 13 = false →
    s.cells[c].fifo.length < 4 →
    exec (.capture c rise t) s = .next (settle (cellRequest (updCell (wearKind s c 4) c (fun k => { k with fifo := k.fifo ++ [⟨t, rise != regBit s (.cell c 0x0C) 11⟩] })) c 1
      (absOf s (captureTick s x t))))) ∧
  (∀ (req : Requester) (c : Fin 512) (k : Capture) (l : List Capture) (s : State), reaches s req (.cell c 0x06) = true →
    capOf s req (.cell c 0x06) = none →
    s.cells[c].fifo = k :: l →
    exec (.capLoRead req c) s = .next (settle (updCell s c (fun x => { x with fifo := l, popped := (req, k) :: x.popped.filter (fun p => !decide (p.1 = req)) })))) ∧
  (∀ (req : Requester) (c : Fin 512) (v : Word) (s : State), Accepts s req (.cell c 0x01) (v ||| 1) →
    exec (.cellEnSet req c v) s = .next (settle (Committed s req (.cell c 0x01) (v ||| 1)))) ∧
  (∀ (req : Requester) (c : Fin 512) (low v : Word) (z : State), cellEn z c = false → bit v 0 = true → fld v 9 8 = 0 →
    Acts z req low (.cell c 0x01) v = cellEnable (imageCell (setReg z (.cell c 0x01) (v &&& 0x0000FB)) c 1 (v &&& 0x0000FB)) c) ∧
  (∀ (req : Requester) (c : Fin 512) (v : Word) (s : State), Accepts s req (.cell c 0x01) (v &&& 0xFFFFFE) →
    exec (.cellEnClear req c v) s = .next (settle (Committed s req (.cell c 0x01) (v &&& 0xFFFFFE)))) ∧
  (∀ (req : Requester) (c : Fin 512) (low v : Word) (z : State), cellEn z c = true → bit v 0 = false → fld v 9 8 = 0 →
    (Acts z req low (.cell c 0x01) v).cells =
      (cellDisable (imageCell (setReg z (.cell c 0x01) (v &&& 0x0000FB)) c 1 (v &&& 0x0000FB)) c).cells) ∧
  (∀ (req : Requester) (c : Fin 512) (v : Word) (s : State), Accepts s req (.cell c 0x01) v →
    exec (.force req c v) s = .next (settle (Committed s req (.cell c 0x01) v))) ∧
  (∀ (req : Requester) (c : Fin 512) (low v : Word) (z : State), cellEn z c = true → bit v 0 = true →
    (Acts z req low (.cell c 0x01) v).agenda =
      (forceLatch (imageCell (setReg z (.cell c 0x01) (v &&& 0x0000FB)) c 1 (v &&& 0x0000FB)) c (fld v 9 8)).agenda) ∧
  (∀ (req : Requester) (c : Fin 512) (v : Word) (t : Time) (s : State), Accepts s req (.cell c 0x03) v →
    cellHeld s c = false →
    cellEn s c = true →
    givesCompare s req c = true →
    t = mkTime v (lowOf s req (.cell c 0x02)) →
    -2 ≤ (t - now s).toInt →
    exec (.cmpHiWrite req c .a v) s = .next (settle (addLate s (rankOf req) req (.compare c .a t (cmpTrim s req c .a) none
      (match req with | .block _ => .routine | _ => .param) true)))) ∧
  (∀ (req : Requester) (c : Fin 512) (v : Word) (s : State), Accepts s req (.cell c 0x05) v →
    cellHeld s c = false →
    cellEn s c = false →
    exec (.cmpHiWrite req c .b v) s = .next (settle (addLate s (rankOf req) req (.compare c .b
      (mkTime v (lowOf s req (.cell c 0x04))) (cmpTrim s req c .b) none (match req with | .block _ => .routine | _ => .param) false)))) ∧
  (∀ (k n : Nat) (req : Requester) (c : Fin 512) (u : CmpUnit) (t : Time) (trim : BitVec 4) (act : Option EdgeAct) (w : CmpOwner)
    (z : State), cellEn z c = true → compareDue z c u = false → 3 ≤ (t - now z).toInt →
    lateEffect z ⟨k, req, n, .compare c u t trim act w true⟩ =
      loadCompare (disarm z c u 0x02) c u t trim (mk16 t trim) act w false) ∧
  (∀ (k n : Nat) (req : Requester) (c : Fin 512) (u : CmpUnit) (t : Time) (trim : BitVec 4) (act : Option EdgeAct) (w : CmpOwner)
    (z : State), lateEffect z ⟨k, req, n, .compare c u t trim act w false⟩ =
      updCell z c (fun x => setCmp x u { cmpOf x u with value := t, trim := trim })) ∧
  (∀ (c : Fin 512) (u : CmpUnit) (s : State), cellsOn s = true →
    cellEn s c = true →
    cellMode s c = 1 ∨ cellMode s c = 7 →
    (cmpOf s.cells[c] u).armed = true →
    matchDue s (cmpOf s.cells[c] u).edge = true →
    exec (.compareMatch c u) s = .next (settle (edgesOut (matchCompare s c u)))) ∧
  (∀ (c : Fin 512) (o : Occ) (s : State), cellsOn s = true →
    cellEn s c = true →
    cellMode s c = 6 →
    nextStart s.cells[c].queue = some o →
    matchDue s o.startAt = true →
    exec (.compareMatch c .a) s = .next (settle (edgesOut (fireStart s c o)))) ∧
  (∀ (c : Fin 512) (o : Occ) (e : T16) (s : State), cellsOn s = true →
    cellEn s c = true →
    cellMode s c = 6 →
    nextEnd s.cells[c].queue = some o →
    o.endAt = some e →
    o.startOut = true →
    matchDue s e = true →
    exec (.compareMatch c .b) s = .next (settle (edgesOut (fireEnd s c o e)))) ∧
  (∀ (c : Fin 512) (ball l : Bool) (s : State), driven s c = some l →
    cellsOn s = true →
    readbackDue s c = true →
    ball ≠ l →
    s.cells[c].rbAt ≠ some (l, s.cells[c].drvAt) →
    exec (.readbackMismatch c ball) s = .next (settle (report (orReg (updCell s c (fun x => { x with rbAt := some (l, x.drvAt) })) (.cell c 0x08) 0x040000) 0x10 (.cell c)
      (bitAt ball 1 + bitAt l 0) false))) ∧
  (∀ (c : Fin 512) (l : Bool) (s : State), driven s c = some l →
    cellsOn s = true →
    readbackDue s c = true →
    exec (.readbackMismatch c l) s = .next (settle (updCell s c (fun x => { x with rbAt := none }))))

/-- R53, R54, R57, R62, R65, R66, R68, R74, R79, R80, R106: rows of angle domains. -/
def Obligations.DomainRowsComplete : Prop :=
  (∀ (k : Fin 16) (rise : Bool) (t : T16) (d : Fin 16) (s : State), domOfTrk s k = some d →
    domsOn s = true →
    due s (tickPart t) = true →
    (if rise then decide (fld (trkCfg s d) 9 8 = 1 ∨ fld (trkCfg s d) 9 8 = 3)
      else decide (fld (trkCfg s d) 9 8 = 2 ∨ fld (trkCfg s d) 9 8 = 3)) = true →
    exec (.toothEdge k rise t) s = .next (settle (seeIntake s d (.edge (tickPart t))))) ∧
  (∀ (d : Fin 16) (e : Intake) (s : State), s.doms[d].intake = [] → takeDue s d e = true → seeIntake s d e = takeEvent s d e) ∧
  (∀ (d : Fin 16) (e : Intake) (s : State), s.doms[d].intake = [] → takeDue s d e = false →
    seeIntake s d e = updDom s d (fun x => { x with intake := [e] })) ∧
  (∀ (d : Fin 16) (t : Time) (s : State), (catchUp s d t).doms[d].st ≠ .lost →
    isGapEdge (catchUp s d t) d t = false →
    noisy (catchUp s d t) d t = false →
    takeEdge s d t = acceptEdge (countEdge (catchUp s d t) (trkOf s d) t false) d t) ∧
  (∀ (d : Fin 16) (t : Time) (s : State), gapToothDue s d = none → (∀ y, standDue s d = some y → before y t = false) →
    (∀ m, missDue s d = some m → before m t = false) → catchUp s d t = s) ∧
  (∀ (d : Fin 16) (z : State) (m : Time) (s : State), z = flushIntake s d →
    missDue z d = some m →
    (∀ y, standDue z d = some y → after y m = true) →
    domsOn s = true →
    due s m = true →
    exec (.missDeadline d) s = .next (settle (if z.doms[d].synthLast then passMiss z d m else seeIntake s d (.miss m)))) ∧
  (∀ (d : Fin 16) (m : Time) (s : State), s.doms[d].intake = [] →
    missDue s d = some m →
    (∀ y, standDue s d = some y → after y m = true) →
    domsOn s = true →
    takeDue s d (.miss m) = true →
    due s m = true →
    exec (.missDeadline d) s = .next (settle (passMiss s d m))) ∧
  (∀ (d : Fin 16) (g : Time) (s : State), gapToothDue (flushIntake s d) d = some g →
    domsOn s = true →
    due s g = true →
    exec (.gapTooth d) s = .next (settle (seeIntake s d (.gap g)))) ∧
  (∀ (d : Fin 16) (g : Time) (s : State), s.doms[d].intake = [] →
    gapToothDue s d = some g →
    domsOn s = true →
    takeDue s d (.gap g) = true →
    due s g = true →
    exec (.gapTooth d) s = .next (settle (insertGapTooth s d g))) ∧
  (∀ (d : Fin 16) (y : Time) (s : State), standDue (flushIntake s d) d = some y →
    domsOn s = true →
    due s y = true →
    exec (.standstillDeadline d) s = .next (settle (stopDomain (flushIntake s d) d y))) ∧
  (∀ (d : Fin 16) (y : Time) (s : State), s.doms[d].intake = [] →
    standDue s d = some y →
    domsOn s = true →
    due s y = true →
    exec (.standstillDeadline d) s = .next (settle (stopDomain s d y))) ∧
  (∀ (d : Fin 16) (t : Tooth) (l : List Tooth) (s : State), s.doms[d].flight = t :: l →
    domsOn s = true →
    due s t.upd = true →
    t.kind ≠ .change →
    exec (.toothUpdate d) s = .next (settle (deliverTooth (updDom s d (fun x => { x with flight := l })) d t))) ∧
  (∀ (d : Fin 16) (t : Time) (s : State), s.doms[d].vgStop = some t →
    domsOn s = true →
    due s t = true →
    counting s.doms[d].st = true →
    exec (.virtualStop d) s = .next (settle (stopDomain (updDom s d (fun x => { x with vgStop := none })) d t))) ∧
  (∀ (d : Fin 16) (t : Time) (z : State) (s : State), s.doms[d].vgNext = some t →
    domsOn s = true →
    due s t = true →
    domEn s d = true →
    domKind s d = 3 →
    s.doms[d].vgStarted = true →
    (reg s (.dom d 0x16)).toNat = 0 →
    z = deliver s d ⟨.generated, t, plus t 3, absOf s (t - 5#48), word (s.doms[d].vgInterval / prescOf s d), none, false, false, false, none, none, none, none, false⟩ →
    (work z (.dom d 0x14)).toNat ≠ 0 →
    exec (.virtualTooth d) s = .next (settle (updDom z d (fun x => { x with vgNext := some (plus t ((work z (.dom d 0x14)).toNat * prescOf s d)) , vgInterval := (work z (.dom d 0x14)).toNat * prescOf s d, vgStarted := true })))) ∧
  (∀ (d : Fin 16) (t : Time) (s : State), s.doms[d].vgNext = some t →
    domsOn s = true →
    due s t = true →
    domEn s d = true →
    domKind s d = 3 →
    s.doms[d].st ≠ .lost →
    ∃ y, exec (.virtualTooth d) s = .next (settle y) ∧ y.doms[d].vgStarted = true ∧
      ∃ f ∈ y.doms[d].flight, f.kind = .generated ∧ f.pin = t ∧ f.upd = plus t 3) ∧
  (∀ (req : Requester) (d : Fin 16) (v : Word) (s : State), Accepts s req (.dom d 0x00) v →
    bit v 0 = false ∨ domEn (lateView s) d = true ∨ trkTaken (lateView s) d = false →
    exec (.domCtrlEn req d v) s = .next (settle (Committed s req (.dom d 0x00) v))) ∧
  (∀ (req : Requester) (d : Fin 16) (low v : Word) (z : State), bit v 0 = true → bit v 1 = false →
    (Acts z req low (.dom d 0x00) v).doms = (domEnable z d).1.doms) ∧
  (∀ (req : Requester) (d : Fin 16) (low v : Word) (z : State), bit v 0 = false →
    (Acts z req low (.dom d 0x00) v).doms = (domDisable z d).1.doms) ∧
  (∀ (req : Requester) (d : Fin 16) (v : Word) (s : State), Accepts s req (.dom d 0x00) (v ||| 2) →
    domEn (lateView s) d = true →
    exec (.domCtrlResync req d v) s = .next (settle (Committed s req (.dom d 0x00) (v ||| 2)))) ∧
  (∀ (req : Requester) (d : Fin 16) (low v : Word) (z : State), bit v 0 = true → bit v 1 = true → domEn z d = true →
    (Acts z req low (.dom d 0x00) v).doms = (domResync z d).doms) ∧
  (∀ (req : Requester) (d : Fin 16) (v : Word) (s : State), Accepts s req (.dom d 0x0D) (v ||| 0x1000) →
    fld (v ||| 0x1000) 11 0 < teethOf s d →
    exec (.indexSet req d v) s = .next (settle (writeShadow s (.dom d 0x0D) ((v ||| 0x1000) &&& 0x1FFF)))) ∧
  (∀ (req : Requester) (d : Fin 16) (v : Word) (s : State), Accepts s req (.dom d 0x15) v →
    exec (.vgCtrlRun req d v) s = .next (settle (Committed s req (.dom d 0x15) v))) ∧
  (∀ (req : Requester) (d : Fin 16) (low v : Word) (z : State), bit v 0 = true → regBit z (.dom d 0x15) 0 = false →
    (Acts z req low (.dom d 0x15) v).doms = (vgStart (setReg z (.dom d 0x15) (v &&& 1)) d).doms) ∧
  (∀ (req : Requester) (d : Fin 16) (low v : Word) (z : State), bit v 0 = false → regBit z (.dom d 0x15) 0 = true →
    (Acts z req low (.dom d 0x15) v).doms = (vgEnd z d).doms) ∧
  (∀ (req : Requester) (d : Fin 16) (v : Word) (s : State), Accepts s req (.dom d 0x0B) v →
    v ≠ 0 →
    exec (.standstillTime req d v) s = .next (settle (Committed s req (.dom d 0x0B) v))) ∧
  (∀ (req : Requester) (d : Fin 16) (low v : Word) (z : State), v ≠ 0 →
    (Acts z req low (.dom d 0x0B) v).doms =
      (updDom z d (fun x => { x with standFloor := some (plus (now z) 1), standPast := false })).doms) ∧
  (∀ (req : Requester) (d : Fin 16) (s : State), reaches s req (.dom d 0x1A) = true →
    capOf s req (.dom d 0x1A) = none →
    exec (.angleRead req d) s = .next (settle (setCap (setCap (setCap (setCap (setCap s req (.dom d 0x1B) s.doms[d].leafCycle) req (.dom d 0x1C) s.doms[d].leafPeriod)
      req (.dom d 0x1D) (loWord s.doms[d].leafPin)) req (.dom d 0x1E) (hiWord s.doms[d].leafPin)) req (.dom d 0x19) (domStatus s d)))) ∧
  (∀ (r : Fin 4) (n : Fin 64) (d : Fin 16) (s : State), d = Fin.ofNat 16 (fld (sqWord s r n 0) 19 16) →
    adcOn s = true →
    regBit s (.seqr r 0x0) 0 = true →
    sqEn s r n = true →
    fld (sqWord s r n 0) 22 20 = 1 →
    armable s d = true →
    s.seqs[r].target[n] = s.doms[d].leafCycle →
    (sqWord s r n 1).toNat ≤ (leafAngle s d).toNat →
    exec (.liveAngleCompare r n) s = .next (settle (sqTrigger (updSeq s r (fun q => { q with target := q.target.set n (s.doms[d].leafCycle + 1) })) r n s.time.tick
      (decide (s.doms[d].jumpTick = some s.time.tick)))))

/-- R113 to R116, R119, R121, R132, R134, R136, R141, R143, R146: rows of block sequencers. -/
def Obligations.SequencerRowsComplete : Prop :=
  (∀ (b : Fin 32) (t : Nat) (z : State) (s : State), s.blks[b].timerNext = some t →
    seqsOn s = true →
    t ≤ s.time.tick →
    z = reload s (.block b 0x04) t →
    exec (.blkTimerExpiry b) s = .next (settle (raiseRequest (updBlk z b (fun k =>
        { k with timerCount := s.blks[b].timerCount + 1, timerNext := if (work z (.block b 0x04)).toNat = 0 then none else some (t + (work z (.block b 0x04)).toNat) }))
      b 18 (s.blks[b].timerCount + 1).toNat 0x2E t))) ∧
  (∀ (b : Fin 32) (src : Fin 20) (q : Request) (s : State), seqsOn s = true →
    s.blks[b].run = none →
    s.blks[b].freeAt ≤ s.time.tick →
    chooseSrc (dropAll s b) b = some src →
    headOf (dropAll s b) b src = some q →
    eccBad s .controlStore b.val (0xC00 + q.entry.toNat) = false →
    0xC40 ≤ (routineAt (dropAll s b) b src q (entryWord (dropAll s b) b q)).pc →
    exec (.routineDispatch b) s = .next (settle (updBlk (dropAll s b) b (fun k => { k with run := some (routineAt (dropAll s b) b src q (entryWord (dropAll s b) b q)) , lastServed := k.lastServed.set (Fin.ofNat 4 (routineAt (dropAll s b) b src q (entryWord (dropAll s b) b q)).level) src })))) ∧
  (∀ (b : Fin 32) (r : Routine) (w : MicroWord) (data : Word) (z : State) (r1 : Routine) (s : State), s.blks[b].run = some r →
    seqsOn s = true →
    r.phase = .body →
    r.waits = false →
    r.readyAt ≤ s.time.tick →
    s.time.tick < r.firstAt + 256 →
    trapped s b r.pc = r.pc →
    eccBad s .controlStore b.val r.pc.toNat = false →
    cstoreAt s b r.pc.toNat = w →
    fld w 105 100 ≠ 0 →
    fld w 49 46 ≠ 7 →
    data = aluResult (fld w 105 100) (microSource r w (fld w 99 95)) (microSource r w (fld w 94 90)) r.c →
    fld w 127 124 < 6 →
    wordFault r w none (wordEffects r w data).length = none →
    wordViolation s b r w = none →
    0xC40 ≤ nextAddr r w (microCond s b r w) →
    loadOp s b r (wordRegs s b r w data) w = (z, r1) →
    exec (.microword b) s = .next (settle (afterWord z b r { r1 with pc := nextAddr r w (microCond s b r w) } w true (wordEffects r w data)))) ∧
  (∀ (b : Fin 32) (r : Routine) (w : MicroWord) (s : State), s.blks[b].run = some r →
    seqsOn s = true →
    r.phase = .body →
    r.waits = false →
    r.readyAt ≤ s.time.tick →
    s.time.tick < r.firstAt + 256 →
    trapped s b r.pc = r.pc →
    eccBad s .controlStore b.val r.pc.toNat = false →
    cstoreAt s b r.pc.toNat = w →
    microLegal w = true →
    fld w 105 100 ≠ 0 →
    fld w 127 124 = 0 ∧ fld w 60 56 = 0 ∧ fld w 49 46 = 0 ∧ fld w 33 30 = 0 ∧ fld w 25 24 = 0 ∧ fld w 23 20 = 0 →
    r.buf.length ≤ 16 →
    0xC40 ≤ r.pc + 1 →
    (∀ src : Fin 20, r.level < srcLevel s b src → s.blks[b].queues[src] = []) →
    exec (.microword b) s = .next (settle (setRun s b
      { wordRegs s b r w (aluResult (fld w 105 100) (microSource r w (fld w 99 95)) (microSource r w (fld w 94 90)) r.c) with
        pc := r.pc + 1, readyAt := s.time.tick + 1, buf := r.buf }))) ∧
  (∀ (b : Fin 32) (r : Routine) (s : State), s.blks[b].run = some r →
    r.phase = .commitDue false →
    seqsOn s = true →
    r.readyAt ≤ s.time.tick →
    exec (.commit b) s = .next (settle (updQueue (setRun (finishHost (r.buf.foldl (applyEffect b) s) r.req .ok r.u[(14 : Fin 16)]) b
      { r with buf := [], phase := .tail 0, req := { r.req with host := none } }) b r.src (fun l => { r.req with host := none } :: l.drop 1)))) ∧
  (∀ (b : Fin 32) (r : Routine) (s : State), s.blks[b].run = some r →
    r.phase = .commitDue true →
    seqsOn s = true →
    r.readyAt ≤ s.time.tick →
    exec (.commit b) s = .next (settle (requeue (updBlk (endRoutine (finishHost (r.buf.foldl (applyEffect b) s) r.req .ok r.u[(14 : Fin 16)]) b
      { r with buf := [], phase := .tail 0, req := { r.req with host := none } }) b (fun k => { k with freeAt := r.readyAt })) b
      { r with buf := [], phase := .tail 0, req := { r.req with host := none } }))) ∧
  (∀ (b : Fin 32) (r : Routine) (s : State), s.blks[b].run = some r →
    r.phase = .body →
    seqsOn s = true →
    r.firstAt + 256 ≤ s.time.tick →
    exec (.routineWatchdog b) s = .next (settle (scopeFaultOf (endRoutine (report (noteCount (setReg s (.block b 0x08) (word (seqErr true 0x8 r.pc))) b r) 0x1B (.block b) r.pc.toNat false) b r) r.req))) ∧
  (∀ (b : Fin 32) (t : Nat) (s : State), s.blks[b].rebuildEnd = some t →
    alive s = true →
    t ≤ s.time.tick →
    exec (.laneRebuildDone b) s = .next (settle (updBlk s b (fun k => { k with voting := 7, rebuildEnd := none })))) ∧
  (∀ (req : Requester) (b : Fin 32) (v : Word) (s : State), Accepts s req (.block b 0x00) (v &&& 0xFFFFFE) →
    exec (.custEnClear req b v) s = .next (settle (Committed s req (.block b 0x00) (v &&& 0xFFFFFE)))) ∧
  (∀ (req : Requester) (b : Fin 32) (low v : Word) (z : State), bit v 0 = false → bit v 1 = true → regBit z (.block b 0x00) 1 = true →
    (Acts z req low (.block b 0x00) v).blks = (purgeRequests (setReg z (.block b 0x00) (v &&& 3)) b).blks) ∧
  (∀ (req : Requester) (b : Fin 32) (low v : Word) (z : State), bit v 0 = false → bit v 1 = false →
    (Acts z req low (.block b 0x00) v).blks =
      (updBlk (purgeRequests (setReg z (.block b 0x00) (v &&& 3)) b) b (fun k => { k with timerNext := none })).blks)

/-- R147, R148, R151, R152, R154, R156, R157, R159, R160, R166: rows of PWM carriers. -/
def Obligations.PwmRowsComplete : Prop :=
  (∀ (k : Carrier) (p n : Nat) (z y : State) (s : State), (carrier s k).next = some p →
    carriersOn s = true →
    (carrier s k).running = true →
    p ≤ s.time.tick →
    z = (if updlockAt s k (p - 1) then s else reloadCarrier s k p) →
    n = (work z (carPeriod k)).toNat →
    y = updCarrier z k (fun x => { x with start := some p, next := some (p + n), ctrigs := (x.ctrigs ++ (List.finRange 4).filterMap (fun i => if (work z (carTrig k i.val)).toNat < n then some (p + (work z (carTrig k i.val)).toNat, i) else none)) }) →
    tripLive y k = false →
    (carrier y k).trip = false →
    (carrier y k).resumeWait = false →
    exec (.periodStart k) s = .next (settle ((carrierCells y k).foldl (fun w c =>
      updCell w c (fun x => { x with pwmWait := if cellResumes x p false then none else x.pwmWait }))
        ((carrierCells y k).foldl (fun w c => periodEdges w k p n false false c) y)))) ∧
  (∀ (k : Carrier) (p n : Nat) (s : State), (carrier s k).next = some p →
    carriersOn s = true →
    (carrier s k).running = true →
    p ≤ s.time.tick →
    n = (work (if updlockAt s k (p - 1) then s else reloadCarrier s k p) (carPeriod k)).toNat →
    ∃ y, exec (.periodStart k) s = .next (settle y) ∧ (carrier y k).start = some p ∧ (carrier y k).next = some (p + n)) ∧
  (∀ (c : Fin 512) (e : Nat × Bool) (l : List (Nat × Bool)) (k : Carrier) (s : State), s.cells[c].pwmEdges = e :: l →
    carrierOf s c = some k →
    carriersOn s = true →
    cellEn s c = true →
    e.1 / 16 ≤ s.time.tick →
    (∃ r, k = .gang r) ∨ e.2 = s.cells[c].latch ∨ leastEdge s c ≤ e.1 →
    exec (.pwmEdge c) s = .next (settle (edgesOut (placeEdge (updCell s c (fun y => { y with pwmEdges := l })) c
      (if e.2 then .set else .clear) (mk16 (ltAt s (e.1 / 16)) (BitVec.ofNat 4 e.1)) false (fun _ => .pwm))))) ∧
  (∀ (c : Fin 512) (e : Nat × Bool) (l : List (Nat × Bool)) (b : Fin 32) (s : State), s.cells[c].pwmEdges = e :: l →
    carrierOf s c = some (.block b) →
    carriersOn s = true →
    cellEn s c = true →
    e.1 / 16 ≤ s.time.tick →
    e.2 ≠ s.cells[c].latch →
    e.1 < leastEdge s c →
    exec (.pwmEdge c) s = .next (settle (orReg (updCell s c (fun y => { y with pwmEdges := insertEdge l (leastEdge s c, e.2) }))
      (.block b 0x10) 0x040000))) ∧
  (∀ (k : Carrier) (i : Fin 4) (e : Nat × Fin 4) (s : State), (carrier s k).ctrigs.find? (fun e => decide (e.2 = i ∧ e.1 ≤ s.time.tick)) = some e →
    carriersOn s = true →
    exec (.ctrig k i) s = .next (settle (carrierTrigger (updCarrier s k (fun y => { y with ctrigs := y.ctrigs.filter (fun f => !decide (f = e)) })) k i e.1))) ∧
  (∀ (k : Carrier) (w : Fin 64) (s : State), alive s = true →
    regionOfComp w = carRegion k →
    bit (reg s (carTripSel k)) (w.val % 16) = true →
    s.comps[w].trip = true →
    exec (.tripSourceActive k (.comparator w)) s = .next (settle (setTripLatch s k))) ∧
  (∀ (k : Carrier) (s : State), alive s = true →
    tripPinActive s k false = true →
    exec (.tripSourceActive k (.pin 0)) s = .next (settle (setTripLatch s k))) ∧
  (∀ (k : Carrier) (s : State), alive s = true →
    tripPinActive s k true = true →
    exec (.tripSourceActive k (.pin 1)) s = .next (settle (setTripLatch s k))) ∧
  (∀ (k : Carrier) (s : State), alive s = true →
    bit (reg s (carTripPin k)) 20 = true →
    exec (.tripSourceActive k .safeReq) s =
      .next (settle (setTripLatch { s with pins := { s.pins with safeReqN := false } } k))) ∧
  (∀ (k : Carrier) (s : State), alive s = true →
    tripSoftware s k = true →
    exec (.tripSourceActive k .software) s = .next (settle (setTripLatch s k))) ∧
  (∀ (req : Requester) (k : Carrier) (v : Word) (s : State), Accepts s req (carrierCtrl k) v →
    exec (.bpwmCtrlEn req k v) s = .next (settle (Committed s req (carrierCtrl k) v)) ∧
      exec (.updlock req k v) s = .next (settle (Committed s req (carrierCtrl k) v))) ∧
  (∀ (req : Requester) (k : Carrier) (v : Word) (s : State), Accepts s req (carrierCtrl k) (v ||| 8) →
    exec (.tripClr req k v) s = .next (settle (Committed s req (carrierCtrl k) (v ||| 8)))) ∧
  (∀ (req : Requester) (k : Carrier) (v : Word) (s : State), Accepts s req (carrierCtrl k) (v ||| 0x10) →
    exec (.tripSw req k v) s = .next (settle (Committed s req (carrierCtrl k) (v ||| 0x10)))) ∧
  (∀ (req : Requester) (k : Carrier) (low v : Word) (z : State), bit v 0 = true →
    bit (reg z (carrierCtrl k)) 0 = false →
    z.sys.mode ≠ .halt →
    ∃ x, carrier (Acts z req low (carrierCtrl k) v) k = x ∧ x.running = true ∧ x.start = none ∧ x.wait = bit v 5 ∧
      x.next = (if bit v 5 then none else some (z.time.tick + 1)) ∧ x.frozen = none) ∧
  (∀ (req : Requester) (k : Carrier) (low v : Word) (z : State), bit v 0 = false →
    bit (reg z (carrierCtrl k)) 0 = true →
    carrier (Acts z req low (carrierCtrl k) v) k =
      carrier (stopCarrier (noteLock (setReg z (carrierCtrl k) (v &&& 0x000FA7)) k (bit (reg z (carrierCtrl k)) 2)) k) k) ∧
  (∀ (req : Requester) (k : Carrier) (low v : Word) (z : State), (carrier z k).lockAt ≠ some z.time.tick →
    bit v 0 = bit (reg z (carrierCtrl k)) 0 →
    carrier (Acts z req low (carrierCtrl k) v) k =
      { carrier z k with lockPrev := bit (reg z (carrierCtrl k)) 2, lockAt := some z.time.tick }) ∧
  (∀ (req : Requester) (k : Carrier) (low v : Word) (z : State), bit v 3 = true ∨ bit v 4 = true →
    bit v 0 = bit (reg z (carrierCtrl k)) 0 →
    (Acts z req low (carrierCtrl k) v).agenda = { z.agenda with jobs := z.agenda.jobs ++ [(z.time.tick + 1, .trip k (bit v 3) (bit v 4))] }) ∧
  (∀ (k : Carrier) (z : State), (carrier z k).trip = true → tripLive z k = false →
    lateJob z (.trip k true false) =
      updCarrier z k (fun x => { x with trip := false, resumeWait := true, clearTick := z.time.tick })) ∧
  (∀ (k : Carrier) (sw : Bool) (z : State), (carrier z k).trip = true → tripLive z k = true →
    lateJob z (.trip k true sw) = orReg z (carStat k) 0x100000) ∧
  (∀ (k : Carrier) (z : State), lateJob z (.trip k false true) = setTripLatch z k)

/-- R171 to R174, R176, R178, R179, R181, R183, R186, R187, R191, R192, R196: rows of position channels. -/
def Obligations.ChannelRowsComplete : Prop :=
  (∀ (c : Fin 64) (ab new : BitVec 2) (t : T16) (s : State), chanMakes s c 0 = true →
    due s (tickPart t) = true →
    new = ab &&& BitVec.ofNat 2 (bitAt (chanHas s c 0) 1 + bitAt (chanHas s c 1) 0) →
    chanCounts s c (tickPart t) = true →
    (quadPlace new + 4 - quadPlace s.chans[c].ab) % 4 = 1 →
    exec (.quadEdge c ab t) s = .next (settle (sendCount (updChan s c (fun x =>
        { x with ab := new, abLog := (t, s.chans[c].ab) :: x.abLog.filter (fun r => decide ((t - r.1).toNat < 16 * 128)) })) c 1 t
      (plus (tickPart t) (chanLead s c (chanIn s c (if bit new 1 ≠ bit s.chans[c].ab 1 then 0 else 1)))) false (some none) false))) ∧
  (∀ (c : Fin 64) (ab new : BitVec 2) (t : T16) (s : State), chanMakes s c 0 = true →
    due s (tickPart t) = true →
    new = ab &&& BitVec.ofNat 2 (bitAt (chanHas s c 0) 1 + bitAt (chanHas s c 1) 0) →
    chanCounts s c (tickPart t) = true →
    (quadPlace new + 4 - quadPlace s.chans[c].ab) % 4 = 3 →
    exec (.quadEdge c ab t) s = .next (settle (sendCount (updChan s c (fun x =>
        { x with ab := new, abLog := (t, s.chans[c].ab) :: x.abLog.filter (fun r => decide ((t - r.1).toNat < 16 * 128)) })) c (-1) t
      (plus (tickPart t) (chanLead s c (chanIn s c (if bit new 1 ≠ bit s.chans[c].ab 1 then 0 else 1)))) false (some none) false))) ∧
  (∀ (c : Fin 64) (ab new : BitVec 2) (t : T16) (s : State), chanMakes s c 0 = true →
    due s (tickPart t) = true →
    new = ab &&& BitVec.ofNat 2 (bitAt (chanHas s c 0) 1 + bitAt (chanHas s c 1) 0) →
    chanCounts s c (tickPart t) = true →
    (quadPlace new + 4 - quadPlace s.chans[c].ab) % 4 = 2 →
    exec (.quadEdge c ab t) s = .next (settle (sendCount (updChan s c (fun x =>
        { x with ab := new, abLog := (t, s.chans[c].ab) :: x.abLog.filter (fun r => decide ((t - r.1).toNat < 16 * 128)) })) c 0 t
      (plus (tickPart t) (chanLead s c (chanIn s c (if bit new 1 ≠ bit s.chans[c].ab 1 then 0 else 1)))) false (some (some 1)) false))) ∧
  (∀ (c : Fin 64) (n : Int) (t : T16) (u : Time) (s : State), regBit s (.chan c 0x01) 3 = false → s.chans[c].stand = none →
    makeCount s c n t u false = updChan s c (fun x => { x with flight := insertCount x.flight ⟨n, t, u, false, none, false⟩ })) ∧
  (∀ (c : Fin 64) (dir : Bool) (t : T16) (s : State), chanMakes s c 1 = true →
    chanHas s c 0 = true →
    due s (tickPart t) = true →
    chanCounts s c (tickPart t) = true →
    exec (.stepEdge c dir t) s = .next (settle (makeCount s c (if dir && chanHas s c 1 then 1 else -1) t (plus (tickPart t) (chanLead s c (chanIn s c 0))) false))) ∧
  (∀ (c : Fin 64) (t : T16) (s : State), chanMakes s c 2 = true →
    chanHas s c 0 = true →
    due s (tickPart t) = true →
    chanCounts s c (tickPart t) = true →
    s.chans[c].stand = none →
    fld (reg s (.chan c 0x06)) 13 12 = 0 →
    exec (.pulseRefEdge c t) s = .next (settle (makeCount (updChan s c (fun y => { y with lastPulse := some t, prevIval := (match s.chans[c].lastPulse with | some p => some (t - p).toNat | none => none) })) c 1 t (plus (tickPart t) (chanLead s c (chanIn s c 0))) false))) ∧
  (∀ (c : Fin 64) (a b : BitVec 14) (t : Time) (z y : State) (s : State), chanMakes s c 3 = true →
    adcOn s = true →
    due s (plus t 72) = true →
    t.toNat % 80 = 0 →
    chanCounts s c t = true →
    (∀ p, s.chans[c].lastPulse = some p → after t (tickPart p) = true) →
    z = deliverResult (deliverResult s (Fin.ofNat 32 (8 * (regionOfChan c).val + 2 * regFld s (.chan c 0x07) 9 8)) t
        (resultWord false false ((regionOfAdc (Fin.ofNat 32 (8 * (regionOfChan c).val + 2 * regFld s (.chan c 0x07) 9 8))).val * 24 +
          regFld s (.adc (Fin.ofNat 32 (8 * (regionOfChan c).val + 2 * regFld s (.chan c 0x07) 9 8)) 0x0) 4 0) a.toNat))
      (Fin.ofNat 32 (8 * (regionOfChan c).val + 2 * regFld s (.chan c 0x07) 9 8 + 1)) t
        (resultWord false false ((regionOfAdc (Fin.ofNat 32 (8 * (regionOfChan c).val + 2 * regFld s (.chan c 0x07) 9 8 + 1))).val * 24 +
          regFld s (.adc (Fin.ofNat 32 (8 * (regionOfChan c).val + 2 * regFld s (.chan c 0x07) 9 8 + 1)) 0x0) 4 0) b.toNat) →
    y = reload (if lateAt z (.chan c 0x08) s.time.tick then chanFlag z c 6 else z) (.chan c 0x08) s.time.tick →
    exec (.sincosSample c a b t) s = .next (settle (
      let sn : Int := (a.toNat : Int) - 8192 - ((work y (.chan c 0x08)).extractLsb' 12 12).toInt
      let cs : Int := (b.toNat : Int) - 8192 - ((work y (.chan c 0x08)).extractLsb' 0 12).toInt
      let sq := (sn * sn + cs * cs).toNat
      let interp := regFld s (.chan c 0x07) 3 0
      let phi := sincosCount sn cs interp
      let d : Int := match s.chans[c].phiPrev with
        | some p => wrapBits (phi - p) interp
        | none => 0
      let x := updChan y c (fun x => { x with raw := word (Nat.sqrt sq % 2 ^ 14), lastPulse := some (mk16 t 0) })
      if sq < 2 * regFld s (.chan c 0x09) 11 0 * (2 * regFld s (.chan c 0x09) 11 0) ∨ 2 * regFld s (.chan c 0x09) 23 12 * (2 * regFld s (.chan c 0x09) 23 12) < sq then
        sendCount x c 0 (mk16 t 0) (plus t 96) false (some (some 2)) (decide (2 ^ (interp - 2) < d.natAbs))
      else if 2 ^ (interp - 2) < d.natAbs then sendCount x c 0 (mk16 t 0) (plus t 96) false (some (some 3)) true
      else sendCount (updChan x c (fun v => { v with phiPrev := some phi })) c d (mk16 t 0) (plus t 96) false (some none) false))) ∧
  (∀ (c : Fin 64) (a b : BitVec 14) (t : Time) (s : State), chanMakes s c 3 = true →
    adcOn s = true →
    due s (plus t 72) = true →
    t.toNat % 80 = 0 →
    chanCounts s c t = true →
    (∀ p, s.chans[c].lastPulse = some p → after t (tickPart p) = true) →
    ∃ y, exec (.sincosSample c a b t) s = .next (settle y) ∧ y.chans[c].lastPulse = some (mk16 t 0) ∧
      ∃ e ∈ y.chans[c].flight, e.t = mk16 t 0 ∧ e.upd = plus t 96 ∧ e.item.isSome = true) ∧
  (∀ (c : Fin 64) (p : Fin 32) (t0 t1 : Nat) (w0 w1 : Word) (l : List (Nat × Word)) (s : State), chanOn s c = true →
    chanMode s c = 4 →
    s.chans[c].serWord0 = none →
    p = Fin.ofNat 32 (8 * (regionOfChan c).val + regFld s (.chan c 0x0B) 2 0) →
    s.pes[p].rx = (t0, w0) :: (t1, w1) :: l →
    t0 < s.time.tick →
    t1 < s.time.tick →
    exec (.serialReading c) s = .next (settle (serialTake (updPe s p (fun e => { e with rx := l })) c w0 w1))) ∧
  (∀ (c : Fin 64) (p : Fin 32) (t0 : Nat) (w0 : Word) (s : State), chanOn s c = true →
    chanMode s c = 4 →
    s.chans[c].serWord0 = none →
    p = Fin.ofNat 32 (8 * (regionOfChan c).val + regFld s (.chan c 0x0B) 2 0) →
    s.pes[p].rx = [(t0, w0)] →
    t0 < s.time.tick →
    exec (.serialReading c) s = .next (settle (updChan (updPe s p (fun e => { e with rx := [] })) c (fun x => { x with serWord0 := some w0 })))) ∧
  (∀ (c : Fin 64) (e : CountEvt) (l : List CountEvt) (s : State), s.chans[c].flight = e :: l →
    chanOn s c = true →
    due s e.upd = true →
    exec (.countEvent c) s = .next (settle (applyCount (updChan s c (fun x => { x with flight := l })) c e))) ∧
  (∀ (c : Fin 64) (t : T16) (s : State), chanOn s c = true →
    chanMode s c = 1 ∨ chanMode s c = 3 ∨ (chanMode s c = 0 ∧ regFld s (.chan c 0x03) 2 0 < 4) →
    chanHas s c 2 = true →
    (t, regBit s (.chan c 0x03) 3) ∉ s.chans[c].zLog →
    due s (plus (tickPart t) (indexLead s c)) = true →
    chanCounts s c (tickPart t) = true →
    exec (.indexEvent c t) s = .next (settle (indexApply (flushCounts s c (fun e => !after16 e.t t)) c t (plus (tickPart t) (indexLead s c))))) ∧
  (∀ (c : Fin 64) (d : Time) (s : State), chanDeadline s c = some d →
    chanOn s c = true →
    due s d = true →
    movesBy s c d = false →
    s.chans[c].spd.standstill = false →
    s.chans[c].stand = none →
    exec (.channelStandstill c) s = .next (settle (updChan s c (fun x => { x with stand := some d })))) ∧
  (∀ (c : Fin 64) (d : Time) (s : State), s.chans[c].stand = some d → standOpen s c d = false → regBit s (.chan c 0x01) 19 = false →
    (standEnds c s).chans[c].spd = ⟨0, false, true, s.chans[c].spd.reversed⟩ ∧ (standEnds c s).chans[c].speedRef = none ∧
      (standEnds c s).chans[c].stand = none ∧ (standEnds c s).chans[c].pos = s.chans[c].pos) ∧
  (∀ (c : Fin 64) (t : T16) (u : Time) (up : Bool) (l : List (T16 × Time × Bool)) (b : Bool) (k : Fin 512) (s : State), s.chans[c].emuQueue = (t, u, up) :: l →
    b = (if up then decide (s.chans[c].emuA ≠ s.chans[c].emuB) else decide (s.chans[c].emuA = s.chans[c].emuB)) →
    k = emuCell s c b →
    chanOn s c = true →
    regBit s (.chan c 0x00) 2 = true →
    unfired s k = false →
    due s u = true →
    takesChannel s k = true →
    s.chans[c].emuLast = none →
    after16 (mk16 (laterOf (plus u 6) (plus (now s) 3)) 0) t = false →
    exec (.emuOutputCount c) s = .next (settle (updChan (chanWrite s k .a t) c (fun y =>
        { y with emuQueue := l, emuLast := some t, emuA := (if b then y.emuA else !y.emuA), emuB := (if b then !y.emuB else y.emuB) })))) ∧
  (∀ (req : Requester) (c : Fin 64) (v : Word) (s : State), Accepts s req (.chan c 0x00) v →
    bit v 0 = true →
    bit (reg (lateView s) (.chan c 0x00)) 0 = false →
    chanCheck (lateView s) c (bit v 1) (bit v 2) = .ok →
    exec (.chCtrlEn req c v) s = .next (settle (Committed s req (.chan c 0x00) v))) ∧
  (∀ (s : State) (c : Fin 64), chanMode s c < 3 → chanCheck s c false false = .ok) ∧
  (∀ (s : State) (c : Fin 64) (cmp emu : Bool), (∀ k, k ≠ c → chanEn s k = false) →
    (cmp = true → cellReadyFor s (cmpCell s c) 1 2 = true) →
    (emu = true → cellReadyFor s (emuCell s c false) 3 0 = true ∧ cellReadyFor s (emuCell s c true) 3 0 = true) →
    (cmp = true → emu = true → cmpCell s c ≠ emuCell s c false ∧ cmpCell s c ≠ emuCell s c true) →
    chanCheck s c cmp emu = .ok) ∧
  (∀ (req : Requester) (c : Fin 64) (low v : Word) (z : State), bit v 0 = true →
    bit (reg z (.chan c 0x00)) 0 = false →
    bit v 2 = false →
    bit v 4 = false →
    chanCheck z c (bit v 1) false = .ok →
    (Acts z req low (.chan c 0x00) v).chans = (chanEnable (setReg z (.chan c 0x00) (word (1 + bitAt (bit v 1) 1 + bitAt (bit v 3) 3))) c).chans) ∧
  (∀ (req : Requester) (c : Fin 64) (v : Word) (s : State), Accepts s req (.chan c 0x00) v →
    bit v 0 = false →
    exec (.chCtrlEn req c v) s = .next (settle (Committed s req (.chan c 0x00) v))) ∧
  (∀ (req : Requester) (c : Fin 64) (low v : Word) (z : State), bit v 0 = false →
    bit (reg z (.chan c 0x00)) 0 = true →
    bit v 2 = false →
    bit v 4 = false →
    (Acts z req low (.chan c 0x00) v).chans = (chanDisable (setReg z (.chan c 0x00) (word (bitAt (bit v 1) 1 + bitAt (bit v 3) 3))) c).chans) ∧
  (∀ (req : Requester) (c : Fin 64) (v : Word) (s : State), Accepts s req (.chan c 0x00) (v ||| 2) →
    bit v 0 = true →
    bit v 2 = false →
    bit (reg (lateView s) (.chan c 0x00)) 0 = true →
    (∀ k, k ≠ c → chanEn (lateView s) k = false) →
    cellReadyFor (lateView s) (cmpCell (lateView s) c) 1 2 = true →
    exec (.cmpEn req c v) s = .next (settle (Committed s req (.chan c 0x00) (v ||| 2)))) ∧
  (∀ (req : Requester) (c : Fin 64) (low v : Word) (z : State), bit v 0 = true →
    bit v 1 = true →
    bit v 2 = false →
    bit v 4 = false →
    bit (reg z (.chan c 0x00)) 0 = true →
    bit (reg z (.chan c 0x00)) 1 = false →
    chanCheck z c true false = .ok →
    (Acts z req low (.chan c 0x00) v).par.reg = (setReg z (.chan c 0x00) (word (3 + bitAt (bit v 3) 3))).par.reg) ∧
  (∀ (req : Requester) (c : Fin 64) (v : Word) (s : State), Accepts s req (.chan c 0x00) (v ||| 4) →
    bit v 0 = true →
    bit v 1 = false →
    bit (reg (lateView s) (.chan c 0x00)) 0 = true →
    (∀ k, k ≠ c → chanEn (lateView s) k = false) →
    cellReadyFor (lateView s) (emuCell (lateView s) c false) 3 0 = true →
    cellReadyFor (lateView s) (emuCell (lateView s) c true) 3 0 = true →
    exec (.emuEn req c v) s = .next (settle (Committed s req (.chan c 0x00) (v ||| 4)))) ∧
  (∀ (req : Requester) (c : Fin 64) (low v : Word) (z : State), bit v 0 = true →
    bit v 1 = false →
    bit v 2 = true →
    bit v 4 = false →
    bit (reg z (.chan c 0x00)) 0 = true →
    bit (reg z (.chan c 0x00)) 2 = false →
    chanCheck z c false true = .ok →
    (Acts z req low (.chan c 0x00) v).chans = (emuStart (setReg z (.chan c 0x00) (word (5 + bitAt (bit v 3) 3))) c).chans) ∧
  (∀ (req : Requester) (c : Fin 64) (v : Word) (s : State), Accepts s req (.chan c 0x00) (v ||| 0x10) →
    bit v 0 = bit (reg (lateView s) (.chan c 0x00)) 0 →
    bit v 1 = false →
    bit v 2 = false →
    exec (.clrFault req c v) s = .next (settle (Committed s req (.chan c 0x00) (v ||| 0x10)))) ∧
  (∀ (req : Requester) (c : Fin 64) (low v : Word) (z : State), bit v 0 = bit (reg z (.chan c 0x00)) 0 →
    bit v 1 = false →
    bit v 2 = false →
    bit v 4 = true →
    (Acts z req low (.chan c 0x00) v).chans = (clearFault z c).chans) ∧
  (∀ (req : Requester) (c : Fin 64) (v : Word) (s : State), Accepts s req (.chan c 0x00) (v ||| 8) →
    bit v 0 = bit (reg (lateView s) (.chan c 0x00)) 0 →
    bit v 1 = false →
    bit v 2 = false →
    exec (.indexArm req c v) s = .next (settle (Committed s req (.chan c 0x00) (v ||| 8)))) ∧
  (∀ (req : Requester) (c : Fin 64) (low v : Word) (z : State), bit v 0 = bit (reg z (.chan c 0x00)) 0 →
    bit v 1 = false →
    bit v 2 = false →
    bit v 3 = true →
    bit v 4 = false →
    (Acts z req low (.chan c 0x00) v).par.reg = (setReg z (.chan c 0x00) (word (bitAt (bit v 0) 0 + 8))).par.reg) ∧
  (∀ (req : Requester) (c : Fin 64) (v : Word) (s : State), Accepts s req (.chan c 0x18) v →
    exec (.posHi req c v) s = .next (settle (Committed s req (.chan c 0x18) v)) ∧
      lowFor s req (.chan c 0x18) = lowOf s req (.chan c 0x17)) ∧
  (∀ (req : Requester) (c : Fin 64) (low v : Word) (z : State),
    (Acts z req low (.chan c 0x18) v).chans = (posStep (updChan (flushCounts z c (fun e => due z e.upd)) c (fun x => { x with posValid := !x.fault, recent := [] })) c
      (mkTime v low) (plus (now z) 1) (plus (now z) 1)).chans) ∧
  (∀ (req : Requester) (c : Fin 64) (v : Word) (s : State), Accepts s req (.chan c 0x0F) v →
    exec (.pcmpHi req c v) s = .next (settle (Committed s req (.chan c 0x0F) v)) ∧
      lowFor s req (.chan c 0x0F) = lowOf s req (.chan c 0x0E)) ∧
  (∀ (req : Requester) (c : Fin 64) (low v : Word) (z : State),
    (Acts z req low (.chan c 0x0F) v).chans = (checkCmp (updChan (flushCounts z c (fun e => due z e.upd)) c (fun x => { x with pcmp := mkTime v low, pcmpArmed := true })) c).chans) ∧
  (∀ (req : Requester) (c : Fin 64) (v : Word) (s : State), Accepts s req (.chan c 0x0D) v →
    v ≠ 0 →
    exec (.spdTimeout req c v) s = .next (settle (Committed s req (.chan c 0x0D) v))) ∧
  (∀ (req : Requester) (c : Fin 64) (low v : Word) (z : State), v ≠ 0 →
    (Acts z req low (.chan c 0x0D) v).chans = (updChan z c (fun x => { x with spdFloor := some (plus (now z) 1) })).chans) ∧
  (∀ (req : Requester) (c : Fin 64) (s : State), reaches s req (.chan c 0x17) = true →
    capOf s req (.chan c 0x17) = none →
    exec (.posLoRead req c) s = .next (settle (setCap (setCap (setCap (setCap (setCap s req (.chan c 0x18) (hiWord s.chans[c].pos)) req (.chan c 0x19) (spdView s c).speed)
      req (.chan c 0x1A) (chanStatus s c)) req (.chan c 0x1B) (loWord s.chans[c].posT)) req (.chan c 0x1C) (hiWord s.chans[c].posT)))) ∧
  (∀ (req : Requester) (c : Fin 64) (s : State), reaches s req (.chan c 0x1D) = true →
    capOf s req (.chan c 0x1D) = none →
    exec (.idxLatchLoRead req c) s = .next (settle (setCap (setCap (setCap s req (.chan c 0x1E) (hiWord s.chans[c].idxPos)) req (.chan c 0x1F) (loWord s.chans[c].idxT))
      req (.chan c 0x20) (hiWord s.chans[c].idxT)))) ∧
  (∀ (c : Fin 64) (t : T16) (s : State), (t, regBit s (.chan c 0x03) 3) ∈ s.chans[c].zLog →
    exec (.indexEvent c t) s = .next (settle s))

/-- R202 to R204, R206 to R208, R210: the ten word types. -/
def Obligations.PewterWordsComplete : Prop :=
  (∀ (p : Fin 32) (n : Nat) (w : PewterWord) (i : Bool) (z : State) (s : State), PeTakes s p 0 n w i z →
    exec (.peNop p) s = .next (PeEnds z p n w z.pes[p].out i none)) ∧
  (∀ (p : Fin 32) (n : Nat) (w : PewterWord) (i : Bool) (z : State) (s : State), PeTakes s p 1 n w i z →
    exec (.peSet p) s = .next (PeEnds (if fld w 11 10 = 0 then z
      else if fld w 11 10 = 1 then updPe z p (fun e => { e with x := word (fld w 9 4) })
      else updPe z p (fun e => { e with y := word (fld w 9 4) })) p n w
        (if fld w 11 10 = 0 then windowWrite z p z.pes[p].out (fld w 9 4) 6 else z.pes[p].out) i none)) ∧
  (∀ (p : Fin 32) (n : Nat) (w : PewterWord) (i : Bool) (z : State) (v : Word) (s : State), PeTakes s p 2 n w i z →
    v = movFn (fld w 5 4) (movSource z p n (fld w 8 6)) →
    fld w 11 9 ≠ 5 →
    exec (.peMov p) s = .next (PeEnds (if fld w 11 9 = 0 then z
      else if fld w 11 9 = 1 then updPe z p (fun e => { e with x := v })
      else if fld w 11 9 = 2 then updPe z p (fun e => { e with y := v })
      else if fld w 11 9 = 3 then updPe z p (fun e => { e with isr := v, isc := 0 })
      else if fld w 11 9 = 4 then updPe z p (fun e => { e with osr := v, osc := 0 })
      else updPe z p (fun e => { e with holds := e.holds.set 3 (v.setWidth 6) })) p n w
        (if fld w 11 9 = 0 then windowWrite z p z.pes[p].out v.toNat 16 else z.pes[p].out) i none)) ∧
  (∀ (p : Fin 32) (n : Nat) (w : PewterWord) (i : Bool) (z : State) (v : Word) (s : State), PeTakes s p 2 n w i z →
    v = movFn (fld w 5 4) (movSource z p n (fld w 8 6)) →
    fld w 11 9 = 5 →
    exec (.peMov p) s = .next (PeEnds z p n w z.pes[p].out i (some (v.setWidth 6)))) ∧
  (∀ (p : Fin 32) (n : Nat) (w : PewterWord) (i : Bool) (z : State) (s : State), PeTakes s p 3 n w i z →
    fld w 11 9 = 0 →
    exec (.peJmp p) s = .next (PeEnds z p n w z.pes[p].out i (some (z.pes[p].pc + (w.extractLsb' 4 5).signExtend 6)))) ∧
  (∀ (p : Fin 32) (n : Nat) (w : PewterWord) (i : Bool) (z : State) (s : State), PeTakes s p 3 n w i z →
    fld w 11 9 = 1 →
    exec (.peJmp p) s = .next (PeEnds (if z.pes[p].x = 0 then z else updPe z p (fun e => { e with x := e.x - 1 })) p n w z.pes[p].out i (if z.pes[p].x = 0 ∨ z.pes[p].x = 1 then none else some (z.pes[p].pc + (w.extractLsb' 4 5).signExtend 6)))) ∧
  (∀ (p : Fin 32) (n : Nat) (w : PewterWord) (i : Bool) (z : State) (s : State), PeTakes s p 3 n w i z →
    fld w 11 9 = 2 →
    exec (.peJmp p) s = .next (PeEnds (if z.pes[p].y = 0 then z else updPe z p (fun e => { e with y := e.y - 1 })) p n w z.pes[p].out i (if z.pes[p].y = 0 ∨ z.pes[p].y = 1 then none else some (z.pes[p].pc + (w.extractLsb' 4 5).signExtend 6)))) ∧
  (∀ (p : Fin 32) (n : Nat) (w : PewterWord) (i : Bool) (z : State) (b : Bool) (s : State), PeTakes s p 3 n w i z →
    3 ≤ fld w 11 9 →
    b = (if fld w 11 9 = 3 then peIn z p (regFld z (.pewter p 0x01) 18 17) n else if fld w 11 9 = 4 then !peIn z p (regFld z (.pewter p 0x01) 18 17) n
      else if fld w 11 9 = 5 then decide (outLimit z p ≤ z.pes[p].osc) else if fld w 11 9 = 6 then decide (inLimit z p ≤ z.pes[p].isc)
      else if regBit z (.pewter p 0x02) 18 then bit z.pes[p].osr 0 else bit z.pes[p].osr 23) →
    exec (.peJmp p) s = .next (PeEnds z p n w z.pes[p].out i (if b then some (z.pes[p].pc + (w.extractLsb' 4 5).signExtend 6) else none))) ∧
  (∀ (p : Fin 32) (n : Nat) (w : PewterWord) (i : Bool) (z : State) (f : Nat) (s : State), PeTakes s p 4 n w i z →
    f = z.pes[p].waitFrom.getD n →
    (fld w 11 10 = 0 ∧ peIn z p (fld w 7 4) n = bit w 9) ∨
      (fld w 11 10 = 1 ∧ ∃ g ∈ z.pes[p].seen[(Fin.ofNat 4 (fld w 7 4) : Fin 4)], g.rise = bit w 9 ∧ f ≤ g.at_ ∧ g.at_ ≤ n) ∨
      (fld w 11 10 = 2 ∧ ∃ t, z.doms[(Fin.ofNat 16 (fld w 7 4) : Fin 16)].updTick = some t ∧ f ≤ t ∧ t ≤ n) →
    exec (.peWait p) s = .next (PeEnds (updPe z p (fun x => { x with waitFrom := none })) p n w z.pes[p].out i none)) ∧
  (∀ (p : Fin 32) (n : Nat) (w : PewterWord) (i : Bool) (z : State) (y x : State) (v : Word) (s : State), PeTakes s p 5 n w i z →
    (z.pes[p].framePush = true → rxRoom z p = true) →
    y = (if z.pes[p].framePush then framePushNow z p n else z) →
    v = (if regBit y (.pewter p 0x02) 19
      then (y.pes[p].isr >>> fld w 8 4) ||| word (inSource y p n (fld w 11 9) % 2 ^ fld w 8 4 * 2 ^ (24 - fld w 8 4))
      else (y.pes[p].isr <<< fld w 8 4) ||| word (inSource y p n (fld w 11 9) % 2 ^ fld w 8 4)) →
    x = updPe y p (fun x => { x with isr := v, isc := min 24 (y.pes[p].isc + fld w 8 4) }) →
    exec (.peIn p) s = .next (PeEnds (if regBit y (.pewter p 0x02) 17 && decide (inLimit y p ≤ min 24 (y.pes[p].isc + fld w 8 4))
      then framePushNow x p n else x) p n w z.pes[p].out i none)) ∧
  (∀ (p : Fin 32) (n : Nat) (w : PewterWord) (i : Bool) (z : State) (y : State) (s : State), PeTakes s p 6 n w i z →
    (z.pes[p].framePush = true → rxRoom z p = true) →
    y = (if z.pes[p].framePush then framePushNow z p n else z) →
    bit w 9 = false ∨ inLimit y p ≤ y.pes[p].isc →
    rxRoom y p = true →
    exec (.pePush p) s = .next (PeEnds (pushRx y p n (bit w 8)) p n w z.pes[p].out i none)) ∧
  (∀ (p : Fin 32) (n : Nat) (w : PewterWord) (i : Bool) (z : State) (y x : State) (v : Word) (c : Nat) (s : State), PeTakes s p 7 n w i z →
    (z.pes[p].framePull = true → z.pes[p].tx ≠ []) →
    y = (if z.pes[p].framePull then framePullNow z p else z) →
    v = (if regBit y (.pewter p 0x02) 18 then y.pes[p].osr &&& word (2 ^ fld w 8 4 - 1) else y.pes[p].osr >>> (24 - fld w 8 4)) →
    c = min 24 (y.pes[p].osc + fld w 8 4) →
    x = updPe y p (fun e =>
      { e with osr := (if regBit y (.pewter p 0x02) 18 then e.osr >>> fld w 8 4 else e.osr <<< fld w 8 4), osc := c, x := if fld w 11 9 = 1 then v else e.x, y := if fld w 11 9 = 2 then v else e.y, isr := if fld w 11 9 = 4 then v else e.isr, isc := if fld w 11 9 = 4 then fld w 8 4 else e.isc }) →
    exec (.peOut p) s = .next (PeEnds (if regBit y (.pewter p 0x02) 16 && decide (outLimit y p ≤ c) then framePullNow x p else x) p n w
      (if fld w 11 9 = 0 then windowWrite y p z.pes[p].out v.toNat (fld w 8 4) else z.pes[p].out) i none)) ∧
  (∀ (p : Fin 32) (n : Nat) (w : PewterWord) (i : Bool) (z : State) (y : State) (h : Word) (l : List Word) (s : State), PeTakes s p 8 n w i z →
    (z.pes[p].framePull = true → z.pes[p].tx ≠ []) →
    y = (if z.pes[p].framePull then framePullNow z p else z) →
    bit w 9 = false ∨ outLimit y p ≤ y.pes[p].osc →
    y.pes[p].tx = h :: l →
    exec (.pePull p) s = .next (PeEnds (pullTx y p h l) p n w z.pes[p].out i none)) ∧
  (∀ (p : Fin 32) (n : Nat) (w : PewterWord) (i : Bool) (z : State) (s : State), PeTakes s p 9 n w i z →
    bit w 11 = false ∨ queueFull z p 19 = false →
    exec (.peIrq p) s = .next (PeEnds (raiseRequest (if queueFull z p 19 then bump z (.pewter p 0x13) 11 0 1 else z) p 19 (0x800000 + fld w 8 4) 0x2F n) p n w z.pes[p].out i none))

/-- R199, R200, R202, R205, R209, R211, R213, R214, R217: rows of Pewter engines. -/
def Obligations.PewterRowsComplete : Prop :=
  (∀ (p : Fin 32) (n : Nat) (s : State), peDue s p false = some n →
    s.pes[p].hold ≠ 0 →
    exec (.pewterHoldStep p) s = .next (settle (peNext (updPe s p (fun e => { e with hold := e.hold - 1 })) p n))) ∧
  (∀ (p : Fin 32) (n : Nat) (v : Byte) (s : State), peDue s p true = some n →
    v = memGet (zeroMem 8) s.mem.lut (p.val * 256 + s.pes[p].lut.toNat * 16 + peInputs s p n) →
    exec (.lutStep p) s = .next (settle (peNext (setOuts (updPe s p (fun e => { e with lut := BitVec.ofNat 4 (fld v 7 4) })) p n
      ((List.range 4).foldl (fun a k => setFld a ((regFld s (.pewter p 0x01) 16 13 + k) % 16) ((regFld s (.pewter p 0x01) 16 13 + k) % 16) (bitAt (bit v k) 0)) s.pes[p].out)) p n))) ∧
  (∀ (req : Requester) (p : Fin 32) (v : Word) (s : State), Accepts s req (.pewter p 0x00) (v ||| 2) →
    exec (.restart req p v) s = .next (settle (Committed s req (.pewter p 0x00) (v ||| 2)))) ∧
  (∀ (req : Requester) (p : Fin 32) (low v : Word) (z : State), bit v 1 = true →
    (Acts z req low (.pewter p 0x00) v).pes = (pewterRestart (setReg z (.pewter p 0x00) (v &&& 1)) p).pes) ∧
  (∀ (req : Requester) (p : Fin 32) (v : Word) (s : State), Accepts s req (.pewter p 0x00) v →
    exec (.peCtrlEn req p v) s = .next (settle (Committed s req (.pewter p 0x00) v))) ∧
  (∀ (req : Requester) (p : Fin 32) (low v : Word) (z : State), bit v 0 = true → bit v 1 = false → peEn z p = false →
    Acts z req low (.pewter p 0x00) v =
      updPe (setReg z (.pewter p 0x00) (v &&& 1)) p (fun e => { e with acc := 0, nextStep := some (z.time.tick + 2) })) ∧
  (∀ (req : Requester) (p : Fin 32) (low v : Word) (z : State), bit v 0 = false → bit v 1 = false →
    Acts z req low (.pewter p 0x00) v = updPe (setReg z (.pewter p 0x00) (v &&& 1)) p (fun e => { e with nextStep := none })) ∧
  (∀ (req : Requester) (p : Fin 32) (v : Word) (s : State), Accepts s req (.pewter p 0x08) v →
    s.pes[p].inj = none →
    exec (.peInject req p v) s = .next (settle (updPe s p (fun k => { k with inj := some (s.time.tick, v.setWidth 16) })))) ∧
  (∀ (p : Fin 32) (t : Nat) (w : PewterWord) (s : State), s.pes[p].inj = some (t, w) →
    t + 1 = s.time.tick →
    peEn s p = false →
    pewtersOn s = true →
    peLutMode s p = false →
    s.pes[p].ir = none →
    peLegal w = true →
    stepInjected p s =
      updPe (peStep (updPe s p (fun k => { k with inj := none })) p s.time.tick w true) p (fun k => { k with hold := s.pes[p].hold })) ∧
  (∀ (req : Requester) (p : Fin 32) (v : Word) (s : State), Accepts s req (.pewter p 0x10) v →
    (lateView s).pes[p].tx.length + txOwed (lateView s) p < 4 →
    exec (.peTxdata req p v) s = .next (settle (Committed s req (.pewter p 0x10) v))) ∧
  (∀ (req : Requester) (p : Fin 32) (low v : Word) (z : State), z.pes[p].tx.length + txOwed z p < 4 →
    Acts z req low (.pewter p 0x10) v = updPe z p (fun e => { e with tx := e.tx ++ [v] })) ∧
  (∀ (req : Requester) (p : Fin 32) (t : Nat) (h : Word) (l : List (Nat × Word)) (s : State), reaches s req (.pewter p 0x0F) = true →
    capOf s req (.pewter p 0x0F) = none →
    (serialChans s p).isEmpty = true →
    rxPops s p = 0 →
    s.pes[p].rx = (t, h) :: l →
    t < s.time.tick →
    exec (.peRxdataRead req p) s = .next (settle (updPe s p (fun e => { e with rx := l })))) ∧
  (∀ (req : Requester) (p : Fin 32) (v : Word) (s : State), Accepts s req (.pewter p 0x11) v →
    exec (.peProg req p v) s = .next (settle (Committed s req (.pewter p 0x11) v)) ∧
      sendHeld s req (.pewter p 0x11) (lowFor s req (.pewter p 0x11)) v = setSel s req (.pewter p 0x11) (v &&& 0x3F0000)) ∧
  (∀ (req : Requester) (p : Fin 32) (low v : Word) (z : State), bit v 23 = true →
    (Acts z req low (.pewter p 0x11) v).mem = (setPeStore z p (fld v 21 16) (v.setWidth 16)).mem) ∧
  (∀ (req : Requester) (p : Fin 32) (v : Word) (s : State), Accepts s req (.pewter p 0x12) v →
    peEn s p = false →
    bit v 15 = true →
    exec (.peLut req p v) s = .next (settle ({ setSel s req (.pewter p 0x12) (v &&& 0xFF0000) with mem := { (setSel s req (.pewter p 0x12) (v &&& 0xFF0000)).mem with
      lut := memPut (zeroMem 8) s.mem.lut (p.val * 256 + fld v 23 16) (v.setWidth 8) } }))) ∧
  (∀ (p : Fin 32) (n : Nat) (w : PewterWord) (i : Bool) (s : State), peDue s p false = some n →
    s.pes[p].hold = 0 →
    peWord s p n = some (w, i) →
    peLegal w = false →
    exec (.illegalWord p) s = .next (settle (peStop (updPe s p (fun e => { e with inj := if i && e.ir.isNone then none else e.inj })) p 0x200)))

/-- R219 to R222, R224 to R230, R232, R233, R235: rows of converters and comparators. -/
def Obligations.AnalogueRowsComplete : Prop :=
  (∀ (req : Requester) (r : Fin 4) (v : Word) (s : State), Accepts s req (.seqr r 0x3) v →
    sqEn (lateView s) r (Fin.ofNat 64 (fld v 5 0)) = true →
    fld (sqWord (lateView s) r (Fin.ofNat 64 (fld v 5 0)) 0) 22 20 = 0 →
    exec (.sqSwtrig req r v) s = .next (settle (Committed s req (.seqr r 0x3) v))) ∧
  (∀ (req : Requester) (r : Fin 4) (low v : Word) (z : State), sqEn z r (Fin.ofNat 64 (fld v 5 0)) = true →
    fld (sqWord z r (Fin.ofNat 64 (fld v 5 0)) 0) 22 20 = 0 →
    (Acts z req low (.seqr r 0x3) v).seqs = (sqTrigger z r (Fin.ofNat 64 (fld v 5 0)) (z.time.tick + 1) false).seqs) ∧
  (∀ (req : Requester) (r : Fin 4) (v : Word) (a : Word) (e : Fin 64) (s : State), Accepts s req (.seqr r 0x2) v →
    a = selOf s req (.seqr r 0x1) →
    e = Fin.ofNat 64 (fld a 7 2) →
    fld a 1 0 ≠ 3 →
    (sqEn (lateView s) r e = false ∧ (fld a 1 0 ≠ 0 ∨ bit v 23 = false ∨
      sqEntryBad (lateView s) v (sqWord (lateView s) r e 1) (sqWord (lateView s) r e 2) = false)) ∨ (fld a 1 0 = 0 ∧ bit v 23 = false) →
    exec (.sqListData req r v) s = .next (settle (Committed s req (.seqr r 0x2) v)) ∧ lowFor s req (.seqr r 0x2) = a ∧
      sendHeld s req (.seqr r 0x2) a v = setSel s req (.seqr r 0x1) (sqNextAddr a)) ∧
  (∀ (req : Requester) (r : Fin 4) (a v : Word) (e : Fin 64) (z : State), e = Fin.ofNat 64 (fld a 7 2) →
    fld a 1 0 = 1 ∨ fld a 1 0 = 2 →
    sqEn z r e = false →
    Acts z req a (.seqr r 0x2) v = setSqWord z r e (fld a 1 0) v) ∧
  (∀ (req : Requester) (r : Fin 4) (a v : Word) (e : Fin 64) (z : State), e = Fin.ofNat 64 (fld a 7 2) →
    fld a 1 0 = 0 →
    bit v 23 = false →
    Acts z req a (.seqr r 0x2) v = sqDiscard (setSqWord z r e 0 v) r (fun t => decide (t.entry = e))) ∧
  (∀ (req : Requester) (r : Fin 4) (a v : Word) (e : Fin 64) (z : State), e = Fin.ofNat 64 (fld a 7 2) →
    fld a 1 0 = 0 →
    sqEn z r e = false →
    bit v 23 = true →
    sqEntryBad z v (sqWord z r e 1) (sqWord z r e 2) = false →
    Acts z req a (.seqr r 0x2) v = updSeq (setSqWord z r e 0 v) r (fun q =>
      { q with target := q.target.set e (if (leafAngle z (Fin.ofNat 16 (fld v 19 16))).toNat < (sqWord z r e 1).toNat then z.doms[(Fin.ofNat 16 (fld v 19 16) : Fin 16)].leafCycle else z.doms[(Fin.ofNat 16 (fld v 19 16) : Fin 16)].leafCycle + 1) })) ∧
  (∀ (req : Requester) (r : Fin 4) (v : Word) (s : State), Accepts s req (.seqr r 0x0) v →
    exec (.sqCtrlEn req r v) s = .next (settle (Committed s req (.seqr r 0x0) v))) ∧
  (∀ (req : Requester) (r : Fin 4) (low v : Word) (z : State), Acts z req low (.seqr r 0x0) v =
    (if bit v 0 then setReg z (.seqr r 0x0) (v &&& 1) else sqDiscard (setReg z (.seqr r 0x0) (v &&& 1)) r (fun _ => true))) ∧
  (∀ (req : Requester) (a : Fin 32) (v : Word) (s : State), Accepts s req (.adc a 0x1) v →
    exec (.adcCtrlEn req a v) s = .next (settle (Committed s req (.adc a 0x1) v))) ∧
  (∀ (req : Requester) (a : Fin 32) (low v : Word) (z : State), Acts z req low (.adc a 0x1) v = setReg z (.adc a 0x1) (v &&& 1)) ∧
  (∀ (r : Fin 4) (t : Trigger) (z y : State) (s : State), adcOn s = true →
    z = updSeq s r (fun q => { q with pend := q.pend.filter (fun t => decide (s.time.tick < t.at_) || !(usable s r t.entry).isEmpty) }) →
    firstReady z r [] z.seqs[r].pend = some t →
    y = (usable z r t.entry).foldl (fun x a => updAdc x a (fun v => { v with freeAt := s.time.tick + 80, flight := v.flight ++ [⟨s.time.tick, now s, reg s (.adc a 0x0), some (t.entry, s.seqs[r].counts[t.entry], Fin.ofNat 16 (fld (sqWord s r t.entry 2) 15 12)), decide (t.at_ < s.time.tick), t.jump⟩] }))
        (updSeq z r (fun q => { q with pend := q.pend.erase t, lastEntry := t.entry, lastT := now s })) →
    exec (.conversionStart r) s = .next (settle (noteMaxWait (if t.at_ < s.time.tick then bump y (.seqr r 0x6) 23 0 1 else y) r (s.time.tick - t.at_)))) ∧
  (∀ (r : Fin 4) (t : Trigger) (y : State) (s : State), adcOn s = true →
    s.seqs[r].pend = [t] →
    t.at_ ≤ s.time.tick →
    usable s r t.entry ≠ [] →
    (∀ a ∈ usable s r t.entry, s.adcs[a].freeAt ≤ s.time.tick) →
    y = (usable s r t.entry).foldl (fun x a => updAdc x a (fun v => { v with freeAt := s.time.tick + 80, flight := v.flight ++ [⟨s.time.tick, now s, reg s (.adc a 0x0), some (t.entry, s.seqs[r].counts[t.entry], Fin.ofNat 16 (fld (sqWord s r t.entry 2) 15 12)), decide (t.at_ < s.time.tick), t.jump⟩] }))
        (updSeq s r (fun q => { q with pend := [], lastEntry := t.entry, lastT := now s })) →
    exec (.conversionStart r) s = .next (settle (noteMaxWait (if t.at_ < s.time.tick then bump y (.seqr r 0x6) 23 0 1 else y) r (s.time.tick - t.at_)))) ∧
  (∀ (a : Fin 32) (vp vn : Int) (x : Sample) (l : List Sample) (w : Word) (s : State), s.adcs[a].flight = x :: l →
    adcOn s = true →
    s.time.tick ≥ x.at_ + 72 →
    x.src = none →
    w = resultWord x.late x.jump ((regionOfAdc a).val * 24 + fld x.cfg 4 0) (adcCode (if fld x.cfg 12 8 = 0x1F then vp else vp - vn)) →
    exec (.conversionResult a vp vn) s = .next (settle (deliverResult (updAdc s a (fun v => { v with flight := l })) a x.t w))) ∧
  (∀ (a : Fin 32) (vp vn : Int) (x : Sample) (l : List Sample) (w : Word) (e : Fin 64) (n : BitVec 18) (g : Fin 16) (s : State), s.adcs[a].flight = x :: l →
    adcOn s = true →
    s.time.tick ≥ x.at_ + 72 →
    x.src = some (e, n, g) →
    w = resultWord x.late x.jump ((regionOfAdc a).val * 24 + fld x.cfg 4 0) (adcCode (if fld x.cfg 12 8 = 0x1F then vp else vp - vn)) →
    exec (.conversionResult a vp vn) s = .next (settle (if bit (sqWord s (regionOfAdc a) e 2) 11 then
      emitRegion (deliverResult (updAdc s a (fun v => { v with flight := l })) a x.t w) (regionOfAdc a) g.val (x.at_ + 72)
        ⟨0x50, BitVec.ofNat 16 a.val, x.t, w, word (e.val * 2 ^ 18 + n.toNat)⟩
      else deliverResult (updAdc s a (fun v => { v with flight := l })) a x.t w))) ∧
  (∀ (req : Requester) (a : Fin 32) (s : State), reaches s req (.adc a 0x2) = true →
    capOf s req (.adc a 0x2) = none →
    exec (.adcLastRead req a) s = .next (settle (setCap (setCap s req (.adc a 0x3) (loWord s.adcs[a].lastT)) req (.adc a 0x4) (hiWord s.adcs[a].lastT)))) ∧
  (∀ (w : Fin 64) (uV : Int) (s : State), compReady s w = true →
    exec (.rawZoneChange w uV) s = .next (settle (setZone (judge s w uV) w
      (if regFld s (.comp w 0x4) 7 4 = 0 then rawZone (judge s w uV).comps[w] else (judge s w uV).comps[w].zone) s.comps[w].unresolved))) ∧
  (∀ (w : Fin 64) (uV : Int) (z : State) (cnt : Zone → Nat) (s : State), compReady s w = true →
    regFld s (.comp w 0x4) 7 4 ≠ 0 →
    filterTick s w = true →
    z = updComp (judge s w uV) w (fun c => { c with samples := (rawZone c :: c.samples).take (regFld s (.comp w 0x4) 7 4) }) →
    cnt = (fun k => (z.comps[w].samples.filter (fun y => decide (y = k))).length) →
    exec (.filterSample w uV) s = .next (settle (setZone z w (if regFld s (.comp w 0x4) 3 0 ≤ cnt .inside then .inside
      else if regFld s (.comp w 0x4) 3 0 ≤ cnt .above then .above
      else if regFld s (.comp w 0x4) 3 0 ≤ cnt .below then .below else z.comps[w].zone) s.comps[w].unresolved))) ∧
  (∀ (w : Fin 64) (t : Nat) (s : State), s.comps[w].settleEnd = some t →
    alive s = true →
    t ≤ s.time.tick →
    exec (.settlingEnd w) s = .next (settle (updComp s w (fun c => { c with settleEnd := none, settled := t })))) ∧
  (∀ (req : Requester) (w : Fin 64) (v : Word) (s : State), Accepts s req (.comp w 0x0) v →
    exec (.wcCtrlEn req w v) s = .next (settle (Committed s req (.comp w 0x0) v))) ∧
  (∀ (req : Requester) (w : Fin 64) (low v : Word) (z : State), bit v 0 = true → regBit z (.comp w 0x0) 0 = false →
    (Acts z req low (.comp w 0x0) v).comps = (inTick (setReg z (.comp w 0x0) (v &&& 1)) 1 (preload w)).comps) ∧
  (∀ (req : Requester) (w : Fin 64) (low v : Word) (z : State), bit v 0 = false →
    (Acts z req low (.comp w 0x0) v).comps = (updComp (setTrip w false (setReg z (.comp w 0x0) (v &&& 1))) w
      (fun c => { c with settleEnd := none, unresolved := false })).comps) ∧
  (∀ (req : Requester) (w : Fin 64) (hi : Bool) (v : Word) (s : State), Accepts s req (.comp w (if hi then 0x3 else 0x2)) v →
    exec (.wcThrWrite req w hi v) s = .next (settle (Committed s req (.comp w (if hi then 0x3 else 0x2)) v))) ∧
  (∀ (req : Requester) (w : Fin 64) (low v : Word) (z : State), regFld z (.comp w 0x2) 9 0 ≤ fld v 9 0 →
    Acts z req low (.comp w 0x3) v = updComp (setReg z (.comp w 0x3) (word (fld v 9 0))) w (fun c =>
      { c with hiMove := moveThr z c.hiMove (regFld z (.comp w 0x3) 9 0) (fld v 9 0) })) ∧
  (∀ (req : Requester) (w : Fin 64) (low v : Word) (z : State), fld v 9 0 ≤ regFld z (.comp w 0x3) 9 0 →
    Acts z req low (.comp w 0x2) v = updComp (setReg z (.comp w 0x2) (word (fld v 9 0))) w (fun c =>
      { c with loMove := moveThr z c.loMove (regFld z (.comp w 0x2) 9 0) (fld v 9 0) }))

/-- R245, R246, R251, R256, R261 to R263, R267, R270: rows of the link. -/
def Obligations.LinkRowsComplete : Prop :=
  (∀ (s : State), elcOn s = true →
    s.elc.role = .master →
    s.elc.frameNo ≠ frameNow s →
    exec (.frameOriginate) s = .next (settle (originate s (frameNow s)))) ∧
  (∀ (p : Port) (bs : List Byte) (a : T16) (z y : State) (s : State), elcOn s = true →
    portOn s p = true →
    (portOf s p).locked = true →
    (portOf s p).st = .up →
    bs.length = 250 →
    due s (plus (tickPart a) 794) = true →
    frameCrc bs = BitVec.ofNat 32 (beAt bs 246 4) →
    ctrlFld bs 15 14 = 1 →
    ctrlBit bs 12 = true ∨ ctrlBit bs 13 = true ∨ p = .b →
    s.elc.role ≠ .master →
    z = measureFrame (forwardFrame (updPort (updPort s p (fun x => { x with crcRun := (false :: (portOf s p).crcRun).take 16, missRun := 0 })) p
        (fun x => { x with offset := some (a - frameF (frameNoOf bs)).toInt, frameNo := some (frameNoOf bs) })) p bs a (plus (tickPart a) 794) false) p bs a →
    accepts z (BitVec.ofNat 5 (ctrlFld bs 9 5)) = true →
    (((false :: (portOf s p).crcRun).take 16).filter id).length < 8 →
    y = closeFrame (useFrame (noteFrame z bs) p bs (plus (tickPart a) 794)) (frameNoOf bs) (plus (tickPart a) 794) →
    exec (.frameArrival p bs a) s = .next (settle
      (if y.elc.parent = some p ∧ ctrlBit bs 12 = false then followParent y p bs a (plus (tickPart a) 794) else y))) ∧
  (∀ (p : Port) (bs : List Byte) (a : T16) (s : State), elcOn s = true →
    portOn s p = true →
    (portOf s p).locked = true →
    (portOf s p).st = .up →
    bs.length = 250 →
    due s (plus (tickPart a) 794) = true →
    frameCrc bs = BitVec.ofNat 32 (beAt bs 246 4) →
    ctrlFld bs 15 14 = 1 →
    ctrlBit bs 12 = true ∨ ctrlBit bs 13 = true ∨ p = .b →
    s.elc.role = .master →
    (nodeId s).toNat < ctrlFld bs 9 5 →
    (((false :: (portOf s p).crcRun).take 16).filter id).length < 8 →
    exec (.frameArrival p bs a) s = .next (settle (closeFrame (noteFrame (measureFrame
      (updPort (updPort s p (fun x => { x with crcRun := (false :: (portOf s p).crcRun).take 16, missRun := 0 })) p
        (fun x => { x with offset := some (a - frameF (frameNoOf bs)).toInt, frameNo := some (frameNoOf bs) })) p bs a) bs)
      (frameNoOf bs) (plus (tickPart a) 794)))) ∧
  (∀ (p : Port) (k : Nat) (o : Int) (z : State) (s : State), (portOf s p).frameNo = some k →
    (portOf s p).offset = some o →
    elcOn s = true →
    portOn s p = true →
    after (now s) (tickPart (frameF (k + 1) + BitVec.ofInt 52 (o + 1024))) = true →
    z = updPort (bump s (match p with
        | .a => .link 0x09
        | .b => .link 0x0A) 11 0 1) p (fun y => { y with frameNo := some (k + 1), missRun := y.missRun + 1, validRun := 0 }) →
    exec (.frameMissed p) s = .next (settle (closeFrame (if 1 ≤ (portOf s p).missRun ∧ (portOf s p).st ≠ .down then portDown z p (now s) else z) (k + 1) (now s)))) ∧
  (∀ (p : Port) (s : State), elcOn s = true →
    portOn s p = true →
    (portOf s p).locked = true →
    exec (.laneLockLoss p) s = .next (settle (portDown s p (now s)))) ∧
  (∀ (p : Port) (s : State), elcOn s = true →
    portOn s p = true →
    (portOf s p).locked = false →
    (portOf s p).crossed = false →
    exec (.laneLockGained p) s = .next (settle (updPort s p (fun y => { y with locked := true, st := .training, validRun := 0 })))) ∧
  (∀ (s : State), elcOn s = true →
    s.elc.heard = true →
    s.elc.role = .backup →
    due s (BitVec.ofNat 48 (800 * (s.elc.frameNo + 3))) = true →
    exec (.backupTakeover) s = .next (settle (originate (becomeMaster s (BitVec.ofNat 48 (800 * (s.elc.frameNo + 3)))) (frameNow s)))) ∧
  (∀ (q : Nat) (s : State), s.elc.quietFrom = some q →
    elcOn s = true →
    isCandidate s = true →
    s.elc.role ≠ .master →
    q + (16 + 4 * (nodeId s).toNat) * 800 ≤ s.time.tick →
    (now s).toNat % 800 ≠ 0 →
    exec (.candidateOriginate) s = .next (settle (updElc (becomeMaster s (now s)) (fun e => { e with frameNo := frameNow s })))) ∧
  (∀ (req : Requester) (v : Word) (s : State), Accepts s req (.link 0x00) v →
    exec (.elcCtrlEn req v) s = .next (settle (Committed s req (.link 0x00) v))) ∧
  (∀ (req : Requester) (low v : Word) (p : Port) (z : State), bit v 0 = true →
    portOn z p = false →
    portOn (setReg z (.link 0x00) (v &&& 7)) p = true →
    portOf (Acts z req low (.link 0x00) v) p = { portReset with st := .training }) ∧
  (∀ (req : Requester) (low v : Word) (z : State), bit v 0 = false →
    (Acts z req low (.link 0x00) v).elc.role = .member ∧ (Acts z req low (.link 0x00) v).elc.heard = false ∧
      (Acts z req low (.link 0x00) v).time = { z.time with rate := 0 }) ∧
  (∀ (req : Requester) (v : Word) (s : State), Accepts s req (.link 0x22) v →
    exec (.elcMbxTxHi req v) s = .next (settle (Committed s req (.link 0x22) v)) ∧
      lowFor s req (.link 0x22) = lowOf s req (.link 0x21)) ∧
  (∀ (req : Requester) (low v : Word) (z : State), Acts z req low (.link 0x22) v =
    updElc (if z.elc.txPending then orReg (setReg z (.link 0x22) v) (.link 0x23) 2 else setReg z (.link 0x22) v)
      (fun e => { e with txNext := mkTime v low, txPending := true }))

/-- R299, R301, R311, R313, R316, R317: rows of the fault collector. -/
def Obligations.FaultRowsComplete : Prop :=
  (∀ (k : Byte) (i : Fin 512) (d : Word) (s : State), classDefined k.toNat = true →
    collectorOn s = true →
    k.toNat ∉ [0x01, 0x02, 0x03, 0x1C, 0x1D, 0x21, 0x2A] →
    exec (.faultDetected k i d) s = .next (settle (report (markLost s k.toNat i d) k (homeOf k.toNat i) d.toNat false))) ∧
  (∀ (i : Fin 512) (d : Word) (s : State), collectorOn s = true →
    exec (.faultDetected 0x03 i d) s = .next (settle (report (if bit d 0 then orReg (bump s (.chip 0x29) 23 8 1) (.chip 0x29) 1
      else bump s (.chip 0x29) 23 8 1) 0x03 .chip (bitAt (bit d 0) 0) false))) ∧
  (∀ (i : Fin 512) (d : Word) (r : Fin 4) (s : State), collectorOn s = true →
    r = Fin.ofNat 4 i.val →
    exec (.faultDetected 0x21 i d) s = .next (settle (report (orReg (setReg s (.region r 0x03)
      ((reg s (.region r 0x03) &&& 0x800000) ||| (d &&& 0x7FF0FF))) (.region r 0x03) 0x800000) 0x21 (.region r) (fld d 7 0) false))) ∧
  (∀ (i : Fin 512) (d : Word) (r : Fin 4) (s : State), collectorOn s = true →
    fld d 23 20 = 2 →
    r = Fin.ofNat 4 i.val →
    exec (.faultDetected 0x01 i d) s = .next (settle (report (bump s (.region r 0x01) 23 12 1) 0x01 (.region r)
      (2 * 2 ^ 20 + fld d 19 0) false))) ∧
  (∀ (x : Scope) (y : ScopeState) (s : State), s.flt.scopes.find? (fun y => decide (y.scope = x)) = some y →
    collectorOn s = true →
    y.latched = false →
    activeCond s x = false →
    y.quietFrom + quietOf s x ≤ s.time.tick →
    exitCount s x < recoveryLimit s x →
    exec (.quietPeriodEnd x) s = .next (settle (exitScope s x false))) ∧
  (∀ (x : Scope) (y : ScopeState) (s : State), s.flt.scopes.find? (fun y => decide (y.scope = x)) = some y →
    collectorOn s = true →
    y.latched = false →
    activeCond s x = false →
    y.quietFrom + quietOf s x ≤ s.time.tick →
    recoveryLimit s x ≤ exitCount s x →
    exec (.quietPeriodEnd x) s = .next (settle (latchScope s x))) ∧
  (∀ (s : State), s.flt.pin = true →
    s.flt.pinReleased = true →
    s.flt.pinUntil ≤ s.time.tick →
    exec (.pinWidthExpiry) s = .next (settle { s with flt := { s.flt with pin := false, pinReleased := false } })) ∧
  (∀ (s : State), s.flt.safeReqLow = false →
    exec (.safeReqN) s = .next (settle { s with pins := { s.pins with safeReqN := false }, flt := { s.flt with safeReqLow := true, reports := s.flt.reports ++ [⟨0x2B, .chip, 0, false, s.time.tick - 3, now s - 3#48⟩] } })) ∧
  (∀ (s : State), exec (.safeReqNRise) s = .next (settle { s with pins := { s.pins with safeReqN := true }, flt := { s.flt with safeReqLow := false } }))

/-- R325, R326, R330, R334, R335, R338, R345, R346: rows of modes and power. -/
def Obligations.ModeRowsComplete : Prop :=
  (∀ (f : BootFind) (s : State), s.sys.mode = .retention →
    exec (.pwrOkRise f) s = .next (settle (enterBoot { s with pins := { s.pins with pwrOk := true, pfwN := true }, host := { s.host with transport := (if f.spi then .spi else .pcie), busMaster := false, msixFnMask := false }, boot := { s.boot with find := f } }))) ∧
  (∀ (n : Nat) (l : List (Nat × Byte)) (s : State), s.boot.steps = (n, 4) :: l →
    s.sys.mode = .boot →
    n ≤ s.time.tick →
    s.boot.find.bankIntact = false →
    fld (reg (bootStep s) (.chip 0x44)) 11 8 = 8 ∧ (bootStep s).sec.bankValid = false ∧ (bootStep s).boot.find.bankIntact = true) ∧
  (∀ (i : ImageInfo) (s : State), s.boot.flow = .ready i →
    s.sys.mode = .boot →
    s.time.clk.coreLost = false →
    exec (.bootDone) s = .next (settle (monEntry (raiseFloor (updBoot (bootLife (setMode { (loadTraps (if s.boot.lineOn then s else startLine s)) with host := { (loadTraps (if s.boot.lineOn then s else startLine s)).host with hostCtrl := 0 } } .configure 0x01))
      (fun b => { b with flow := .stopped, phase := 9, bootMs := BitVec.ofNat 16 (min 0xFFFF ((s.time.tick - s.boot.rise) / 800000)), clkLost := none })) i.rollback)))) ∧
  (∀ (k : Byte) (s : State), s.sys.mode = .boot →
    s.time.clk.coreLost = false →
    k = 1 ∨ k = 2 ∨ (s.boot.flow = .failed ∧ k = s.boot.result) →
    s.boot.flow ≠ .stopped →
    exec (.bootStop k) s = .next (settle (updBoot s (fun b => { b with flow := .stopped, result := k, bistFail := decide (k = 2), steps := [] })))) ∧
  (∀ (z : State) (s : State), s.sys.mode ≠ .retention →
    z = (match s.life.writing with
      | some w => updLife s (fun l => { putSlot l w.n none with writing := none })
      | none => s) →
    exec (.pwrOkFall) s = .next (settle { z with pins := { z.pins with pwrOk := false, lines := [] }, agenda := agendaReset, pes := Vector.replicate 32 pewterReset, sys := { z.sys with mode := .retention }, time := { z.time with clk := { z.time.clk with coreLost := false } }, sec := { z.sec with debugOk := false, job := none } })) ∧
  (∀ (c : PowerCause) (z : State) (s : State), s.sys.mode ≠ .retention →
    s.sys.mode ≠ .powerFail →
    s.time.clk.coreLost = false →
    s.sys.mode ≠ .boot →
    z = raiseIrq { s with sys := { s.sys with mode := .powerFail }, pins := { s.pins with pfwN := decide (c ≠ .pfwN) } } 4 →
    exec (.powerFail c) s = .next (settle (powerCommit (dutyAdd { z with blks := z.blks.map (fun b => { b with run := none, queues := Vector.replicate 20 [], timerNext := none }), pes := z.pes.map (shiftPewter (if s.sys.mode = .halt then s.time.tick - s.sys.haltTick else 0)) } 4 1)))) ∧
  (∀ (s : State), s.sys.mode = .powerFail →
    s.life.writing = none →
    s.pins.pwrOk = true →
    (List.finRange 24).any (monBeyond s) = false →
    exec (.powerFailRecovery) s = .next (settle (enterBoot { s with pins := { s.pins with pfwN := true } }))) ∧
  (∀ (s : State), s.sys.mode ≠ .retention →
    s.time.clk.coreLost = false →
    debugAllowed s = true →
    haltable s.sys.mode = true →
    exec (.debugHalt) s = .next (settle (setMode { s with sys := { s.sys with left := s.sys.mode, haltTick := s.time.tick }, sup := { s.sup with halted := true }, bcar := s.bcar.map (fun c => if c.running then { c with frozen := some (carCountAt c s.time.tick) } else c), gcar := s.gcar.map (fun c => if c.running then { c with frozen := some (carCountAt c s.time.tick) } else c) } .halt 0x08))) ∧
  (∀ (n : Nat) (s : State), s.sys.mode = .halt →
    debugAllowed s = true →
    n = s.time.tick - s.sys.haltTick →
    exec (.debugResume) s = .next (settle (setMode { s with sup := { s.sup with halted := false }, host := { s.host with watchdogFrom := s.host.watchdogFrom + n }, bcar := s.bcar.map (shiftCarrier s.time.tick n), gcar := s.gcar.map (shiftCarrier s.time.tick n), pes := s.pes.map (shiftPewter n), blks := s.blks.map (shiftBlock n), cells := s.cells.map (fun c => { c with pwmEdges := c.pwmEdges.map (fun e => (e.1 + 16 * n, e.2)) }) }
      (if decide (s.sys.left = .run ∨ s.sys.left = .degraded) && inFault s .chip then .safeHold else s.sys.left) 0x09)))

/-- R353, R354, R364 to R367: rows of memory and security. -/
def Obligations.SecurityRowsComplete : Prop :=
  (∀ (bs : List Byte) (s : State), s.sys.mode ≠ .retention →
    s.time.clk.coreLost = false →
    exec (.debugCertificate bs) s = .next (settle (if certDebugOk s bs then updSec s (fun x => { x with debugOk := true }) else debugViolation s 0x15))) ∧
  (∀ (s : State), s.sys.mode = .boot ∨ s.sys.mode = .configure →
    exec (.extest) s = .next (settle (updSec s (fun x => { x with jtag := .extest })))) ∧
  (∀ (s : State), s.sys.mode = .boot ∨ s.sys.mode = .configure →
    exec (.intest) s = .next (settle (updSec s (fun x => { x with jtag := .intest })))) ∧
  (∀ (s : State), s.sys.mode ≠ .retention →
    exec (.bypass) s = .next (settle (updSec s (fun x => { x with jtag := .bypass })))) ∧
  (∀ (s : State), s.sys.mode ≠ .retention →
    exec (.idcode) s = .next (settle (updSec s (fun x => { x with jtag := .idcode, jtagOut := x.jtagOut ++ [(Config.idcodeRest.extractLsb' 11 4) ++ 0x5120#16 ++ (Config.idcodeRest.extractLsb' 0 11) ++ 1#1] })))) ∧
  (∀ (s : State), s.sys.mode ≠ .retention →
    exec (.samplePreload) s = .next (settle (updSec s (fun x => { x with jtag := .samplePreload, bsr := (List.finRange 512).foldl (fun (a : BitVec 512) (c : Fin 512) => a ||| BitVec.ofNat 512 (bitAt (ballLevel s c) c.val)) 0 })))) ∧
  (∀ (m : MemId) (n : Fin 32) (i : Nat) (s : State), alive s = true →
    s.sys.mode ≠ .powerFail →
    i = n.val % (memShape m).1 →
    bankWaits s m i (scrubAt s m i) = false →
    eccBad s m (if m = .ringMem then 0 else i) (scrubAt s m i) = false →
    exec (.scrubWord m n .clean) s = .next (settle (scrubNext s m i (scrubAt s m i)))) ∧
  (∀ (m : MemId) (n : Fin 32) (i : Nat) (s : State), alive s = true →
    s.sys.mode ≠ .powerFail →
    i = n.val % (memShape m).1 →
    bankWaits s m i (scrubAt s m i) = false →
    eccBad s m (if m = .ringMem then 0 else i) (scrubAt s m i) = false →
    exec (.scrubWord m n .corrected) s = .next (settle (scrubNext (eccCorrected s m i (scrubAt s m i)) m i (scrubAt s m i)))) ∧
  (∀ (m : MemId) (n : Fin 32) (i : Nat) (s : State), alive s = true →
    s.sys.mode ≠ .powerFail →
    i = n.val % (memShape m).1 →
    bankWaits s m i (scrubAt s m i) = false →
    exec (.scrubWord m n .uncorrectable) s = .next (settle (scrubNext (scrubBad s m i (scrubAt s m i)) m i (scrubAt s m i)))) ∧
  (∀ (n : Fin 4) (s : State), tamperArmed s (.input n) = true →
    exec (.tamper (.input n)) s = .next (settle (wipeBank s (n.val + 1)))) ∧
  (∀ (s : State), tamperArmed s .mesh = true →
    exec (.tamper .mesh) s = .next (settle (wipeBank s 5))) ∧
  (∀ (s : State), alive s = true →
    s.sec.rebuild = true →
    exec (.secureBankRebuild) s = .next (settle { s with sec := { s.sec with bankValid := true, rebuild := false, bankGen := s.sec.bankGen + 1, floor := s.sec.rollback, exportKey := s.sec.exportKey + 1 } })) ∧
  (∀ (pa : Word) (s : State), alive s = true →
    debugAllowed s = true →
    exec (.debugPortAccess (.readParam pa)) s = .next (settle (jtagShift (logAccess (readParam s .debug pa.toNat).2.1 .debug pa.toNat 0 (readParam s .debug pa.toNat).2.2) [(readParam s .debug pa.toNat).1.setWidth 32]))) ∧
  (∀ (pa v : Word) (s : State), alive s = true →
    debugAllowed s = true →
    exec (.debugPortAccess (.writeParam pa v)) s = .next (settle (logAccess (writeParam s .debug pa.toNat v).1 .debug pa.toNat 1 (writeParam s .debug pa.toNat v).2))) ∧
  (∀ (b : Fin 32) (a : Fin 4096) (s : State), alive s = true →
    debugAllowed s = true →
    eccBad s .controlStore b.val a.val = false →
    exec (.debugPortAccess (.readStore b a)) s = .next (settle (jtagShift s (microParts (cstoreAt s b a.val))))) ∧
  (∀ (b : Fin 32) (a : Fin 4096) (v : MicroWord) (s : State), alive s = true →
    debugAllowed s = true →
    exec (.debugPortAccess (.writeStore b a v)) s = .next (settle (clearEcc (setCstore s b a.val v) .controlStore b.val a.val)))

/-- R363, R370, R371, R373, R376, R379, R382, R385, R395, R397, R398: rows of lifetime, monitors and bank Z. -/
def Obligations.LifeRowsComplete : Prop :=
  (∀ (z y : State) (s : State), z = { s with life := { s.life with cal := (if s.life.setTick = some s.time.tick then s.life.cal else s.life.cal + 1), secTick := s.time.tick } } →
    y = (if (z.life.cal).toNat % 32 = 0 then updLife z (fun l => { l with trim := (shadowAt z (.life 0x07) s.time.tick).setWidth 9 }) else z) →
    alive s = true →
    exec (.calendarSecond) s = .next (settle (periodicCommit (dutySeconds y)))) ∧
  (∀ (ok : Bool) (s : State), s.sys.mode ≠ .retention →
    s.time.clk.coreLost = false →
    s.life.writing.isSome = true →
    s.life.writeTick < s.time.tick →
    s.sec.job = none →
    (endCommit ok s).sec.job = none →
    exec (.lifetimeCommitEnd ok) s = .next (settle (endCommit ok s))) ∧
  (∀ (h : HistEntry) (l : List HistEntry) (s : State), alive s = true →
    s.life.histQueue = h :: l →
    exec (.historyWrite) s = .next (settle { s with life := { s.life with histQueue := l, hist := (h :: s.life.hist).take 1024 } })) ∧
  (∀ (req : Requester) (v : Word) (s : State), Accepts s req (.life 0x0C) v →
    exec (.wearClr req v) s = .next (settle (requestCommit { s with life := { s.life with wear := s.life.wear.set (Fin.ofNat 256 (v &&& 0xFF).toNat) 0 } }))) ∧
  (∀ (m : Fin 24) (r : Int) (s : State), monsOn s = true →
    m.val < 8 →
    exec (.temperatureSample m r) s = .next (settle (monSample m r s))) ∧
  (∀ (m : Fin 24) (r : Int) (s : State), monsOn s = true →
    8 ≤ m.val ∧ m.val < 20 →
    exec (.voltageSample m r) s = .next (settle (monSample m r s))) ∧
  (∀ (r : Fin 4) (v : Int) (z : State) (s : State), monsOn s = true →
    z = monSample (Fin.ofNat 24 (20 + r.val)) v s →
    calHeld z r = false →
    exec (.calibrationPass r v) s = .next (settle (setReg z (.monitor 0x03) (setFld (reg z (.monitor 0x03)) 23 8 (regFld z (.monitor 0x03) 23 8 + 1))))) ∧
  (∀ (n : Fin 8) (vz i : Nat) (lim : Bool) (k : Nat) (z : State) (s : State), alive s = true →
    k = (if lim then min 11 (s.excs[n].limRun + 1) else 0) →
    z = (if 10 < k then orReg (updExc s n (fun x => { x with ledger := (vz * i :: x.ledger).take 1000, limRun := k })) (.chip 0x99) (2 ^ n.val)
      else updExc s n (fun x => { x with ledger := (vz * i :: x.ledger).take 1000, limRun := k })) →
    exec (.ledgerSample n vz i lim) s = .next (settle (if regBit z (.chip 0x98) n.val && ledgerOver z n then ledgerTrip z n else z))) ∧
  (∀ (req : Requester) (v : Word) (s : State), Accepts s req (.chip 0x98) v →
    exec (.excCtrl req v) s = .next (settle (Committed s req (.chip 0x98) v))) ∧
  (∀ (req : Requester) (low v : Word) (z : State), Acts z req low (.chip 0x98) v =
    (List.finRange 8).foldl (fun y n => if bit v n.val && ledgerOver y n then ledgerTrip y n else y) (setReg z (.chip 0x98) (v &&& 0xFF))) ∧
  (∀ (req : Requester) (k : Fin 16) (v : Word) (s : State), Accepts s req (.chip (0x80 + k.val)) v →
    partnerTaken s k (fld v 8 0) = false →
    exec (.zioCfgEn req k v) s = .next (settle (setReg (keepZio s k) (.chip (0x80 + k.val)) (v &&& 0xE1FF)))) ∧
  (∀ (z : State) (s : State), s.sys.mode = .retention →
    z = [0x43, 0x44, 0x45, 0x46].foldl (fun y o => setReg y (.chip o) 0) s →
    exec (.vbatLoss) s = .next (settle (updSec (updLife (setWork (setReg z (.life 0x07) 0) (.life 0x07) 0) (fun l => { l with cal := 0, secTick := s.time.tick, calValid := false, trim := 0 })) (fun x => { x with bankValid := false, bankGen := 0, floor := 0 }))))

/-- R5. -/
def Obligations.LineTimeOrder : Prop :=
  (∀ a b : Time, after a b = true ↔ 1 ≤ ((a.toNat : Int) - b.toNat) % 2 ^ 48 ∧ ((a.toNat : Int) - b.toNat) % 2 ^ 48 ≤ 2 ^ 47 - 1) ∧
  (∀ a b : Time, ((a.toNat : Int) - b.toNat) % 2 ^ 48 = 2 ^ 47 → after a b = false ∧ after b a = false) ∧
  (∀ (s : State) (t : Time), ((t.toNat : Int) - (now s).toNat) % 2 ^ 48 = 2 ^ 47 → due s t = true)

/-- R32. No command captures LT_LO itself, so its own capture is empty. -/
def Obligations.LineTimeReads : Prop :=
  (∀ (s : State) (who : Requester), capOf s who (.chip 0x24) = none →
    readParam s who (paOf (.chip 0x24)) = (word ((now s).toNat % 2 ^ 24), setCap s who (.chip 0x25) (word ((now s).toNat / 2 ^ 24)), .ok)) ∧
  (∀ (s : State) (who : Requester) (w : Word), capOf (setCap s who (.chip 0x25) w) who (.chip 0x25) = some w ∧
    (∀ other, other ≠ who → capOf (setCap s who (.chip 0x25) w) other (.chip 0x25) = capOf s other (.chip 0x25)) ∧
    now (setCap s who (.chip 0x25) w) = now s) ∧
  (∀ (s : State) (who : Requester) (w : Word), capOf s who (.chip 0x25) = some w →
    readParam s who (paOf (.chip 0x25)) = (w, dropCap s who (.chip 0x25), .ok) ∧
      capOf (dropCap s who (.chip 0x25)) who (.chip 0x25) = none) ∧
  (∀ (s : State) (who : Requester), capOf s who (.chip 0x25) = none →
    readParam s who (paOf (.chip 0x25)) = (word ((now s).toNat / 2 ^ 24), s, .ok))

/-- R285. -/
def Obligations.RecordLayout : Prop :=
  ∀ (r : Rec) (q : Byte), (recBytes r q).length = 16 ∧ (recBytes r q)[15]? = some r.typ ∧
    leNat (recBytes r q) = r.typ.toNat * 2 ^ 120 + r.src.toNat * 2 ^ 104 + q.toNat * 2 ^ 96 + r.ts.toNat * 2 ^ 48 +
      r.a.toNat * 2 ^ 24 + r.b.toNat

/-- R208. -/
def Obligations.SideFieldPrevails : Prop :=
  (∀ (s z y : State) (p : Fin 32) (op n : Nat) (w : PewterWord) (i : Bool) (o : BitVec 16) (target : Option (BitVec 6)),
    PeTakes s p op n w i z → peTry z p n w = ⟨y, true, o, target⟩ → ∀ j : Nat, j < 16 →
      bit (peStep z p n w i).pes[p].out j =
        (if j = regFld y (.pewter p 0x01) 7 4 ∧ fld w 3 2 ≠ 0 then
          (if fld w 3 2 = 1 then false else if fld w 3 2 = 2 then true else !bit y.pes[p].out j)
        else bit o j)) ∧
  (∀ (s : State) (p : Fin 32) (n : Nat) (o : BitVec 16), o ≠ s.pes[p].out → (setOuts s p n o).pes[p].out = o ∧
    (setOuts s p n o).pes[p].outs = s.pes[p].outs ++ [(n + 3, o)] ∧ (setOuts s p n o).pes[p].ball = s.pes[p].ball) ∧
  (∀ p : Fin 32, State.reset.pes[p].out = 0) ∧
  (∀ (s : State) (p : Fin 32) (v : Word), (writePeCtrl s p v).1.pes[p].out = s.pes[p].out) ∧
  (∀ (s : State) (p : Fin 32) (flag : Nat), (peStop s p flag).pes[p].out = s.pes[p].out)

/-- R213, with the frame; the write acts at the end of its tick (R9). -/
def Obligations.RestartClears : Prop :=
  (∀ (req : Requester) (p : Fin 32) (v : Word) (s : State), Accepts s req (.pewter p 0x00) (v ||| 2) →
    exec (.restart req p v) s = .next (settle (Committed s req (.pewter p 0x00) (v ||| 2)))) ∧
  (∀ (req : Requester) (p : Fin 32) (low v : Word) (s : State), Memory.wf regReset s.par.reg = true → bit v 0 = true → bit v 1 = true →
    ∃ t, Acts s req low (.pewter p 0x00) v = t ∧
      t.pes[p].isr = 0 ∧ t.pes[p].isc = 0 ∧ t.pes[p].osr = 0 ∧ t.pes[p].osc = outLimit s p ∧ t.pes[p].lastTx = 0 ∧
      t.pes[p].rx = [] ∧ t.pes[p].tx = [] ∧ t.pes[p].ir = none ∧ t.pes[p].waitFrom = none ∧ t.pes[p].hold = 0 ∧
      t.pes[p].framePush = false ∧ t.pes[p].framePull = false ∧ t.pes[p].inj = none ∧
      (∀ k : Fin 4, (t.pes[p].holds[k]).toNat = fld (reg s (.pewter p 0x03)) (6 * k.val + 5) (6 * k.val)) ∧
      (t.pes[p].pc).toNat = fld (reg s (.pewter p 0x07)) 5 0 ∧ t.pes[p].acc = 0 ∧ t.pes[p].nextStep = some (s.time.tick + 2) ∧
      t.pes[p].lut = 0 ∧ t.pes[p].x = s.pes[p].x ∧ t.pes[p].y = s.pes[p].y ∧ t.pes[p].out = s.pes[p].out ∧
      (∀ q : Fin 32, q ≠ p → t.pes[q] = s.pes[q]) ∧ SameUnits { s with pes := t.pes } t ∧ t.mem = s.mem)

/-- R230: the write only waits in its tick, and keeps the order when it acts; the stores are in canonical form and no
detection waits for the collector. -/
def Obligations.ThresholdsStayOrdered : Prop :=
  (∀ (req : Requester) (w : Fin 64) (hi : Bool) (v : Word) (s t : State), s.flt.reports = [] →
    (∀ k : Fin 64, regFld s (.comp k 0x2) 9 0 ≤ regFld s (.comp k 0x3) 9 0) → exec (.wcThrWrite req w hi v) s = .next t →
    (∀ k : Fin 64, regFld t (.comp k 0x2) 9 0 ≤ regFld t (.comp k 0x3) 9 0) ∧ SameUnits { s with agenda := t.agenda } t ∧ t.mem = s.mem) ∧
  (∀ (req : Requester) (w : Fin 64) (hi : Bool) (low v : Word) (s t : State), Memory.wf regReset s.par.reg = true →
    (∀ k : Fin 64, regFld s (.comp k 0x2) 9 0 ≤ regFld s (.comp k 0x3) 9 0) →
    Acts s req low (.comp w (if hi then 0x3 else 0x2)) v = t →
    (∀ k : Fin 64, regFld t (.comp k 0x2) 9 0 ≤ regFld t (.comp k 0x3) 9 0) ∧ SameUnits { s with comps := t.comps } t ∧ t.mem = s.mem)

/-- R44, R351: the write waits for the end of its tick and then acts; canonical form is kept. -/
def Obligations.AliasWrites : Prop :=
  (∀ (e : Entry) (b : Fin 32) (w : Nat) (k : RamAlias) (s z : State), Takes s 0x11 e z → w < 0x2000 → e.a0.toNat = paOf (.pram b w k) →
    exec (.writeParam e) s = .next (Completes (Committed z .host (.pram b w k) e.a1) 0x11 e .ok 0)) ∧
  (∀ (req : Requester) (b : Fin 32) (w : Nat) (k : RamAlias) (low v : Word) (z : State), w < 0x2000 → eccBad z .paramRam b.val w = false →
    Memory.wf pramReset z.mem.pram = true →
    ∃ y, Acts z req low (.pram b w k) v = y ∧
      pramAt y b w = (match k with
        | .direct => v
        | .set => pramAt z b w ||| v
        | .clear => pramAt z b w &&& ~~~v) ∧
      (∀ (c : Fin 32) (u : Nat), u < 0x2000 → (c ≠ b ∨ u ≠ w) → pramAt y c u = pramAt z c u) ∧
      Memory.wf pramReset y.mem.pram = true ∧ y.mem = { z.mem with pram := y.mem.pram, ecc := y.mem.ecc } ∧ SameUnits z y)

/-- R273, R352. -/
def Obligations.HostBytesStored : Prop :=
  ∀ (off : BitVec 21) (bs : List Byte) (s : State), hostUp s = true → overSpi s = false → 0x10000 ≤ off.toNat → bs ≠ [] →
    off.toNat + bs.length ≤ 0x200000 → s.flt.reports = [] → s.mem.ecc = [] → Memory.wf (zeroMem 8) s.mem.ring = true →
    ∃ t, exec (.hostRingMemWrite off bs) s = .next t ∧
      (∀ a : Nat, a < 0x200000 → ringByte t a = (if h : off.toNat ≤ a ∧ a - off.toNat < bs.length then bs[a - off.toNat] else ringByte s a)) ∧
      Memory.wf (zeroMem 8) t.mem.ring = true ∧ t.mem = { s.mem with ring := t.mem.ring } ∧ SameUnits s t ∧ t.par = { s.par with fresh := t.par.fresh }

/-- R230, R238, R242, R395: frames of registers that are no more than their bits: the class L ones when their write acts, the
others in their tick, where no detection waits for the collector. -/
def Obligations.StoredRegistersFrame : Prop :=
  (∀ (req : Requester) (a : Fin 32) (v : Word) (s : State), Accepts s req (.adc a 0x1) v →
    exec (.adcCtrlEn req a v) s = .next (settle (Committed s req (.adc a 0x1) v))) ∧
  (∀ (req : Requester) (a : Fin 32) (low v : Word) (z : State), Memory.wf regReset z.par.reg = true →
    OnlyRegister z (Acts z req low (.adc a 0x1) v) (.adc a 0x1) (v &&& 1)) ∧
  (∀ (req : Requester) (r : Fin 4) (low v : Word) (z : State), Memory.wf regReset z.par.reg = true → bit v 0 = true →
    OnlyRegister z (Acts z req low (.seqr r 0x0) v) (.seqr r 0x0) 1) ∧
  (∀ (req : Requester) (w : Fin 64) (low v : Word) (z : State), Memory.wf regReset z.par.reg = true → regFld z (.comp w 0x2) 9 0 ≤ fld v 9 0 →
    OnlyRegister { z with comps := (Acts z req low (.comp w 0x3) v).comps } (Acts z req low (.comp w 0x3) v) (.comp w 0x3)
      (word (v.toNat % 1024))) ∧
  (∀ (req : Requester) (k : Fin 16) (v : Word) (s : State), s.flt.reports = [] → Memory.wf regReset s.par.reg = true → Accepts s req (.chip (0x80 + k.val)) v →
    partnerTaken s k (fld v 8 0) = false →
    ∃ t, exec (.zioCfgEn req k v) s = .next t ∧ OnlyRegister s t (.chip (0x80 + k.val)) (v &&& 0xE1FF))

/-- R281, R290, R296; the supervisor stays in service. -/
def Obligations.CompletionFrame : Prop :=
  ∀ (s : State) (op : Nat) (e : Entry) (t : Status) (b : Word), logged t = false →
    (complete s op e t b).host.subs[e.ring].done = s.host.subs[e.ring].done + 1 ∧
    (complete s op e t b).host.cmdCount = s.host.cmdCount + 1 ∧
    ((bit e.flags 7 = false ∨ t ≠ .ok) → ∃ p ∈ (complete s op e t b).host.arb, p.tick = s.time.tick ∧ p.body.typ = 0x01 ∧
      p.body.src = BitVec.ofNat 16 e.ring.val ∧ p.body.ts = now s ∧ p.body.a = word (e.seq.toNat * 256 + t.code) ∧ p.body.b = b) ∧
    SameUnits s (complete s op e t b) ∧ (complete s op e t b).par = { s.par with fresh := (complete s op e t b).par.fresh } ∧ (complete s op e t b).sys = s.sys ∧
    (complete s op e t b).flt = s.flt ∧
    (complete s op e t b).mem = { s.mem with ring := (complete s op e t b).mem.ring, ecc := (complete s op e t b).mem.ecc }

/-- R12, with the violation log entry of R298. -/
def Obligations.NotAParameter : Prop :=
  (∀ (s : State) (who : Requester) (pa : Nat) (v : Word), (locate pa = none ∨ ∃ l, locate pa = some l ∧ paramInfo l = none) →
    writeParam s who pa v = (s, .addrInvalid) ∧ (readParam s who pa).2 = (s, .addrInvalid)) ∧
  (∀ (e : Entry) (s z : State), Takes s 0x10 e z → (locate e.a0.toNat = none ∨ ∃ l, locate e.a0.toNat = some l ∧ paramInfo l = none) →
    exec (.readParam e) s = .next (Completes z 0x10 e .addrInvalid 0)) ∧
  (∀ (e : Entry) (s z : State), Takes s 0x11 e z → (locate e.a0.toNat = none ∨ ∃ l, locate e.a0.toNat = some l ∧ paramInfo l = none) →
    exec (.writeParam e) s = .next (Completes z 0x11 e .addrInvalid 0)) ∧
  (∀ (z : State) (op : Byte) (e : Entry), op = 0x10 ∨ op = 0x11 →
    (complete z op.toNat e .addrInvalid 0).host.vlog.getLast? =
        some ⟨e.a0.setWidth 32, BitVec.ofNat 32 (2 * 2 ^ 28 + 3 * 2 ^ 24 + 3 * 2 ^ 21 + 2 * 2 ^ 8 + e.seq.toNat % 256), now z⟩ ∧
      bit (complete z op.toNat e .addrInvalid 0).host.irqStat 2 = true)

/-- R10, with the violation log entry of R298. -/
def Obligations.StaticLocked : Prop :=
  (∀ (s : State) (who : Requester) (pa : Nat) (l : PLoc) (i : PInfo) (v : Word), locate pa = some l → paramInfo l = some i → i.cls = .s →
    staticOpen s l = false → writeParam s who pa v = (s, .staticLocked)) ∧
  (∀ (e : Entry) (s z : State) (l : PLoc) (i : PInfo), Takes s 0x11 e z → locate e.a0.toNat = some l → paramInfo l = some i → i.cls = .s →
    staticOpen z l = false → exec (.writeParam e) s = .next (Completes z 0x11 e .staticLocked 0)) ∧
  (∀ (z : State) (e : Entry), (complete z 0x11 e .staticLocked 0).host.vlog.getLast? =
      some ⟨e.a0.setWidth 32, BitVec.ofNat 32 (2 * 2 ^ 28 + 3 * 2 ^ 24 + 3 * 2 ^ 21 + Status.staticLocked.code * 2 ^ 8 + e.seq.toNat % 256), now z⟩ ∧
    (complete z 0x11 e .staticLocked 0).par = { z.par with fresh := (complete z 0x11 e .staticLocked 0).par.fresh })

/-- R6, for the compare pairs of a disabled cell and the line-time preset. -/
def Obligations.LowWordsWait : Prop :=
  (∀ (s : State) (who : Requester) (c : Fin 512) (o : Nat) (i : PInfo) (low v : Word), o = 0x02 ∨ o = 0x04 → cellEn s c = false →
    writePlace s who low (.cell c o) i v = (setLow s who (.cell c o) v, .ok)) ∧
  (∀ (s : State) (who : Requester) (i : PInfo) (low v : Word),
    writePlace s who low (.chip 0x26) i v = (setLow s who (.chip 0x26) v, .ok)) ∧
  (∀ (s : State) (who : Requester) (l : PLoc) (v : Word), lowOf (setLow s who l v) who l = v ∧
    (∀ (other : Requester) (m : PLoc), (other ≠ who ∨ paOf m ≠ paOf l) → lowOf (setLow s who l v) other m = lowOf s other m) ∧
    setLow s who l v = { s with par := { s.par with lows := (setLow s who l v).par.lows } }) ∧
  (∀ (s : State) (who : Requester) (c : Fin 512), lowFor s who (.cell c 0x03) = lowOf s who (.cell c 0x02) ∧
    lowFor s who (.cell c 0x05) = lowOf s who (.cell c 0x04) ∧ lowFor s who (.chip 0x27) = lowOf s who (.chip 0x26)) ∧
  (∀ (s : State) (who : Requester) (c : Fin 512) (i : PInfo) (low v : Word), cellHeld s c = false → cellEn s c = false →
    (∃ w : CmpOwner, writePlace s who low (.cell c 0x03) i v =
      (addLate s (rankOf who) who (.compare c .a (mkTime v low) (cmpTrim s who c .a) none w false), .ok)) ∧
    (∃ w : CmpOwner, writePlace s who low (.cell c 0x05) i v =
      (addLate s (rankOf who) who (.compare c .b (mkTime v low) (cmpTrim s who c .b) none w false), .ok))) ∧
  (∀ (z : State) (k n : Nat) (who : Requester) (c : Fin 512) (u : CmpUnit) (t : Time) (trim : BitVec 4) (act : Option EdgeAct) (w : CmpOwner),
    (cmpOf (lateEffect z ⟨k, who, n, .compare c u t trim act w false⟩).cells[c] u).value = t) ∧
  (∀ (s : State) (who : Requester) (i : PInfo) (low v : Word),
    (writePlace s who low (.chip 0x27) i v).1.time.preset = some (mkTime v low))

/-- R19. The tier numbers are the model's own: region r, domain 4 + d, Electrum 20, collector 21, supervisor 22. -/
def Obligations.RecordsInOrder : Prop :=
  ∀ (l : List Placed) (p : Placed), l.Pairwise (fun a b => a.tick < b.tick ∨ (a.tick = b.tick ∧ a.tier ≤ b.tier)) →
    (placeRec l p).Pairwise (fun a b => a.tick < b.tick ∨ (a.tick = b.tick ∧ a.tier ≤ b.tier)) ∧
    ∃ x y : List Placed, l = x ++ y ∧ placeRec l p = x ++ [p] ++ y

/-- R303. -/
def Obligations.AcknowledgeFault : Prop :=
  ∀ (e : Entry) (s z : State), Takes s 0x61 e z →
    ∃ y t b, exec (.acknowledgeFault e) s = .next (Completes y 0x61 e t b) ∧
      (bit e.a0 23 = false → z.flt.slots[Fin.ofNat 64 (fld e.a0 5 0)] = none → y = z ∧ t = .notFound) ∧
      (∀ f, bit e.a0 23 = false → z.flt.slots[Fin.ofNat 64 (fld e.a0 5 0)] = some f → f.acked = none → f.closed = none →
        t = .ok ∧ b = 1 ∧ y.flt.slots[Fin.ofNat 64 (fld e.a0 5 0)] = some { f with acked := some (now z) }) ∧
      (∀ f, bit e.a0 23 = false → z.flt.slots[Fin.ofNat 64 (fld e.a0 5 0)] = some f → f.acked.isSome = true → y = z ∧ t = .ok ∧ b = 0) ∧
      (bit e.a0 23 = true → t = .ok ∧ b = word ((List.finRange 64).countP (fun k => match z.flt.slots[k] with
        | some f => !f.acked.isSome
        | none => false))) ∧
      y.flt.scopes = z.flt.scopes ∧ y.sys = z.sys ∧ (z.flt.lostSince = 0 → SameUnits { z with life := y.life } y ∧ y.par = z.par ∧ y.mem = z.mem ∧ y.host = z.host)

/-- R364, with the store in canonical form. -/
def Obligations.WipeChangesNoOutput : Prop :=
  ∀ (s : State) (cause : Nat), cause < 16 → Memory.wf regReset s.par.reg = true →
    fld (reg (wipeBank s cause) (.chip 0x44)) 23 16 = min 255 (fld (reg s (.chip 0x44)) 23 16 + 1) ∧
    fld (reg (wipeBank s cause) (.chip 0x44)) 11 8 = cause ∧ (wipeBank s cause).sec.bankValid = false ∧
    (wipeBank s cause).sys = s.sys ∧ (wipeBank s cause).flt = s.flt ∧ (wipeBank s cause).excs = s.excs ∧
    SameUnits { s with sec := (wipeBank s cause).sec, life := (wipeBank s cause).life } (wipeBank s cause) ∧ (wipeBank s cause).mem = s.mem

/-- R316, R331. Figures in time are ticks of 800 MHz (log entry 76). -/
def Obligations.FaultPinAsserted : Prop :=
  (∀ s : State, faultPin s = true ↔ (s.flt.pin = true ∨ s.time.clk.coreLost = true ∨ s.sys.mode = .boot ∨ s.sys.mode = .powerFail)) ∧
  (∀ (s : State) (lvl : Nat), regFld s (.faults 0x00) 18 16 ≤ lvl → faultPin (assertPin s lvl) = true ∧
    (assertPin s lvl).flt.pinUntil = s.time.tick + regFld s (.faults 0x00) 9 0 * 16000 ∧ (assertPin s lvl).flt.pinReleased = false) ∧
  (∀ (s : State) (lvl : Nat), lvl < regFld s (.faults 0x00) 18 16 → assertPin s lvl = s) ∧
  (∀ s : State, s.sys.mode = .boot ∨ s.sys.mode = .powerFail → faultPin (cmdReleaseFaultPin s).1 = true)

/-- R325, R330. -/
def Obligations.ModeTransition : Prop :=
  (∀ (s : State) (m : Mode) (cause : Nat), (setMode s m cause).sys.mode = m ∧ (setMode s m cause).sys.seq = s.sys.seq + 1 ∧
    bit (setMode s m cause).host.irqStat 4 = true ∧
    (bit s.host.hostCtrl 4 = true → ∃ p ∈ (setMode s m cause).host.arb, p.ring = Fin.ofNat 16 (fld s.host.hostCtrl 3 0) ∧
      p.tick = s.time.tick ∧ p.tier = 22 ∧ p.body.typ = 0x04 ∧ p.body.src = 0 ∧ p.body.ts = now s) ∧
    (bit s.host.hostCtrl 4 = false → (setMode s m cause).host.arb = s.host.arb)) ∧
  (∀ (s : State) (c : PowerCause), s.sys.mode ≠ .retention → s.sys.mode ≠ .powerFail → s.time.clk.coreLost = false →
    (doPowerFail c s).sys.mode = .powerFail ∧ (doPowerFail c s).sys.seq = s.sys.seq)

/-- R14. Memory contents at reset are the model's choice (log entry 5). -/
def Obligations.ResetValues : Prop :=
  (∀ pa : Nat, regAt State.reset pa = regReset pa) ∧ State.reset.mem = ⟨[], [], [], [], [], [], [], []⟩ ∧
    State.reset.flt.slots = Vector.replicate 64 none ∧ State.reset.flt.scopes = [] ∧
    (∀ c : Fin 512, State.reset.cells[c].cmpA.armed = false ∧ State.reset.cells[c].cmpB.armed = false) ∧
    State.reset.sys.mode = .configure ∧ bit (readPlace State.reset .host (.chip 0x22)).1 1 = true

/-- R28, R31. -/
def Obligations.TickAdvancesTime : Prop :=
  (∀ s : State, clockRuns s = false → advanceLine s = s) ∧
  (∀ (s : State) (p : Time), clockRuns s = true → s.time.preset = some p → now (advanceLine s) = p ∧ (advanceLine s).time.preset = none) ∧
  (∀ s : State, clockRuns s = true → s.time.preset = none → now (advanceLine s) = now s ∨ now (advanceLine s) = now s + 1 ∨ now (advanceLine s) = now s + 2) ∧
  (∀ s : State, clockRuns s = true → s.time.preset = none → s.time.rate = 0 → -100000000 < s.time.phase → s.time.phase < 100000000 →
    now (advanceLine s) = now s + 1)

/-- R6, R13, R15, R32, R293: the commands that read and write parameters complete, on the parameter, its stored words and the
words captured for the host alone. -/
def Obligations.ParameterAccessCompletes : Prop :=
  (∀ (e : Entry) (l : PLoc) (i : PInfo) (s z : State), Takes s 0x10 e z → locate e.a0.toNat = some l → paramInfo l = some i →
    readBad z l = none → capOf z .host l = none → i.rc = 0 →
    exec (.readParam e) s = .next (Completes (readPlace z .host l).2 0x10 e .ok (readPlace z .host l).1)) ∧
  (∀ (e : Entry) (l : PLoc) (i : PInfo) (v : Word) (s z : State), Takes s 0x10 e z → locate e.a0.toNat = some l → paramInfo l = some i →
    readBad z l = none → capOf z .host l = some v →
    exec (.readParam e) s = .next (Completes (dropCap z .host l) 0x10 e .ok v)) ∧
  (∀ (e : Entry) (r : Fin 4) (k : Fin 8) (s z : State), Takes s 0x10 e z → e.a0.toNat = paOf (.region r (0x28 + k.val)) →
    capOf z .host (.region r (0x28 + k.val)) = none → freshKept z (.region r (0x28 + k.val)) = [] →
    exec (.readParam e) s = .next (Completes (setReg z (.region r (0x28 + k.val)) 0) 0x10 e .ok (reg z (.region r (0x28 + k.val))))) ∧
  (∀ (e : Entry) (b : Fin 32) (w : Nat) (s z : State), Takes s 0x12 e z → w < 0x2000 → e.a0.toNat = paOf (.pram b w .direct) →
    eccBad z .paramRam b.val w = false → capOf z .host (.pram b w .direct) = none →
    exec (.modifyParam e) s = .next (Completes (addLate z 4 .host (.write 0 (.pram b w .direct)
      ((pramSeen z b w true &&& ~~~e.a1) ||| (e.a2 &&& e.a1)))) 0x12 e .ok (pramSeen z b w true))) ∧
  (∀ (e : Entry) (ps : List (Fin 32 × Nat × Word)) (s z : State), Takes s 0x13 e z → fld e.a0 1 0 ≠ 0 →
    [(e.a1.toNat, e.a2), (e.a3.toNat, e.a4), (e.a5.toNat, e.a6)].take (fld e.a0 1 0) =
      ps.map (fun p => (paOf (.pram p.1 p.2.1 .direct), p.2.2)) →
    (∀ p ∈ ps, p.2.1 < 0x2000) →
    exec (.writeParams e) s = .next (Completes (ps.foldl (fun y p => addLate y 4 .host (.write 0 (.pram p.1 p.2.1 .direct) p.2.2)) z)
      0x13 e .ok 0)) ∧
  (∀ (e : Entry) (b : Fin 32) (w : Nat) (s z : State), Takes s 0x14 e z → 1 ≤ e.a1.toNat → e.a1.toNat ≤ 4 →
    w + e.a1.toNat ≤ 0x2000 → e.a0.toNat = paOf (.pram b w .direct) →
    (∀ k, k < e.a1.toNat → eccBad z .paramRam b.val (w + k) = false ∧ capOf z .host (.pram b (w + k) .direct) = none) →
    exec (.readBlock e) s = .next (Completes (writeBuffer z e 2
      ((List.range e.a1.toNat).flatMap (fun k => leBytes (pramSeen z b (w + k) true).toNat 4))) 0x14 e .ok (word e.a1.toNat))) ∧
  (∀ (e : Entry) (b : Fin 32) (w : Nat) (s z : State), Takes s 0x14 e z → 4 < e.a1.toNat → e.a1.toNat ≤ 4096 →
    w + 4 ≤ 0x2000 → e.a0.toNat = paOf (.pram b w .direct) →
    (∀ k, k < 4 → eccBad z .paramRam b.val (w + k) = false ∧ capOf z .host (.pram b (w + k) .direct) = none) →
    exec (.readBlock e) s = .next (settle (flushRing (updSub z e.ring (fun q => { q with bulk := some ⟨false, e, 4, [],
      (List.range 4).flatMap (fun k => leBytes (pramSeen z b (w + k) true).toNat 4)⟩ })) e.ring))) ∧
  (∀ (e : Entry) (buf : Buf) (b : Fin 32) (w : Nat) (s z : State), Takes s 0x15 e z → 1 ≤ e.a1.toNat → e.a1.toNat ≤ 4 →
    w + e.a1.toNat ≤ 0x2000 → e.a0.toNat = paOf (.pram b w .direct) → BufArrives e buf →
    (∀ k, k < e.a1.toNat → (bufBytes z e 2 (4 * e.a1.toNat) buf)[4 * k + 3]? = some 0) →
    exec (.writeBlock e buf) s = .next (Completes ((List.range e.a1.toNat).foldl (fun y k => addLate y 4 .host
      (.write 0 (.pram b (w + k) .direct) (word (leNat (((bufBytes z e 2 (4 * e.a1.toNat) buf).drop (4 * k)).take 3)))))
        (bufAfter z e 2 (4 * e.a1.toNat) buf)) 0x15 e .ok (word e.a1.toNat)))

/-- R89, R94, R95, R108: ARM_TIME of a single edge, on the cell and the operands alone. -/
def Obligations.TimedEdgeWaits : Prop :=
  ∀ (e : Entry) (c : Fin 512) (a : EdgeAct) (s z : State), Takes s 0x20 e z → c = Fin.ofNat 512 (fld e.a0 8 0) →
    armsOk z = true → cellHeld z c = false → cellEn z c = true → cellMode z c = 1 →
    (fld e.a0 23 22 = 0 ∧ a = .set ∨ fld e.a0 23 22 = 1 ∧ a = .clear ∨ fld e.a0 23 22 = 2 ∧ a = .toggle) →
    z.cells[c].cmpA.armed = false → z.agenda.late = [] → -2 ≤ (mkTime e.a2 e.a1 - now z).toInt →
    exec (.armTime e) s = .next (Completes { z with agenda := { z.agenda with late :=
      [⟨4, .host, z.time.tick, .compare c .a (mkTime e.a2 e.a1) (BitVec.ofNat 4 (fld e.a3 3 0)) (some a) .timedSingle true⟩] } } 0x20 e .ok 0)

/-- R9, R17, R134: what a committed write waits for: the end of its tick, and the one grant a tick of its cell's update port,
which the source of the higher precedence takes first. -/
def Obligations.CommittedWritesAct : Prop :=
  (∀ s : State, s.pending = [] → clockOn s = true → step s = .next (startTick (advance (endTick s)))) ∧
  (∀ (s : State) (x : Late), s.agenda.late = [x] → 1 ≤ x.rank → x.rank ≤ 5 → s.time.tick < x.tick → applyLate s = s) ∧
  (∀ (s : State) (x : Late), s.agenda.late = [x] → 1 ≤ x.rank → x.rank ≤ 5 → x.tick ≤ s.time.tick → portCell x.op = none →
    applyLate s = lateEffect { s with agenda := { s.agenda with late := [] } } x) ∧
  (∀ (s : State) (x : Late) (c : Fin 512), s.agenda.late = [x] → 1 ≤ x.rank → x.rank ≤ 5 → x.tick ≤ s.time.tick →
    portCell x.op = some c → portShut s c x = false →
    applyLate s = lateEffect (updCell { s with agenda := { s.agenda with late := [] } } c (fun k =>
      { k with grantTick := some (s.time.tick, x.rank) })) x) ∧
  (∀ (s : State) (x : Late) (c : Fin 512), s.agenda.late = [x] → 1 ≤ x.rank → x.rank ≤ 5 → portCell x.op = some c →
    portShut s c x = true → applyLate s = s) ∧
  (∀ (s z : State) (x y : Late) (c : Fin 512), s.agenda.late = [x, y] ∨ s.agenda.late = [y, x] → 1 ≤ x.rank → x.rank < y.rank → y.rank ≤ 5 →
    x.tick ≤ s.time.tick → portCell x.op = some c → portCell y.op = some c → portShut s c x = false →
    z = lateEffect (updCell { s with agenda := { s.agenda with late := [] } } c (fun k =>
      { k with grantTick := some (s.time.tick, x.rank) })) x →
    applyLate s = { z with agenda := { z.agenda with late := z.agenda.late ++ [y] } })

/-- R18, R45: a store of region RAM reaches its bank and changes its word alone; the port reads its own stores at once. -/
def Obligations.RegionRamStores : Prop :=
  (∀ (s : State) (r : Fin 4) (k : Fin 8) (w : Fin 65536) (who : Fin 9) (v : Word) (n : Nat), s.agenda.banks = [⟨r, w, who, some v, n⟩] →
    k.val = w.val % 8 → n ≤ s.time.tick → Memory.wf (zeroMem 24) s.mem.rram = true →
    ∃ y, serveBank s r k = y ∧ y.agenda.banks = [] ∧ rramAt y r w.val = v ∧
      (∀ (q : Fin 4) (u : Nat), u < 0x10000 → (q ≠ r ∨ u ≠ w.val) → rramAt y q u = rramAt s q u) ∧
      Memory.wf (zeroMem 24) y.mem.rram = true) ∧
  (∀ (s : State) (r : Fin 4) (w : Nat) (v : Word), w < 0x10000 → portRram (askBank s r w 8 (some v)) r w = v)

/-- R15: a flag that the device sets in the tick of a W1C write of it survives, and a read-to-clear field shows what it held
before the tick and keeps what the tick brought. -/
def Obligations.FlagsOfTheTickSurvive : Prop :=
  (∀ (s : State) (l : PLoc) (i : PInfo) (v : Word) (bits j : Nat), Memory.wf regReset s.par.reg = true → i.cls ≠ .h → i.rw = 0 →
    (word bits).getLsbD j = true → (reg (storeBits (orReg s l bits) l i v) l).getLsbD j = true) ∧
  (∀ (s : State) (l : PLoc) (i : PInfo) (v : Word) (j : Nat), Memory.wf regReset s.par.reg = true → i.cls ≠ .h → i.rw = 0 →
    freshKept s l = [] → v.getLsbD j = true → i.w1c.getLsbD j = true → (reg (storeBits s l i v) l).getLsbD j = false) ∧
  (∀ (s : State) (l : PLoc) (rc v : Word) (x : Fresh), rc ≠ 0 → freshKept s l = [x] →
    readClear s l rc v = ((v &&& ~~~rc) ||| (x.old &&& rc), setReg s l ((reg s l &&& ~~~rc) ||| (x.add &&& rc)))) ∧
  (∀ (s : State) (l : PLoc) (rc v : Word), rc ≠ 0 → freshKept s l = [] → readClear s l rc v = (v, setReg s l (reg s l &&& ~~~rc)))
end

