-- ==== Sys2Proof/Laws/Memory.lean ====
section
/-!
SUPPORT. The laws of canonical memories: a write keeps the canonical form, a read after a write of the same address gives
the value written, and a write leaves every other address alone.
-/
namespace Sys2Proof.Machine

variable {w : Nat} (dflt : Nat → BitVec w)

theorem memWfFrom_mono (m : Mem w) (lo lo' : Nat) (h : lo' ≤ lo) (hm : memWfFrom dflt lo m = true) :
    memWfFrom dflt lo' m = true := by
  cases m with
  | nil => rfl
  | cons p t =>
    simp only [memWfFrom, Bool.and_eq_true, decide_eq_true_eq] at *
    exact ⟨⟨by omega, hm.1.2⟩, hm.2⟩

theorem memWfFrom_put (m : Mem w) (lo a : Nat) (v : BitVec w) (ha : lo ≤ a) (hm : memWfFrom dflt lo m = true) :
    memWfFrom dflt lo (memPut dflt m a v) = true := by
  induction m generalizing lo with
  | nil =>
    unfold memPut
    split
    · rfl
    · simp [memWfFrom, *]
  | cons p t ih =>
    obtain ⟨k, x⟩ := p
    simp only [memWfFrom, Bool.and_eq_true, decide_eq_true_eq] at hm
    obtain ⟨⟨h1, h2⟩, h3⟩ := hm
    unfold memPut
    split
    · split
      · simp [memWfFrom, h1, h2, h3]
      · rename_i hk hv
        simp only [memWfFrom, Bool.and_eq_true, decide_eq_true_eq]
        exact ⟨⟨ha, hv⟩, ⟨⟨by omega, h2⟩, h3⟩⟩
    · split
      · rename_i hk
        subst hk
        split
        · exact memWfFrom_mono dflt t (a + 1) lo (by omega) h3
        · simp [memWfFrom, *]
      · simp only [memWfFrom, Bool.and_eq_true, decide_eq_true_eq]
        exact ⟨⟨h1, h2⟩, ih (k + 1) (by omega) h3⟩

/-- A write keeps the canonical form. -/
theorem memPut_wf (m : Mem w) (a : Nat) (v : BitVec w) (hm : Memory.wf dflt m = true) :
    Memory.wf dflt (memPut dflt m a v) = true := memWfFrom_put dflt m 0 a v (Nat.zero_le _) hm

theorem memGet_lt (m : Mem w) (lo a : Nat) (h : a < lo) (hm : memWfFrom dflt lo m = true) : memGet dflt m a = dflt a := by
  cases m with
  | nil => rfl
  | cons p t =>
    obtain ⟨k, x⟩ := p
    simp only [memWfFrom, Bool.and_eq_true, decide_eq_true_eq] at hm
    obtain ⟨⟨h1, -⟩, -⟩ := hm
    unfold memGet
    rw [if_neg (by omega), if_pos (by omega)]

theorem memGet_put_from (m : Mem w) (lo a b : Nat) (v : BitVec w) (hm : memWfFrom dflt lo m = true) :
    memGet dflt (memPut dflt m a v) b = if b = a then v else memGet dflt m b := by
  induction m generalizing lo with
  | nil =>
    unfold memPut
    split
    · rename_i h; by_cases hb : b = a
      · simp [memGet, hb, h]
      · simp [memGet, hb]
    · simp only [memGet]
      by_cases hb : b = a
      · simp [hb]
      · simp [hb]
  | cons p t ih =>
    obtain ⟨k, x⟩ := p
    simp only [memWfFrom, Bool.and_eq_true, decide_eq_true_eq] at hm
    obtain ⟨⟨h1, h2⟩, h3⟩ := hm
    unfold memPut
    split
    · rename_i hak
      split
      · rename_i hv
        by_cases hb : b = a
        · subst hb; rw [if_pos rfl]; unfold memGet; rw [if_neg (by omega), if_pos (by omega)]; exact hv.symm
        · rw [if_neg hb]
      · by_cases hb : b = a
        · subst hb; simp [memGet]
        · rw [if_neg hb]
          conv => lhs; unfold memGet
          rw [if_neg hb]
          split
          · unfold memGet; rw [if_neg (by omega), if_pos (by omega)]
          · rfl
    · split
      · rename_i hk; subst hk
        split
        · rename_i hv
          by_cases hb : b = a
          · subst hb; rw [if_pos rfl]; rw [memGet_lt dflt t (b + 1) b (by omega) h3]; exact hv.symm
          · rw [if_neg hb]
            conv => rhs; unfold memGet
            rw [if_neg hb]
            split
            · exact memGet_lt dflt t (a + 1) b (by omega) h3
            · rfl
        · by_cases hb : b = a
          · subst hb; simp [memGet]
          · rw [if_neg hb]
            conv => lhs; unfold memGet
            conv => rhs; unfold memGet
            rw [if_neg hb]
            simp [hb]
      · conv => lhs; unfold memGet
        rw [ih (k + 1) h3]
        by_cases hb : b = a
        · subst hb; rw [if_neg (by omega), if_neg (by omega), if_pos rfl, if_pos rfl]
        · rw [if_neg hb, if_neg hb]
          rfl

/-- Reading back what a write wrote. -/
theorem memGet_put_same (m : Mem w) (a : Nat) (v : BitVec w) (hm : Memory.wf dflt m = true) :
    memGet dflt (memPut dflt m a v) a = v := by
  rw [memGet_put_from dflt m 0 a a v hm, if_pos rfl]

/-- A write leaves every other address alone. -/
theorem memGet_put_other (m : Mem w) (a b : Nat) (v : BitVec w) (hb : b ≠ a) (hm : Memory.wf dflt m = true) :
    memGet dflt (memPut dflt m a v) b = memGet dflt m b := by
  rw [memGet_put_from dflt m 0 a b v hm, if_neg hb]

/-- Every memory of the reset state lists nothing, so it has the canonical form. -/
theorem reset_memories : State.reset.mem = ⟨[], [], [], [], [], [], [], []⟩ := rfl

end Sys2Proof.Machine
end

