-- ==== Sys2Proof/Laws/State.lean ====
section
/-!
SUPPORT. What each operation on the state leaves alone: one lemma for each field that an operation does not touch, so that
no proof unfolds a record update.
-/
namespace Sys2Proof.Machine

section UpdCell
variable (s : State) (c : Fin 512) (f : Cell → Cell)
@[simp] theorem updCell_pending : (updCell s c f).pending = s.pending := rfl
@[simp] theorem updCell_freshN : (updCell s c f).freshN = s.freshN := rfl
@[simp] theorem updCell_agenda : (updCell s c f).agenda = s.agenda := rfl
@[simp] theorem updCell_time : (updCell s c f).time = s.time := rfl
@[simp] theorem updCell_par : (updCell s c f).par = s.par := rfl
@[simp] theorem updCell_mem : (updCell s c f).mem = s.mem := rfl
@[simp] theorem updCell_pins : (updCell s c f).pins = s.pins := rfl
@[simp] theorem updCell_sys : (updCell s c f).sys = s.sys := rfl
@[simp] theorem updCell_host : (updCell s c f).host = s.host := rfl
@[simp] theorem updCell_sup : (updCell s c f).sup = s.sup := rfl
@[simp] theorem updCell_flt : (updCell s c f).flt = s.flt := rfl
@[simp] theorem updCell_doms : (updCell s c f).doms = s.doms := rfl
@[simp] theorem updCell_trks : (updCell s c f).trks = s.trks := rfl
@[simp] theorem updCell_blks : (updCell s c f).blks = s.blks := rfl
@[simp] theorem updCell_bcar : (updCell s c f).bcar = s.bcar := rfl
@[simp] theorem updCell_gcar : (updCell s c f).gcar = s.gcar := rfl
@[simp] theorem updCell_chans : (updCell s c f).chans = s.chans := rfl
@[simp] theorem updCell_pes : (updCell s c f).pes = s.pes := rfl
@[simp] theorem updCell_adcs : (updCell s c f).adcs = s.adcs := rfl
@[simp] theorem updCell_seqs : (updCell s c f).seqs = s.seqs := rfl
@[simp] theorem updCell_comps : (updCell s c f).comps = s.comps := rfl
@[simp] theorem updCell_life : (updCell s c f).life = s.life := rfl
@[simp] theorem updCell_mons : (updCell s c f).mons = s.mons := rfl
@[simp] theorem updCell_elc : (updCell s c f).elc = s.elc := rfl
@[simp] theorem updCell_boot : (updCell s c f).boot = s.boot := rfl
@[simp] theorem updCell_sec : (updCell s c f).sec = s.sec := rfl
@[simp] theorem updCell_excs : (updCell s c f).excs = s.excs := rfl
end UpdCell

section UpdDom
variable (s : State) (d : Fin 16) (f : Dom → Dom)
@[simp] theorem updDom_pending : (updDom s d f).pending = s.pending := rfl
@[simp] theorem updDom_freshN : (updDom s d f).freshN = s.freshN := rfl
@[simp] theorem updDom_agenda : (updDom s d f).agenda = s.agenda := rfl
@[simp] theorem updDom_time : (updDom s d f).time = s.time := rfl
@[simp] theorem updDom_par : (updDom s d f).par = s.par := rfl
@[simp] theorem updDom_mem : (updDom s d f).mem = s.mem := rfl
@[simp] theorem updDom_pins : (updDom s d f).pins = s.pins := rfl
@[simp] theorem updDom_sys : (updDom s d f).sys = s.sys := rfl
@[simp] theorem updDom_host : (updDom s d f).host = s.host := rfl
@[simp] theorem updDom_sup : (updDom s d f).sup = s.sup := rfl
@[simp] theorem updDom_flt : (updDom s d f).flt = s.flt := rfl
@[simp] theorem updDom_cells : (updDom s d f).cells = s.cells := rfl
@[simp] theorem updDom_trks : (updDom s d f).trks = s.trks := rfl
@[simp] theorem updDom_blks : (updDom s d f).blks = s.blks := rfl
@[simp] theorem updDom_bcar : (updDom s d f).bcar = s.bcar := rfl
@[simp] theorem updDom_gcar : (updDom s d f).gcar = s.gcar := rfl
@[simp] theorem updDom_chans : (updDom s d f).chans = s.chans := rfl
@[simp] theorem updDom_pes : (updDom s d f).pes = s.pes := rfl
@[simp] theorem updDom_adcs : (updDom s d f).adcs = s.adcs := rfl
@[simp] theorem updDom_seqs : (updDom s d f).seqs = s.seqs := rfl
@[simp] theorem updDom_comps : (updDom s d f).comps = s.comps := rfl
@[simp] theorem updDom_life : (updDom s d f).life = s.life := rfl
@[simp] theorem updDom_mons : (updDom s d f).mons = s.mons := rfl
@[simp] theorem updDom_elc : (updDom s d f).elc = s.elc := rfl
@[simp] theorem updDom_boot : (updDom s d f).boot = s.boot := rfl
@[simp] theorem updDom_sec : (updDom s d f).sec = s.sec := rfl
@[simp] theorem updDom_excs : (updDom s d f).excs = s.excs := rfl
end UpdDom

section UpdTrk
variable (s : State) (k : Fin 16) (f : Tracker → Tracker)
@[simp] theorem updTrk_pending : (updTrk s k f).pending = s.pending := rfl
@[simp] theorem updTrk_freshN : (updTrk s k f).freshN = s.freshN := rfl
@[simp] theorem updTrk_agenda : (updTrk s k f).agenda = s.agenda := rfl
@[simp] theorem updTrk_time : (updTrk s k f).time = s.time := rfl
@[simp] theorem updTrk_par : (updTrk s k f).par = s.par := rfl
@[simp] theorem updTrk_mem : (updTrk s k f).mem = s.mem := rfl
@[simp] theorem updTrk_pins : (updTrk s k f).pins = s.pins := rfl
@[simp] theorem updTrk_sys : (updTrk s k f).sys = s.sys := rfl
@[simp] theorem updTrk_host : (updTrk s k f).host = s.host := rfl
@[simp] theorem updTrk_sup : (updTrk s k f).sup = s.sup := rfl
@[simp] theorem updTrk_flt : (updTrk s k f).flt = s.flt := rfl
@[simp] theorem updTrk_cells : (updTrk s k f).cells = s.cells := rfl
@[simp] theorem updTrk_doms : (updTrk s k f).doms = s.doms := rfl
@[simp] theorem updTrk_blks : (updTrk s k f).blks = s.blks := rfl
@[simp] theorem updTrk_bcar : (updTrk s k f).bcar = s.bcar := rfl
@[simp] theorem updTrk_gcar : (updTrk s k f).gcar = s.gcar := rfl
@[simp] theorem updTrk_chans : (updTrk s k f).chans = s.chans := rfl
@[simp] theorem updTrk_pes : (updTrk s k f).pes = s.pes := rfl
@[simp] theorem updTrk_adcs : (updTrk s k f).adcs = s.adcs := rfl
@[simp] theorem updTrk_seqs : (updTrk s k f).seqs = s.seqs := rfl
@[simp] theorem updTrk_comps : (updTrk s k f).comps = s.comps := rfl
@[simp] theorem updTrk_life : (updTrk s k f).life = s.life := rfl
@[simp] theorem updTrk_mons : (updTrk s k f).mons = s.mons := rfl
@[simp] theorem updTrk_elc : (updTrk s k f).elc = s.elc := rfl
@[simp] theorem updTrk_boot : (updTrk s k f).boot = s.boot := rfl
@[simp] theorem updTrk_sec : (updTrk s k f).sec = s.sec := rfl
@[simp] theorem updTrk_excs : (updTrk s k f).excs = s.excs := rfl
end UpdTrk

section UpdBlk
variable (s : State) (b : Fin 32) (f : Block → Block)
@[simp] theorem updBlk_pending : (updBlk s b f).pending = s.pending := rfl
@[simp] theorem updBlk_freshN : (updBlk s b f).freshN = s.freshN := rfl
@[simp] theorem updBlk_agenda : (updBlk s b f).agenda = s.agenda := rfl
@[simp] theorem updBlk_time : (updBlk s b f).time = s.time := rfl
@[simp] theorem updBlk_par : (updBlk s b f).par = s.par := rfl
@[simp] theorem updBlk_mem : (updBlk s b f).mem = s.mem := rfl
@[simp] theorem updBlk_pins : (updBlk s b f).pins = s.pins := rfl
@[simp] theorem updBlk_sys : (updBlk s b f).sys = s.sys := rfl
@[simp] theorem updBlk_host : (updBlk s b f).host = s.host := rfl
@[simp] theorem updBlk_sup : (updBlk s b f).sup = s.sup := rfl
@[simp] theorem updBlk_flt : (updBlk s b f).flt = s.flt := rfl
@[simp] theorem updBlk_cells : (updBlk s b f).cells = s.cells := rfl
@[simp] theorem updBlk_doms : (updBlk s b f).doms = s.doms := rfl
@[simp] theorem updBlk_trks : (updBlk s b f).trks = s.trks := rfl
@[simp] theorem updBlk_bcar : (updBlk s b f).bcar = s.bcar := rfl
@[simp] theorem updBlk_gcar : (updBlk s b f).gcar = s.gcar := rfl
@[simp] theorem updBlk_chans : (updBlk s b f).chans = s.chans := rfl
@[simp] theorem updBlk_pes : (updBlk s b f).pes = s.pes := rfl
@[simp] theorem updBlk_adcs : (updBlk s b f).adcs = s.adcs := rfl
@[simp] theorem updBlk_seqs : (updBlk s b f).seqs = s.seqs := rfl
@[simp] theorem updBlk_comps : (updBlk s b f).comps = s.comps := rfl
@[simp] theorem updBlk_life : (updBlk s b f).life = s.life := rfl
@[simp] theorem updBlk_mons : (updBlk s b f).mons = s.mons := rfl
@[simp] theorem updBlk_elc : (updBlk s b f).elc = s.elc := rfl
@[simp] theorem updBlk_boot : (updBlk s b f).boot = s.boot := rfl
@[simp] theorem updBlk_sec : (updBlk s b f).sec = s.sec := rfl
@[simp] theorem updBlk_excs : (updBlk s b f).excs = s.excs := rfl
end UpdBlk

section UpdChan
variable (s : State) (c : Fin 64) (f : Channel → Channel)
@[simp] theorem updChan_pending : (updChan s c f).pending = s.pending := rfl
@[simp] theorem updChan_freshN : (updChan s c f).freshN = s.freshN := rfl
@[simp] theorem updChan_agenda : (updChan s c f).agenda = s.agenda := rfl
@[simp] theorem updChan_time : (updChan s c f).time = s.time := rfl
@[simp] theorem updChan_par : (updChan s c f).par = s.par := rfl
@[simp] theorem updChan_mem : (updChan s c f).mem = s.mem := rfl
@[simp] theorem updChan_pins : (updChan s c f).pins = s.pins := rfl
@[simp] theorem updChan_sys : (updChan s c f).sys = s.sys := rfl
@[simp] theorem updChan_host : (updChan s c f).host = s.host := rfl
@[simp] theorem updChan_sup : (updChan s c f).sup = s.sup := rfl
@[simp] theorem updChan_flt : (updChan s c f).flt = s.flt := rfl
@[simp] theorem updChan_cells : (updChan s c f).cells = s.cells := rfl
@[simp] theorem updChan_doms : (updChan s c f).doms = s.doms := rfl
@[simp] theorem updChan_trks : (updChan s c f).trks = s.trks := rfl
@[simp] theorem updChan_blks : (updChan s c f).blks = s.blks := rfl
@[simp] theorem updChan_bcar : (updChan s c f).bcar = s.bcar := rfl
@[simp] theorem updChan_gcar : (updChan s c f).gcar = s.gcar := rfl
@[simp] theorem updChan_pes : (updChan s c f).pes = s.pes := rfl
@[simp] theorem updChan_adcs : (updChan s c f).adcs = s.adcs := rfl
@[simp] theorem updChan_seqs : (updChan s c f).seqs = s.seqs := rfl
@[simp] theorem updChan_comps : (updChan s c f).comps = s.comps := rfl
@[simp] theorem updChan_life : (updChan s c f).life = s.life := rfl
@[simp] theorem updChan_mons : (updChan s c f).mons = s.mons := rfl
@[simp] theorem updChan_elc : (updChan s c f).elc = s.elc := rfl
@[simp] theorem updChan_boot : (updChan s c f).boot = s.boot := rfl
@[simp] theorem updChan_sec : (updChan s c f).sec = s.sec := rfl
@[simp] theorem updChan_excs : (updChan s c f).excs = s.excs := rfl
end UpdChan

section UpdAdc
variable (s : State) (a : Fin 32) (f : Converter → Converter)
@[simp] theorem updAdc_pending : (updAdc s a f).pending = s.pending := rfl
@[simp] theorem updAdc_freshN : (updAdc s a f).freshN = s.freshN := rfl
@[simp] theorem updAdc_agenda : (updAdc s a f).agenda = s.agenda := rfl
@[simp] theorem updAdc_time : (updAdc s a f).time = s.time := rfl
@[simp] theorem updAdc_par : (updAdc s a f).par = s.par := rfl
@[simp] theorem updAdc_mem : (updAdc s a f).mem = s.mem := rfl
@[simp] theorem updAdc_pins : (updAdc s a f).pins = s.pins := rfl
@[simp] theorem updAdc_sys : (updAdc s a f).sys = s.sys := rfl
@[simp] theorem updAdc_host : (updAdc s a f).host = s.host := rfl
@[simp] theorem updAdc_sup : (updAdc s a f).sup = s.sup := rfl
@[simp] theorem updAdc_flt : (updAdc s a f).flt = s.flt := rfl
@[simp] theorem updAdc_cells : (updAdc s a f).cells = s.cells := rfl
@[simp] theorem updAdc_doms : (updAdc s a f).doms = s.doms := rfl
@[simp] theorem updAdc_trks : (updAdc s a f).trks = s.trks := rfl
@[simp] theorem updAdc_blks : (updAdc s a f).blks = s.blks := rfl
@[simp] theorem updAdc_bcar : (updAdc s a f).bcar = s.bcar := rfl
@[simp] theorem updAdc_gcar : (updAdc s a f).gcar = s.gcar := rfl
@[simp] theorem updAdc_chans : (updAdc s a f).chans = s.chans := rfl
@[simp] theorem updAdc_pes : (updAdc s a f).pes = s.pes := rfl
@[simp] theorem updAdc_seqs : (updAdc s a f).seqs = s.seqs := rfl
@[simp] theorem updAdc_comps : (updAdc s a f).comps = s.comps := rfl
@[simp] theorem updAdc_life : (updAdc s a f).life = s.life := rfl
@[simp] theorem updAdc_mons : (updAdc s a f).mons = s.mons := rfl
@[simp] theorem updAdc_elc : (updAdc s a f).elc = s.elc := rfl
@[simp] theorem updAdc_boot : (updAdc s a f).boot = s.boot := rfl
@[simp] theorem updAdc_sec : (updAdc s a f).sec = s.sec := rfl
@[simp] theorem updAdc_excs : (updAdc s a f).excs = s.excs := rfl
end UpdAdc

section UpdSeq
variable (s : State) (r : Fin 4) (f : Sequencer → Sequencer)
@[simp] theorem updSeq_pending : (updSeq s r f).pending = s.pending := rfl
@[simp] theorem updSeq_freshN : (updSeq s r f).freshN = s.freshN := rfl
@[simp] theorem updSeq_agenda : (updSeq s r f).agenda = s.agenda := rfl
@[simp] theorem updSeq_time : (updSeq s r f).time = s.time := rfl
@[simp] theorem updSeq_par : (updSeq s r f).par = s.par := rfl
@[simp] theorem updSeq_mem : (updSeq s r f).mem = s.mem := rfl
@[simp] theorem updSeq_pins : (updSeq s r f).pins = s.pins := rfl
@[simp] theorem updSeq_sys : (updSeq s r f).sys = s.sys := rfl
@[simp] theorem updSeq_host : (updSeq s r f).host = s.host := rfl
@[simp] theorem updSeq_sup : (updSeq s r f).sup = s.sup := rfl
@[simp] theorem updSeq_flt : (updSeq s r f).flt = s.flt := rfl
@[simp] theorem updSeq_cells : (updSeq s r f).cells = s.cells := rfl
@[simp] theorem updSeq_doms : (updSeq s r f).doms = s.doms := rfl
@[simp] theorem updSeq_trks : (updSeq s r f).trks = s.trks := rfl
@[simp] theorem updSeq_blks : (updSeq s r f).blks = s.blks := rfl
@[simp] theorem updSeq_bcar : (updSeq s r f).bcar = s.bcar := rfl
@[simp] theorem updSeq_gcar : (updSeq s r f).gcar = s.gcar := rfl
@[simp] theorem updSeq_chans : (updSeq s r f).chans = s.chans := rfl
@[simp] theorem updSeq_pes : (updSeq s r f).pes = s.pes := rfl
@[simp] theorem updSeq_adcs : (updSeq s r f).adcs = s.adcs := rfl
@[simp] theorem updSeq_comps : (updSeq s r f).comps = s.comps := rfl
@[simp] theorem updSeq_life : (updSeq s r f).life = s.life := rfl
@[simp] theorem updSeq_mons : (updSeq s r f).mons = s.mons := rfl
@[simp] theorem updSeq_elc : (updSeq s r f).elc = s.elc := rfl
@[simp] theorem updSeq_boot : (updSeq s r f).boot = s.boot := rfl
@[simp] theorem updSeq_sec : (updSeq s r f).sec = s.sec := rfl
@[simp] theorem updSeq_excs : (updSeq s r f).excs = s.excs := rfl
end UpdSeq

section UpdComp
variable (s : State) (w : Fin 64) (f : Comparator → Comparator)
@[simp] theorem updComp_pending : (updComp s w f).pending = s.pending := rfl
@[simp] theorem updComp_freshN : (updComp s w f).freshN = s.freshN := rfl
@[simp] theorem updComp_agenda : (updComp s w f).agenda = s.agenda := rfl
@[simp] theorem updComp_time : (updComp s w f).time = s.time := rfl
@[simp] theorem updComp_par : (updComp s w f).par = s.par := rfl
@[simp] theorem updComp_mem : (updComp s w f).mem = s.mem := rfl
@[simp] theorem updComp_pins : (updComp s w f).pins = s.pins := rfl
@[simp] theorem updComp_sys : (updComp s w f).sys = s.sys := rfl
@[simp] theorem updComp_host : (updComp s w f).host = s.host := rfl
@[simp] theorem updComp_sup : (updComp s w f).sup = s.sup := rfl
@[simp] theorem updComp_flt : (updComp s w f).flt = s.flt := rfl
@[simp] theorem updComp_cells : (updComp s w f).cells = s.cells := rfl
@[simp] theorem updComp_doms : (updComp s w f).doms = s.doms := rfl
@[simp] theorem updComp_trks : (updComp s w f).trks = s.trks := rfl
@[simp] theorem updComp_blks : (updComp s w f).blks = s.blks := rfl
@[simp] theorem updComp_bcar : (updComp s w f).bcar = s.bcar := rfl
@[simp] theorem updComp_gcar : (updComp s w f).gcar = s.gcar := rfl
@[simp] theorem updComp_chans : (updComp s w f).chans = s.chans := rfl
@[simp] theorem updComp_pes : (updComp s w f).pes = s.pes := rfl
@[simp] theorem updComp_adcs : (updComp s w f).adcs = s.adcs := rfl
@[simp] theorem updComp_seqs : (updComp s w f).seqs = s.seqs := rfl
@[simp] theorem updComp_life : (updComp s w f).life = s.life := rfl
@[simp] theorem updComp_mons : (updComp s w f).mons = s.mons := rfl
@[simp] theorem updComp_elc : (updComp s w f).elc = s.elc := rfl
@[simp] theorem updComp_boot : (updComp s w f).boot = s.boot := rfl
@[simp] theorem updComp_sec : (updComp s w f).sec = s.sec := rfl
@[simp] theorem updComp_excs : (updComp s w f).excs = s.excs := rfl
end UpdComp

section UpdPe
variable (s : State) (p : Fin 32) (f : Pewter → Pewter)
@[simp] theorem updPe_pending : (updPe s p f).pending = s.pending := rfl
@[simp] theorem updPe_freshN : (updPe s p f).freshN = s.freshN := rfl
@[simp] theorem updPe_agenda : (updPe s p f).agenda = s.agenda := rfl
@[simp] theorem updPe_time : (updPe s p f).time = s.time := rfl
@[simp] theorem updPe_par : (updPe s p f).par = s.par := rfl
@[simp] theorem updPe_mem : (updPe s p f).mem = s.mem := rfl
@[simp] theorem updPe_pins : (updPe s p f).pins = s.pins := rfl
@[simp] theorem updPe_sys : (updPe s p f).sys = s.sys := rfl
@[simp] theorem updPe_host : (updPe s p f).host = s.host := rfl
@[simp] theorem updPe_sup : (updPe s p f).sup = s.sup := rfl
@[simp] theorem updPe_flt : (updPe s p f).flt = s.flt := rfl
@[simp] theorem updPe_cells : (updPe s p f).cells = s.cells := rfl
@[simp] theorem updPe_doms : (updPe s p f).doms = s.doms := rfl
@[simp] theorem updPe_trks : (updPe s p f).trks = s.trks := rfl
@[simp] theorem updPe_blks : (updPe s p f).blks = s.blks := rfl
@[simp] theorem updPe_bcar : (updPe s p f).bcar = s.bcar := rfl
@[simp] theorem updPe_gcar : (updPe s p f).gcar = s.gcar := rfl
@[simp] theorem updPe_chans : (updPe s p f).chans = s.chans := rfl
@[simp] theorem updPe_adcs : (updPe s p f).adcs = s.adcs := rfl
@[simp] theorem updPe_seqs : (updPe s p f).seqs = s.seqs := rfl
@[simp] theorem updPe_comps : (updPe s p f).comps = s.comps := rfl
@[simp] theorem updPe_life : (updPe s p f).life = s.life := rfl
@[simp] theorem updPe_mons : (updPe s p f).mons = s.mons := rfl
@[simp] theorem updPe_elc : (updPe s p f).elc = s.elc := rfl
@[simp] theorem updPe_boot : (updPe s p f).boot = s.boot := rfl
@[simp] theorem updPe_sec : (updPe s p f).sec = s.sec := rfl
@[simp] theorem updPe_excs : (updPe s p f).excs = s.excs := rfl
end UpdPe

section UpdExc
variable (s : State) (n : Fin 8) (f : Exc → Exc)
@[simp] theorem updExc_pending : (updExc s n f).pending = s.pending := rfl
@[simp] theorem updExc_freshN : (updExc s n f).freshN = s.freshN := rfl
@[simp] theorem updExc_agenda : (updExc s n f).agenda = s.agenda := rfl
@[simp] theorem updExc_time : (updExc s n f).time = s.time := rfl
@[simp] theorem updExc_par : (updExc s n f).par = s.par := rfl
@[simp] theorem updExc_mem : (updExc s n f).mem = s.mem := rfl
@[simp] theorem updExc_pins : (updExc s n f).pins = s.pins := rfl
@[simp] theorem updExc_sys : (updExc s n f).sys = s.sys := rfl
@[simp] theorem updExc_host : (updExc s n f).host = s.host := rfl
@[simp] theorem updExc_sup : (updExc s n f).sup = s.sup := rfl
@[simp] theorem updExc_flt : (updExc s n f).flt = s.flt := rfl
@[simp] theorem updExc_cells : (updExc s n f).cells = s.cells := rfl
@[simp] theorem updExc_doms : (updExc s n f).doms = s.doms := rfl
@[simp] theorem updExc_trks : (updExc s n f).trks = s.trks := rfl
@[simp] theorem updExc_blks : (updExc s n f).blks = s.blks := rfl
@[simp] theorem updExc_bcar : (updExc s n f).bcar = s.bcar := rfl
@[simp] theorem updExc_gcar : (updExc s n f).gcar = s.gcar := rfl
@[simp] theorem updExc_chans : (updExc s n f).chans = s.chans := rfl
@[simp] theorem updExc_pes : (updExc s n f).pes = s.pes := rfl
@[simp] theorem updExc_adcs : (updExc s n f).adcs = s.adcs := rfl
@[simp] theorem updExc_seqs : (updExc s n f).seqs = s.seqs := rfl
@[simp] theorem updExc_comps : (updExc s n f).comps = s.comps := rfl
@[simp] theorem updExc_life : (updExc s n f).life = s.life := rfl
@[simp] theorem updExc_mons : (updExc s n f).mons = s.mons := rfl
@[simp] theorem updExc_elc : (updExc s n f).elc = s.elc := rfl
@[simp] theorem updExc_boot : (updExc s n f).boot = s.boot := rfl
@[simp] theorem updExc_sec : (updExc s n f).sec = s.sec := rfl
end UpdExc

section UpdFlt
variable (s : State) (f : Collector → Collector)
@[simp] theorem updFlt_pending : (updFlt s f).pending = s.pending := rfl
@[simp] theorem updFlt_freshN : (updFlt s f).freshN = s.freshN := rfl
@[simp] theorem updFlt_agenda : (updFlt s f).agenda = s.agenda := rfl
@[simp] theorem updFlt_time : (updFlt s f).time = s.time := rfl
@[simp] theorem updFlt_par : (updFlt s f).par = s.par := rfl
@[simp] theorem updFlt_mem : (updFlt s f).mem = s.mem := rfl
@[simp] theorem updFlt_pins : (updFlt s f).pins = s.pins := rfl
@[simp] theorem updFlt_sys : (updFlt s f).sys = s.sys := rfl
@[simp] theorem updFlt_host : (updFlt s f).host = s.host := rfl
@[simp] theorem updFlt_sup : (updFlt s f).sup = s.sup := rfl
@[simp] theorem updFlt_cells : (updFlt s f).cells = s.cells := rfl
@[simp] theorem updFlt_doms : (updFlt s f).doms = s.doms := rfl
@[simp] theorem updFlt_trks : (updFlt s f).trks = s.trks := rfl
@[simp] theorem updFlt_blks : (updFlt s f).blks = s.blks := rfl
@[simp] theorem updFlt_bcar : (updFlt s f).bcar = s.bcar := rfl
@[simp] theorem updFlt_gcar : (updFlt s f).gcar = s.gcar := rfl
@[simp] theorem updFlt_chans : (updFlt s f).chans = s.chans := rfl
@[simp] theorem updFlt_pes : (updFlt s f).pes = s.pes := rfl
@[simp] theorem updFlt_adcs : (updFlt s f).adcs = s.adcs := rfl
@[simp] theorem updFlt_seqs : (updFlt s f).seqs = s.seqs := rfl
@[simp] theorem updFlt_comps : (updFlt s f).comps = s.comps := rfl
@[simp] theorem updFlt_life : (updFlt s f).life = s.life := rfl
@[simp] theorem updFlt_mons : (updFlt s f).mons = s.mons := rfl
@[simp] theorem updFlt_elc : (updFlt s f).elc = s.elc := rfl
@[simp] theorem updFlt_boot : (updFlt s f).boot = s.boot := rfl
@[simp] theorem updFlt_sec : (updFlt s f).sec = s.sec := rfl
@[simp] theorem updFlt_excs : (updFlt s f).excs = s.excs := rfl
end UpdFlt

section UpdHost
variable (s : State) (f : HostIf → HostIf)
@[simp] theorem updHost_pending : (updHost s f).pending = s.pending := rfl
@[simp] theorem updHost_freshN : (updHost s f).freshN = s.freshN := rfl
@[simp] theorem updHost_agenda : (updHost s f).agenda = s.agenda := rfl
@[simp] theorem updHost_time : (updHost s f).time = s.time := rfl
@[simp] theorem updHost_par : (updHost s f).par = s.par := rfl
@[simp] theorem updHost_mem : (updHost s f).mem = s.mem := rfl
@[simp] theorem updHost_pins : (updHost s f).pins = s.pins := rfl
@[simp] theorem updHost_sys : (updHost s f).sys = s.sys := rfl
@[simp] theorem updHost_sup : (updHost s f).sup = s.sup := rfl
@[simp] theorem updHost_flt : (updHost s f).flt = s.flt := rfl
@[simp] theorem updHost_cells : (updHost s f).cells = s.cells := rfl
@[simp] theorem updHost_doms : (updHost s f).doms = s.doms := rfl
@[simp] theorem updHost_trks : (updHost s f).trks = s.trks := rfl
@[simp] theorem updHost_blks : (updHost s f).blks = s.blks := rfl
@[simp] theorem updHost_bcar : (updHost s f).bcar = s.bcar := rfl
@[simp] theorem updHost_gcar : (updHost s f).gcar = s.gcar := rfl
@[simp] theorem updHost_chans : (updHost s f).chans = s.chans := rfl
@[simp] theorem updHost_pes : (updHost s f).pes = s.pes := rfl
@[simp] theorem updHost_adcs : (updHost s f).adcs = s.adcs := rfl
@[simp] theorem updHost_seqs : (updHost s f).seqs = s.seqs := rfl
@[simp] theorem updHost_comps : (updHost s f).comps = s.comps := rfl
@[simp] theorem updHost_life : (updHost s f).life = s.life := rfl
@[simp] theorem updHost_mons : (updHost s f).mons = s.mons := rfl
@[simp] theorem updHost_elc : (updHost s f).elc = s.elc := rfl
@[simp] theorem updHost_boot : (updHost s f).boot = s.boot := rfl
@[simp] theorem updHost_sec : (updHost s f).sec = s.sec := rfl
@[simp] theorem updHost_excs : (updHost s f).excs = s.excs := rfl
end UpdHost

section UpdElc
variable (s : State) (f : Electrum → Electrum)
@[simp] theorem updElc_pending : (updElc s f).pending = s.pending := rfl
@[simp] theorem updElc_freshN : (updElc s f).freshN = s.freshN := rfl
@[simp] theorem updElc_agenda : (updElc s f).agenda = s.agenda := rfl
@[simp] theorem updElc_time : (updElc s f).time = s.time := rfl
@[simp] theorem updElc_par : (updElc s f).par = s.par := rfl
@[simp] theorem updElc_mem : (updElc s f).mem = s.mem := rfl
@[simp] theorem updElc_pins : (updElc s f).pins = s.pins := rfl
@[simp] theorem updElc_sys : (updElc s f).sys = s.sys := rfl
@[simp] theorem updElc_host : (updElc s f).host = s.host := rfl
@[simp] theorem updElc_sup : (updElc s f).sup = s.sup := rfl
@[simp] theorem updElc_flt : (updElc s f).flt = s.flt := rfl
@[simp] theorem updElc_cells : (updElc s f).cells = s.cells := rfl
@[simp] theorem updElc_doms : (updElc s f).doms = s.doms := rfl
@[simp] theorem updElc_trks : (updElc s f).trks = s.trks := rfl
@[simp] theorem updElc_blks : (updElc s f).blks = s.blks := rfl
@[simp] theorem updElc_bcar : (updElc s f).bcar = s.bcar := rfl
@[simp] theorem updElc_gcar : (updElc s f).gcar = s.gcar := rfl
@[simp] theorem updElc_chans : (updElc s f).chans = s.chans := rfl
@[simp] theorem updElc_pes : (updElc s f).pes = s.pes := rfl
@[simp] theorem updElc_adcs : (updElc s f).adcs = s.adcs := rfl
@[simp] theorem updElc_seqs : (updElc s f).seqs = s.seqs := rfl
@[simp] theorem updElc_comps : (updElc s f).comps = s.comps := rfl
@[simp] theorem updElc_life : (updElc s f).life = s.life := rfl
@[simp] theorem updElc_mons : (updElc s f).mons = s.mons := rfl
@[simp] theorem updElc_boot : (updElc s f).boot = s.boot := rfl
@[simp] theorem updElc_sec : (updElc s f).sec = s.sec := rfl
@[simp] theorem updElc_excs : (updElc s f).excs = s.excs := rfl
end UpdElc

section UpdSec
variable (s : State) (f : Secure → Secure)
@[simp] theorem updSec_pending : (updSec s f).pending = s.pending := rfl
@[simp] theorem updSec_freshN : (updSec s f).freshN = s.freshN := rfl
@[simp] theorem updSec_agenda : (updSec s f).agenda = s.agenda := rfl
@[simp] theorem updSec_time : (updSec s f).time = s.time := rfl
@[simp] theorem updSec_par : (updSec s f).par = s.par := rfl
@[simp] theorem updSec_mem : (updSec s f).mem = s.mem := rfl
@[simp] theorem updSec_pins : (updSec s f).pins = s.pins := rfl
@[simp] theorem updSec_sys : (updSec s f).sys = s.sys := rfl
@[simp] theorem updSec_host : (updSec s f).host = s.host := rfl
@[simp] theorem updSec_sup : (updSec s f).sup = s.sup := rfl
@[simp] theorem updSec_flt : (updSec s f).flt = s.flt := rfl
@[simp] theorem updSec_cells : (updSec s f).cells = s.cells := rfl
@[simp] theorem updSec_doms : (updSec s f).doms = s.doms := rfl
@[simp] theorem updSec_trks : (updSec s f).trks = s.trks := rfl
@[simp] theorem updSec_blks : (updSec s f).blks = s.blks := rfl
@[simp] theorem updSec_bcar : (updSec s f).bcar = s.bcar := rfl
@[simp] theorem updSec_gcar : (updSec s f).gcar = s.gcar := rfl
@[simp] theorem updSec_chans : (updSec s f).chans = s.chans := rfl
@[simp] theorem updSec_pes : (updSec s f).pes = s.pes := rfl
@[simp] theorem updSec_adcs : (updSec s f).adcs = s.adcs := rfl
@[simp] theorem updSec_seqs : (updSec s f).seqs = s.seqs := rfl
@[simp] theorem updSec_comps : (updSec s f).comps = s.comps := rfl
@[simp] theorem updSec_life : (updSec s f).life = s.life := rfl
@[simp] theorem updSec_mons : (updSec s f).mons = s.mons := rfl
@[simp] theorem updSec_elc : (updSec s f).elc = s.elc := rfl
@[simp] theorem updSec_boot : (updSec s f).boot = s.boot := rfl
@[simp] theorem updSec_excs : (updSec s f).excs = s.excs := rfl
end UpdSec

section UpdLife
variable (s : State) (f : Life → Life)
@[simp] theorem updLife_pending : (updLife s f).pending = s.pending := rfl
@[simp] theorem updLife_freshN : (updLife s f).freshN = s.freshN := rfl
@[simp] theorem updLife_agenda : (updLife s f).agenda = s.agenda := rfl
@[simp] theorem updLife_time : (updLife s f).time = s.time := rfl
@[simp] theorem updLife_par : (updLife s f).par = s.par := rfl
@[simp] theorem updLife_mem : (updLife s f).mem = s.mem := rfl
@[simp] theorem updLife_pins : (updLife s f).pins = s.pins := rfl
@[simp] theorem updLife_sys : (updLife s f).sys = s.sys := rfl
@[simp] theorem updLife_host : (updLife s f).host = s.host := rfl
@[simp] theorem updLife_sup : (updLife s f).sup = s.sup := rfl
@[simp] theorem updLife_flt : (updLife s f).flt = s.flt := rfl
@[simp] theorem updLife_cells : (updLife s f).cells = s.cells := rfl
@[simp] theorem updLife_doms : (updLife s f).doms = s.doms := rfl
@[simp] theorem updLife_trks : (updLife s f).trks = s.trks := rfl
@[simp] theorem updLife_blks : (updLife s f).blks = s.blks := rfl
@[simp] theorem updLife_bcar : (updLife s f).bcar = s.bcar := rfl
@[simp] theorem updLife_gcar : (updLife s f).gcar = s.gcar := rfl
@[simp] theorem updLife_chans : (updLife s f).chans = s.chans := rfl
@[simp] theorem updLife_pes : (updLife s f).pes = s.pes := rfl
@[simp] theorem updLife_adcs : (updLife s f).adcs = s.adcs := rfl
@[simp] theorem updLife_seqs : (updLife s f).seqs = s.seqs := rfl
@[simp] theorem updLife_comps : (updLife s f).comps = s.comps := rfl
@[simp] theorem updLife_mons : (updLife s f).mons = s.mons := rfl
@[simp] theorem updLife_elc : (updLife s f).elc = s.elc := rfl
@[simp] theorem updLife_boot : (updLife s f).boot = s.boot := rfl
@[simp] theorem updLife_sec : (updLife s f).sec = s.sec := rfl
@[simp] theorem updLife_excs : (updLife s f).excs = s.excs := rfl
end UpdLife

section UpdClk
variable (s : State) (f : Clock → Clock)
@[simp] theorem updClk_pending : (updClk s f).pending = s.pending := rfl
@[simp] theorem updClk_freshN : (updClk s f).freshN = s.freshN := rfl
@[simp] theorem updClk_agenda : (updClk s f).agenda = s.agenda := rfl
@[simp] theorem updClk_par : (updClk s f).par = s.par := rfl
@[simp] theorem updClk_mem : (updClk s f).mem = s.mem := rfl
@[simp] theorem updClk_pins : (updClk s f).pins = s.pins := rfl
@[simp] theorem updClk_sys : (updClk s f).sys = s.sys := rfl
@[simp] theorem updClk_host : (updClk s f).host = s.host := rfl
@[simp] theorem updClk_sup : (updClk s f).sup = s.sup := rfl
@[simp] theorem updClk_flt : (updClk s f).flt = s.flt := rfl
@[simp] theorem updClk_cells : (updClk s f).cells = s.cells := rfl
@[simp] theorem updClk_doms : (updClk s f).doms = s.doms := rfl
@[simp] theorem updClk_trks : (updClk s f).trks = s.trks := rfl
@[simp] theorem updClk_blks : (updClk s f).blks = s.blks := rfl
@[simp] theorem updClk_bcar : (updClk s f).bcar = s.bcar := rfl
@[simp] theorem updClk_gcar : (updClk s f).gcar = s.gcar := rfl
@[simp] theorem updClk_chans : (updClk s f).chans = s.chans := rfl
@[simp] theorem updClk_pes : (updClk s f).pes = s.pes := rfl
@[simp] theorem updClk_adcs : (updClk s f).adcs = s.adcs := rfl
@[simp] theorem updClk_seqs : (updClk s f).seqs = s.seqs := rfl
@[simp] theorem updClk_comps : (updClk s f).comps = s.comps := rfl
@[simp] theorem updClk_life : (updClk s f).life = s.life := rfl
@[simp] theorem updClk_mons : (updClk s f).mons = s.mons := rfl
@[simp] theorem updClk_elc : (updClk s f).elc = s.elc := rfl
@[simp] theorem updClk_boot : (updClk s f).boot = s.boot := rfl
@[simp] theorem updClk_sec : (updClk s f).sec = s.sec := rfl
@[simp] theorem updClk_excs : (updClk s f).excs = s.excs := rfl
end UpdClk

section UpdSub
variable (s : State) (r : Fin 16) (f : SubRing → SubRing)
@[simp] theorem updSub_pending : (updSub s r f).pending = s.pending := rfl
@[simp] theorem updSub_freshN : (updSub s r f).freshN = s.freshN := rfl
@[simp] theorem updSub_agenda : (updSub s r f).agenda = s.agenda := rfl
@[simp] theorem updSub_time : (updSub s r f).time = s.time := rfl
@[simp] theorem updSub_par : (updSub s r f).par = s.par := rfl
@[simp] theorem updSub_mem : (updSub s r f).mem = s.mem := rfl
@[simp] theorem updSub_pins : (updSub s r f).pins = s.pins := rfl
@[simp] theorem updSub_sys : (updSub s r f).sys = s.sys := rfl
@[simp] theorem updSub_sup : (updSub s r f).sup = s.sup := rfl
@[simp] theorem updSub_flt : (updSub s r f).flt = s.flt := rfl
@[simp] theorem updSub_cells : (updSub s r f).cells = s.cells := rfl
@[simp] theorem updSub_doms : (updSub s r f).doms = s.doms := rfl
@[simp] theorem updSub_trks : (updSub s r f).trks = s.trks := rfl
@[simp] theorem updSub_blks : (updSub s r f).blks = s.blks := rfl
@[simp] theorem updSub_bcar : (updSub s r f).bcar = s.bcar := rfl
@[simp] theorem updSub_gcar : (updSub s r f).gcar = s.gcar := rfl
@[simp] theorem updSub_chans : (updSub s r f).chans = s.chans := rfl
@[simp] theorem updSub_pes : (updSub s r f).pes = s.pes := rfl
@[simp] theorem updSub_adcs : (updSub s r f).adcs = s.adcs := rfl
@[simp] theorem updSub_seqs : (updSub s r f).seqs = s.seqs := rfl
@[simp] theorem updSub_comps : (updSub s r f).comps = s.comps := rfl
@[simp] theorem updSub_life : (updSub s r f).life = s.life := rfl
@[simp] theorem updSub_mons : (updSub s r f).mons = s.mons := rfl
@[simp] theorem updSub_elc : (updSub s r f).elc = s.elc := rfl
@[simp] theorem updSub_boot : (updSub s r f).boot = s.boot := rfl
@[simp] theorem updSub_sec : (updSub s r f).sec = s.sec := rfl
@[simp] theorem updSub_excs : (updSub s r f).excs = s.excs := rfl
end UpdSub

section UpdEvt
variable (s : State) (r : Fin 16) (f : EvtRing → EvtRing)
@[simp] theorem updEvt_pending : (updEvt s r f).pending = s.pending := rfl
@[simp] theorem updEvt_freshN : (updEvt s r f).freshN = s.freshN := rfl
@[simp] theorem updEvt_agenda : (updEvt s r f).agenda = s.agenda := rfl
@[simp] theorem updEvt_time : (updEvt s r f).time = s.time := rfl
@[simp] theorem updEvt_par : (updEvt s r f).par = s.par := rfl
@[simp] theorem updEvt_mem : (updEvt s r f).mem = s.mem := rfl
@[simp] theorem updEvt_pins : (updEvt s r f).pins = s.pins := rfl
@[simp] theorem updEvt_sys : (updEvt s r f).sys = s.sys := rfl
@[simp] theorem updEvt_sup : (updEvt s r f).sup = s.sup := rfl
@[simp] theorem updEvt_flt : (updEvt s r f).flt = s.flt := rfl
@[simp] theorem updEvt_cells : (updEvt s r f).cells = s.cells := rfl
@[simp] theorem updEvt_doms : (updEvt s r f).doms = s.doms := rfl
@[simp] theorem updEvt_trks : (updEvt s r f).trks = s.trks := rfl
@[simp] theorem updEvt_blks : (updEvt s r f).blks = s.blks := rfl
@[simp] theorem updEvt_bcar : (updEvt s r f).bcar = s.bcar := rfl
@[simp] theorem updEvt_gcar : (updEvt s r f).gcar = s.gcar := rfl
@[simp] theorem updEvt_chans : (updEvt s r f).chans = s.chans := rfl
@[simp] theorem updEvt_pes : (updEvt s r f).pes = s.pes := rfl
@[simp] theorem updEvt_adcs : (updEvt s r f).adcs = s.adcs := rfl
@[simp] theorem updEvt_seqs : (updEvt s r f).seqs = s.seqs := rfl
@[simp] theorem updEvt_comps : (updEvt s r f).comps = s.comps := rfl
@[simp] theorem updEvt_life : (updEvt s r f).life = s.life := rfl
@[simp] theorem updEvt_mons : (updEvt s r f).mons = s.mons := rfl
@[simp] theorem updEvt_elc : (updEvt s r f).elc = s.elc := rfl
@[simp] theorem updEvt_boot : (updEvt s r f).boot = s.boot := rfl
@[simp] theorem updEvt_sec : (updEvt s r f).sec = s.sec := rfl
@[simp] theorem updEvt_excs : (updEvt s r f).excs = s.excs := rfl
end UpdEvt

section SetReg
variable (s : State) (l : PLoc) (v : Word)
@[simp] theorem setReg_pending : (setReg s l v).pending = s.pending := rfl
@[simp] theorem setReg_freshN : (setReg s l v).freshN = s.freshN := rfl
@[simp] theorem setReg_agenda : (setReg s l v).agenda = s.agenda := rfl
@[simp] theorem setReg_time : (setReg s l v).time = s.time := rfl
@[simp] theorem setReg_mem : (setReg s l v).mem = s.mem := rfl
@[simp] theorem setReg_pins : (setReg s l v).pins = s.pins := rfl
@[simp] theorem setReg_sys : (setReg s l v).sys = s.sys := rfl
@[simp] theorem setReg_host : (setReg s l v).host = s.host := rfl
@[simp] theorem setReg_sup : (setReg s l v).sup = s.sup := rfl
@[simp] theorem setReg_flt : (setReg s l v).flt = s.flt := rfl
@[simp] theorem setReg_cells : (setReg s l v).cells = s.cells := rfl
@[simp] theorem setReg_doms : (setReg s l v).doms = s.doms := rfl
@[simp] theorem setReg_trks : (setReg s l v).trks = s.trks := rfl
@[simp] theorem setReg_blks : (setReg s l v).blks = s.blks := rfl
@[simp] theorem setReg_bcar : (setReg s l v).bcar = s.bcar := rfl
@[simp] theorem setReg_gcar : (setReg s l v).gcar = s.gcar := rfl
@[simp] theorem setReg_chans : (setReg s l v).chans = s.chans := rfl
@[simp] theorem setReg_pes : (setReg s l v).pes = s.pes := rfl
@[simp] theorem setReg_adcs : (setReg s l v).adcs = s.adcs := rfl
@[simp] theorem setReg_seqs : (setReg s l v).seqs = s.seqs := rfl
@[simp] theorem setReg_comps : (setReg s l v).comps = s.comps := rfl
@[simp] theorem setReg_life : (setReg s l v).life = s.life := rfl
@[simp] theorem setReg_mons : (setReg s l v).mons = s.mons := rfl
@[simp] theorem setReg_elc : (setReg s l v).elc = s.elc := rfl
@[simp] theorem setReg_boot : (setReg s l v).boot = s.boot := rfl
@[simp] theorem setReg_sec : (setReg s l v).sec = s.sec := rfl
@[simp] theorem setReg_excs : (setReg s l v).excs = s.excs := rfl
end SetReg

section OrReg
variable (s : State) (l : PLoc) (n : Nat)
@[simp] theorem orReg_pending : (orReg s l n).pending = s.pending := rfl
@[simp] theorem orReg_freshN : (orReg s l n).freshN = s.freshN := rfl
@[simp] theorem orReg_agenda : (orReg s l n).agenda = s.agenda := rfl
@[simp] theorem orReg_time : (orReg s l n).time = s.time := rfl
@[simp] theorem orReg_mem : (orReg s l n).mem = s.mem := rfl
@[simp] theorem orReg_pins : (orReg s l n).pins = s.pins := rfl
@[simp] theorem orReg_sys : (orReg s l n).sys = s.sys := rfl
@[simp] theorem orReg_host : (orReg s l n).host = s.host := rfl
@[simp] theorem orReg_sup : (orReg s l n).sup = s.sup := rfl
@[simp] theorem orReg_flt : (orReg s l n).flt = s.flt := rfl
@[simp] theorem orReg_cells : (orReg s l n).cells = s.cells := rfl
@[simp] theorem orReg_doms : (orReg s l n).doms = s.doms := rfl
@[simp] theorem orReg_trks : (orReg s l n).trks = s.trks := rfl
@[simp] theorem orReg_blks : (orReg s l n).blks = s.blks := rfl
@[simp] theorem orReg_bcar : (orReg s l n).bcar = s.bcar := rfl
@[simp] theorem orReg_gcar : (orReg s l n).gcar = s.gcar := rfl
@[simp] theorem orReg_chans : (orReg s l n).chans = s.chans := rfl
@[simp] theorem orReg_pes : (orReg s l n).pes = s.pes := rfl
@[simp] theorem orReg_adcs : (orReg s l n).adcs = s.adcs := rfl
@[simp] theorem orReg_seqs : (orReg s l n).seqs = s.seqs := rfl
@[simp] theorem orReg_comps : (orReg s l n).comps = s.comps := rfl
@[simp] theorem orReg_life : (orReg s l n).life = s.life := rfl
@[simp] theorem orReg_mons : (orReg s l n).mons = s.mons := rfl
@[simp] theorem orReg_elc : (orReg s l n).elc = s.elc := rfl
@[simp] theorem orReg_boot : (orReg s l n).boot = s.boot := rfl
@[simp] theorem orReg_sec : (orReg s l n).sec = s.sec := rfl
@[simp] theorem orReg_excs : (orReg s l n).excs = s.excs := rfl
end OrReg

section ClrReg
variable (s : State) (l : PLoc) (n : Nat)
@[simp] theorem clrReg_pending : (clrReg s l n).pending = s.pending := rfl
@[simp] theorem clrReg_freshN : (clrReg s l n).freshN = s.freshN := rfl
@[simp] theorem clrReg_agenda : (clrReg s l n).agenda = s.agenda := rfl
@[simp] theorem clrReg_time : (clrReg s l n).time = s.time := rfl
@[simp] theorem clrReg_mem : (clrReg s l n).mem = s.mem := rfl
@[simp] theorem clrReg_pins : (clrReg s l n).pins = s.pins := rfl
@[simp] theorem clrReg_sys : (clrReg s l n).sys = s.sys := rfl
@[simp] theorem clrReg_host : (clrReg s l n).host = s.host := rfl
@[simp] theorem clrReg_sup : (clrReg s l n).sup = s.sup := rfl
@[simp] theorem clrReg_flt : (clrReg s l n).flt = s.flt := rfl
@[simp] theorem clrReg_cells : (clrReg s l n).cells = s.cells := rfl
@[simp] theorem clrReg_doms : (clrReg s l n).doms = s.doms := rfl
@[simp] theorem clrReg_trks : (clrReg s l n).trks = s.trks := rfl
@[simp] theorem clrReg_blks : (clrReg s l n).blks = s.blks := rfl
@[simp] theorem clrReg_bcar : (clrReg s l n).bcar = s.bcar := rfl
@[simp] theorem clrReg_gcar : (clrReg s l n).gcar = s.gcar := rfl
@[simp] theorem clrReg_chans : (clrReg s l n).chans = s.chans := rfl
@[simp] theorem clrReg_pes : (clrReg s l n).pes = s.pes := rfl
@[simp] theorem clrReg_adcs : (clrReg s l n).adcs = s.adcs := rfl
@[simp] theorem clrReg_seqs : (clrReg s l n).seqs = s.seqs := rfl
@[simp] theorem clrReg_comps : (clrReg s l n).comps = s.comps := rfl
@[simp] theorem clrReg_life : (clrReg s l n).life = s.life := rfl
@[simp] theorem clrReg_mons : (clrReg s l n).mons = s.mons := rfl
@[simp] theorem clrReg_elc : (clrReg s l n).elc = s.elc := rfl
@[simp] theorem clrReg_boot : (clrReg s l n).boot = s.boot := rfl
@[simp] theorem clrReg_sec : (clrReg s l n).sec = s.sec := rfl
@[simp] theorem clrReg_excs : (clrReg s l n).excs = s.excs := rfl
end ClrReg

section Bump
variable (s : State) (l : PLoc) (hi lo n : Nat)
@[simp] theorem bump_pending : (bump s l hi lo n).pending = s.pending := rfl
@[simp] theorem bump_freshN : (bump s l hi lo n).freshN = s.freshN := rfl
@[simp] theorem bump_agenda : (bump s l hi lo n).agenda = s.agenda := rfl
@[simp] theorem bump_time : (bump s l hi lo n).time = s.time := rfl
@[simp] theorem bump_mem : (bump s l hi lo n).mem = s.mem := rfl
@[simp] theorem bump_pins : (bump s l hi lo n).pins = s.pins := rfl
@[simp] theorem bump_sys : (bump s l hi lo n).sys = s.sys := rfl
@[simp] theorem bump_host : (bump s l hi lo n).host = s.host := rfl
@[simp] theorem bump_sup : (bump s l hi lo n).sup = s.sup := rfl
@[simp] theorem bump_flt : (bump s l hi lo n).flt = s.flt := rfl
@[simp] theorem bump_cells : (bump s l hi lo n).cells = s.cells := rfl
@[simp] theorem bump_doms : (bump s l hi lo n).doms = s.doms := rfl
@[simp] theorem bump_trks : (bump s l hi lo n).trks = s.trks := rfl
@[simp] theorem bump_blks : (bump s l hi lo n).blks = s.blks := rfl
@[simp] theorem bump_bcar : (bump s l hi lo n).bcar = s.bcar := rfl
@[simp] theorem bump_gcar : (bump s l hi lo n).gcar = s.gcar := rfl
@[simp] theorem bump_chans : (bump s l hi lo n).chans = s.chans := rfl
@[simp] theorem bump_pes : (bump s l hi lo n).pes = s.pes := rfl
@[simp] theorem bump_adcs : (bump s l hi lo n).adcs = s.adcs := rfl
@[simp] theorem bump_seqs : (bump s l hi lo n).seqs = s.seqs := rfl
@[simp] theorem bump_comps : (bump s l hi lo n).comps = s.comps := rfl
@[simp] theorem bump_life : (bump s l hi lo n).life = s.life := rfl
@[simp] theorem bump_mons : (bump s l hi lo n).mons = s.mons := rfl
@[simp] theorem bump_elc : (bump s l hi lo n).elc = s.elc := rfl
@[simp] theorem bump_boot : (bump s l hi lo n).boot = s.boot := rfl
@[simp] theorem bump_sec : (bump s l hi lo n).sec = s.sec := rfl
@[simp] theorem bump_excs : (bump s l hi lo n).excs = s.excs := rfl
end Bump

section SetWork
variable (s : State) (l : PLoc) (v : Word)
@[simp] theorem setWork_pending : (setWork s l v).pending = s.pending := rfl
@[simp] theorem setWork_freshN : (setWork s l v).freshN = s.freshN := rfl
@[simp] theorem setWork_agenda : (setWork s l v).agenda = s.agenda := rfl
@[simp] theorem setWork_time : (setWork s l v).time = s.time := rfl
@[simp] theorem setWork_mem : (setWork s l v).mem = s.mem := rfl
@[simp] theorem setWork_pins : (setWork s l v).pins = s.pins := rfl
@[simp] theorem setWork_sys : (setWork s l v).sys = s.sys := rfl
@[simp] theorem setWork_host : (setWork s l v).host = s.host := rfl
@[simp] theorem setWork_sup : (setWork s l v).sup = s.sup := rfl
@[simp] theorem setWork_flt : (setWork s l v).flt = s.flt := rfl
@[simp] theorem setWork_cells : (setWork s l v).cells = s.cells := rfl
@[simp] theorem setWork_doms : (setWork s l v).doms = s.doms := rfl
@[simp] theorem setWork_trks : (setWork s l v).trks = s.trks := rfl
@[simp] theorem setWork_blks : (setWork s l v).blks = s.blks := rfl
@[simp] theorem setWork_bcar : (setWork s l v).bcar = s.bcar := rfl
@[simp] theorem setWork_gcar : (setWork s l v).gcar = s.gcar := rfl
@[simp] theorem setWork_chans : (setWork s l v).chans = s.chans := rfl
@[simp] theorem setWork_pes : (setWork s l v).pes = s.pes := rfl
@[simp] theorem setWork_adcs : (setWork s l v).adcs = s.adcs := rfl
@[simp] theorem setWork_seqs : (setWork s l v).seqs = s.seqs := rfl
@[simp] theorem setWork_comps : (setWork s l v).comps = s.comps := rfl
@[simp] theorem setWork_life : (setWork s l v).life = s.life := rfl
@[simp] theorem setWork_mons : (setWork s l v).mons = s.mons := rfl
@[simp] theorem setWork_elc : (setWork s l v).elc = s.elc := rfl
@[simp] theorem setWork_boot : (setWork s l v).boot = s.boot := rfl
@[simp] theorem setWork_sec : (setWork s l v).sec = s.sec := rfl
@[simp] theorem setWork_excs : (setWork s l v).excs = s.excs := rfl
end SetWork

section WriteShadow
variable (s : State) (l : PLoc) (v : Word)
@[simp] theorem writeShadow_pending : (writeShadow s l v).pending = s.pending := rfl
@[simp] theorem writeShadow_freshN : (writeShadow s l v).freshN = s.freshN := rfl
@[simp] theorem writeShadow_agenda : (writeShadow s l v).agenda = s.agenda := rfl
@[simp] theorem writeShadow_time : (writeShadow s l v).time = s.time := rfl
@[simp] theorem writeShadow_mem : (writeShadow s l v).mem = s.mem := rfl
@[simp] theorem writeShadow_pins : (writeShadow s l v).pins = s.pins := rfl
@[simp] theorem writeShadow_sys : (writeShadow s l v).sys = s.sys := rfl
@[simp] theorem writeShadow_host : (writeShadow s l v).host = s.host := rfl
@[simp] theorem writeShadow_sup : (writeShadow s l v).sup = s.sup := rfl
@[simp] theorem writeShadow_flt : (writeShadow s l v).flt = s.flt := rfl
@[simp] theorem writeShadow_cells : (writeShadow s l v).cells = s.cells := rfl
@[simp] theorem writeShadow_doms : (writeShadow s l v).doms = s.doms := rfl
@[simp] theorem writeShadow_trks : (writeShadow s l v).trks = s.trks := rfl
@[simp] theorem writeShadow_blks : (writeShadow s l v).blks = s.blks := rfl
@[simp] theorem writeShadow_bcar : (writeShadow s l v).bcar = s.bcar := rfl
@[simp] theorem writeShadow_gcar : (writeShadow s l v).gcar = s.gcar := rfl
@[simp] theorem writeShadow_chans : (writeShadow s l v).chans = s.chans := rfl
@[simp] theorem writeShadow_pes : (writeShadow s l v).pes = s.pes := rfl
@[simp] theorem writeShadow_adcs : (writeShadow s l v).adcs = s.adcs := rfl
@[simp] theorem writeShadow_seqs : (writeShadow s l v).seqs = s.seqs := rfl
@[simp] theorem writeShadow_comps : (writeShadow s l v).comps = s.comps := rfl
@[simp] theorem writeShadow_life : (writeShadow s l v).life = s.life := rfl
@[simp] theorem writeShadow_mons : (writeShadow s l v).mons = s.mons := rfl
@[simp] theorem writeShadow_elc : (writeShadow s l v).elc = s.elc := rfl
@[simp] theorem writeShadow_boot : (writeShadow s l v).boot = s.boot := rfl
@[simp] theorem writeShadow_sec : (writeShadow s l v).sec = s.sec := rfl
@[simp] theorem writeShadow_excs : (writeShadow s l v).excs = s.excs := rfl
end WriteShadow

section SetLow
variable (s : State) (who : Requester) (l : PLoc) (v : Word)
@[simp] theorem setLow_pending : (setLow s who l v).pending = s.pending := rfl
@[simp] theorem setLow_freshN : (setLow s who l v).freshN = s.freshN := rfl
@[simp] theorem setLow_agenda : (setLow s who l v).agenda = s.agenda := rfl
@[simp] theorem setLow_time : (setLow s who l v).time = s.time := rfl
@[simp] theorem setLow_mem : (setLow s who l v).mem = s.mem := rfl
@[simp] theorem setLow_pins : (setLow s who l v).pins = s.pins := rfl
@[simp] theorem setLow_sys : (setLow s who l v).sys = s.sys := rfl
@[simp] theorem setLow_host : (setLow s who l v).host = s.host := rfl
@[simp] theorem setLow_sup : (setLow s who l v).sup = s.sup := rfl
@[simp] theorem setLow_flt : (setLow s who l v).flt = s.flt := rfl
@[simp] theorem setLow_cells : (setLow s who l v).cells = s.cells := rfl
@[simp] theorem setLow_doms : (setLow s who l v).doms = s.doms := rfl
@[simp] theorem setLow_trks : (setLow s who l v).trks = s.trks := rfl
@[simp] theorem setLow_blks : (setLow s who l v).blks = s.blks := rfl
@[simp] theorem setLow_bcar : (setLow s who l v).bcar = s.bcar := rfl
@[simp] theorem setLow_gcar : (setLow s who l v).gcar = s.gcar := rfl
@[simp] theorem setLow_chans : (setLow s who l v).chans = s.chans := rfl
@[simp] theorem setLow_pes : (setLow s who l v).pes = s.pes := rfl
@[simp] theorem setLow_adcs : (setLow s who l v).adcs = s.adcs := rfl
@[simp] theorem setLow_seqs : (setLow s who l v).seqs = s.seqs := rfl
@[simp] theorem setLow_comps : (setLow s who l v).comps = s.comps := rfl
@[simp] theorem setLow_life : (setLow s who l v).life = s.life := rfl
@[simp] theorem setLow_mons : (setLow s who l v).mons = s.mons := rfl
@[simp] theorem setLow_elc : (setLow s who l v).elc = s.elc := rfl
@[simp] theorem setLow_boot : (setLow s who l v).boot = s.boot := rfl
@[simp] theorem setLow_sec : (setLow s who l v).sec = s.sec := rfl
@[simp] theorem setLow_excs : (setLow s who l v).excs = s.excs := rfl
end SetLow

section SetCap
variable (s : State) (who : Requester) (l : PLoc) (v : Word)
@[simp] theorem setCap_pending : (setCap s who l v).pending = s.pending := rfl
@[simp] theorem setCap_freshN : (setCap s who l v).freshN = s.freshN := rfl
@[simp] theorem setCap_agenda : (setCap s who l v).agenda = s.agenda := rfl
@[simp] theorem setCap_time : (setCap s who l v).time = s.time := rfl
@[simp] theorem setCap_mem : (setCap s who l v).mem = s.mem := rfl
@[simp] theorem setCap_pins : (setCap s who l v).pins = s.pins := rfl
@[simp] theorem setCap_sys : (setCap s who l v).sys = s.sys := rfl
@[simp] theorem setCap_host : (setCap s who l v).host = s.host := rfl
@[simp] theorem setCap_sup : (setCap s who l v).sup = s.sup := rfl
@[simp] theorem setCap_flt : (setCap s who l v).flt = s.flt := rfl
@[simp] theorem setCap_cells : (setCap s who l v).cells = s.cells := rfl
@[simp] theorem setCap_doms : (setCap s who l v).doms = s.doms := rfl
@[simp] theorem setCap_trks : (setCap s who l v).trks = s.trks := rfl
@[simp] theorem setCap_blks : (setCap s who l v).blks = s.blks := rfl
@[simp] theorem setCap_bcar : (setCap s who l v).bcar = s.bcar := rfl
@[simp] theorem setCap_gcar : (setCap s who l v).gcar = s.gcar := rfl
@[simp] theorem setCap_chans : (setCap s who l v).chans = s.chans := rfl
@[simp] theorem setCap_pes : (setCap s who l v).pes = s.pes := rfl
@[simp] theorem setCap_adcs : (setCap s who l v).adcs = s.adcs := rfl
@[simp] theorem setCap_seqs : (setCap s who l v).seqs = s.seqs := rfl
@[simp] theorem setCap_comps : (setCap s who l v).comps = s.comps := rfl
@[simp] theorem setCap_life : (setCap s who l v).life = s.life := rfl
@[simp] theorem setCap_mons : (setCap s who l v).mons = s.mons := rfl
@[simp] theorem setCap_elc : (setCap s who l v).elc = s.elc := rfl
@[simp] theorem setCap_boot : (setCap s who l v).boot = s.boot := rfl
@[simp] theorem setCap_sec : (setCap s who l v).sec = s.sec := rfl
@[simp] theorem setCap_excs : (setCap s who l v).excs = s.excs := rfl
end SetCap

section DropCap
variable (s : State) (who : Requester) (l : PLoc)
@[simp] theorem dropCap_pending : (dropCap s who l).pending = s.pending := rfl
@[simp] theorem dropCap_freshN : (dropCap s who l).freshN = s.freshN := rfl
@[simp] theorem dropCap_agenda : (dropCap s who l).agenda = s.agenda := rfl
@[simp] theorem dropCap_time : (dropCap s who l).time = s.time := rfl
@[simp] theorem dropCap_mem : (dropCap s who l).mem = s.mem := rfl
@[simp] theorem dropCap_pins : (dropCap s who l).pins = s.pins := rfl
@[simp] theorem dropCap_sys : (dropCap s who l).sys = s.sys := rfl
@[simp] theorem dropCap_host : (dropCap s who l).host = s.host := rfl
@[simp] theorem dropCap_sup : (dropCap s who l).sup = s.sup := rfl
@[simp] theorem dropCap_flt : (dropCap s who l).flt = s.flt := rfl
@[simp] theorem dropCap_cells : (dropCap s who l).cells = s.cells := rfl
@[simp] theorem dropCap_doms : (dropCap s who l).doms = s.doms := rfl
@[simp] theorem dropCap_trks : (dropCap s who l).trks = s.trks := rfl
@[simp] theorem dropCap_blks : (dropCap s who l).blks = s.blks := rfl
@[simp] theorem dropCap_bcar : (dropCap s who l).bcar = s.bcar := rfl
@[simp] theorem dropCap_gcar : (dropCap s who l).gcar = s.gcar := rfl
@[simp] theorem dropCap_chans : (dropCap s who l).chans = s.chans := rfl
@[simp] theorem dropCap_pes : (dropCap s who l).pes = s.pes := rfl
@[simp] theorem dropCap_adcs : (dropCap s who l).adcs = s.adcs := rfl
@[simp] theorem dropCap_seqs : (dropCap s who l).seqs = s.seqs := rfl
@[simp] theorem dropCap_comps : (dropCap s who l).comps = s.comps := rfl
@[simp] theorem dropCap_life : (dropCap s who l).life = s.life := rfl
@[simp] theorem dropCap_mons : (dropCap s who l).mons = s.mons := rfl
@[simp] theorem dropCap_elc : (dropCap s who l).elc = s.elc := rfl
@[simp] theorem dropCap_boot : (dropCap s who l).boot = s.boot := rfl
@[simp] theorem dropCap_sec : (dropCap s who l).sec = s.sec := rfl
@[simp] theorem dropCap_excs : (dropCap s who l).excs = s.excs := rfl
end DropCap

section SetSel
variable (s : State) (who : Requester) (l : PLoc) (v : Word)
@[simp] theorem setSel_pending : (setSel s who l v).pending = s.pending := rfl
@[simp] theorem setSel_freshN : (setSel s who l v).freshN = s.freshN := rfl
@[simp] theorem setSel_agenda : (setSel s who l v).agenda = s.agenda := rfl
@[simp] theorem setSel_time : (setSel s who l v).time = s.time := rfl
@[simp] theorem setSel_mem : (setSel s who l v).mem = s.mem := rfl
@[simp] theorem setSel_pins : (setSel s who l v).pins = s.pins := rfl
@[simp] theorem setSel_sys : (setSel s who l v).sys = s.sys := rfl
@[simp] theorem setSel_host : (setSel s who l v).host = s.host := rfl
@[simp] theorem setSel_sup : (setSel s who l v).sup = s.sup := rfl
@[simp] theorem setSel_flt : (setSel s who l v).flt = s.flt := rfl
@[simp] theorem setSel_cells : (setSel s who l v).cells = s.cells := rfl
@[simp] theorem setSel_doms : (setSel s who l v).doms = s.doms := rfl
@[simp] theorem setSel_trks : (setSel s who l v).trks = s.trks := rfl
@[simp] theorem setSel_blks : (setSel s who l v).blks = s.blks := rfl
@[simp] theorem setSel_bcar : (setSel s who l v).bcar = s.bcar := rfl
@[simp] theorem setSel_gcar : (setSel s who l v).gcar = s.gcar := rfl
@[simp] theorem setSel_chans : (setSel s who l v).chans = s.chans := rfl
@[simp] theorem setSel_pes : (setSel s who l v).pes = s.pes := rfl
@[simp] theorem setSel_adcs : (setSel s who l v).adcs = s.adcs := rfl
@[simp] theorem setSel_seqs : (setSel s who l v).seqs = s.seqs := rfl
@[simp] theorem setSel_comps : (setSel s who l v).comps = s.comps := rfl
@[simp] theorem setSel_life : (setSel s who l v).life = s.life := rfl
@[simp] theorem setSel_mons : (setSel s who l v).mons = s.mons := rfl
@[simp] theorem setSel_elc : (setSel s who l v).elc = s.elc := rfl
@[simp] theorem setSel_boot : (setSel s who l v).boot = s.boot := rfl
@[simp] theorem setSel_sec : (setSel s who l v).sec = s.sec := rfl
@[simp] theorem setSel_excs : (setSel s who l v).excs = s.excs := rfl
end SetSel

section SetPramRaw
variable (s : State) (b : Fin 32) (w : Nat) (v : Word)
@[simp] theorem setPramRaw_pending : (setPramRaw s b w v).pending = s.pending := rfl
@[simp] theorem setPramRaw_freshN : (setPramRaw s b w v).freshN = s.freshN := rfl
@[simp] theorem setPramRaw_agenda : (setPramRaw s b w v).agenda = s.agenda := rfl
@[simp] theorem setPramRaw_time : (setPramRaw s b w v).time = s.time := rfl
@[simp] theorem setPramRaw_par : (setPramRaw s b w v).par = s.par := rfl
@[simp] theorem setPramRaw_pins : (setPramRaw s b w v).pins = s.pins := rfl
@[simp] theorem setPramRaw_sys : (setPramRaw s b w v).sys = s.sys := rfl
@[simp] theorem setPramRaw_host : (setPramRaw s b w v).host = s.host := rfl
@[simp] theorem setPramRaw_sup : (setPramRaw s b w v).sup = s.sup := rfl
@[simp] theorem setPramRaw_flt : (setPramRaw s b w v).flt = s.flt := rfl
@[simp] theorem setPramRaw_cells : (setPramRaw s b w v).cells = s.cells := rfl
@[simp] theorem setPramRaw_doms : (setPramRaw s b w v).doms = s.doms := rfl
@[simp] theorem setPramRaw_trks : (setPramRaw s b w v).trks = s.trks := rfl
@[simp] theorem setPramRaw_blks : (setPramRaw s b w v).blks = s.blks := rfl
@[simp] theorem setPramRaw_bcar : (setPramRaw s b w v).bcar = s.bcar := rfl
@[simp] theorem setPramRaw_gcar : (setPramRaw s b w v).gcar = s.gcar := rfl
@[simp] theorem setPramRaw_chans : (setPramRaw s b w v).chans = s.chans := rfl
@[simp] theorem setPramRaw_pes : (setPramRaw s b w v).pes = s.pes := rfl
@[simp] theorem setPramRaw_adcs : (setPramRaw s b w v).adcs = s.adcs := rfl
@[simp] theorem setPramRaw_seqs : (setPramRaw s b w v).seqs = s.seqs := rfl
@[simp] theorem setPramRaw_comps : (setPramRaw s b w v).comps = s.comps := rfl
@[simp] theorem setPramRaw_life : (setPramRaw s b w v).life = s.life := rfl
@[simp] theorem setPramRaw_mons : (setPramRaw s b w v).mons = s.mons := rfl
@[simp] theorem setPramRaw_elc : (setPramRaw s b w v).elc = s.elc := rfl
@[simp] theorem setPramRaw_boot : (setPramRaw s b w v).boot = s.boot := rfl
@[simp] theorem setPramRaw_sec : (setPramRaw s b w v).sec = s.sec := rfl
@[simp] theorem setPramRaw_excs : (setPramRaw s b w v).excs = s.excs := rfl
end SetPramRaw

section SetRramRaw
variable (s : State) (r : Fin 4) (w : Nat) (v : Word)
@[simp] theorem setRramRaw_pending : (setRramRaw s r w v).pending = s.pending := rfl
@[simp] theorem setRramRaw_freshN : (setRramRaw s r w v).freshN = s.freshN := rfl
@[simp] theorem setRramRaw_agenda : (setRramRaw s r w v).agenda = s.agenda := rfl
@[simp] theorem setRramRaw_time : (setRramRaw s r w v).time = s.time := rfl
@[simp] theorem setRramRaw_par : (setRramRaw s r w v).par = s.par := rfl
@[simp] theorem setRramRaw_pins : (setRramRaw s r w v).pins = s.pins := rfl
@[simp] theorem setRramRaw_sys : (setRramRaw s r w v).sys = s.sys := rfl
@[simp] theorem setRramRaw_host : (setRramRaw s r w v).host = s.host := rfl
@[simp] theorem setRramRaw_sup : (setRramRaw s r w v).sup = s.sup := rfl
@[simp] theorem setRramRaw_flt : (setRramRaw s r w v).flt = s.flt := rfl
@[simp] theorem setRramRaw_cells : (setRramRaw s r w v).cells = s.cells := rfl
@[simp] theorem setRramRaw_doms : (setRramRaw s r w v).doms = s.doms := rfl
@[simp] theorem setRramRaw_trks : (setRramRaw s r w v).trks = s.trks := rfl
@[simp] theorem setRramRaw_blks : (setRramRaw s r w v).blks = s.blks := rfl
@[simp] theorem setRramRaw_bcar : (setRramRaw s r w v).bcar = s.bcar := rfl
@[simp] theorem setRramRaw_gcar : (setRramRaw s r w v).gcar = s.gcar := rfl
@[simp] theorem setRramRaw_chans : (setRramRaw s r w v).chans = s.chans := rfl
@[simp] theorem setRramRaw_pes : (setRramRaw s r w v).pes = s.pes := rfl
@[simp] theorem setRramRaw_adcs : (setRramRaw s r w v).adcs = s.adcs := rfl
@[simp] theorem setRramRaw_seqs : (setRramRaw s r w v).seqs = s.seqs := rfl
@[simp] theorem setRramRaw_comps : (setRramRaw s r w v).comps = s.comps := rfl
@[simp] theorem setRramRaw_life : (setRramRaw s r w v).life = s.life := rfl
@[simp] theorem setRramRaw_mons : (setRramRaw s r w v).mons = s.mons := rfl
@[simp] theorem setRramRaw_elc : (setRramRaw s r w v).elc = s.elc := rfl
@[simp] theorem setRramRaw_boot : (setRramRaw s r w v).boot = s.boot := rfl
@[simp] theorem setRramRaw_sec : (setRramRaw s r w v).sec = s.sec := rfl
@[simp] theorem setRramRaw_excs : (setRramRaw s r w v).excs = s.excs := rfl
end SetRramRaw

section SetCstore
variable (s : State) (b : Fin 32) (a : Nat) (v : MicroWord)
@[simp] theorem setCstore_pending : (setCstore s b a v).pending = s.pending := rfl
@[simp] theorem setCstore_freshN : (setCstore s b a v).freshN = s.freshN := rfl
@[simp] theorem setCstore_agenda : (setCstore s b a v).agenda = s.agenda := rfl
@[simp] theorem setCstore_time : (setCstore s b a v).time = s.time := rfl
@[simp] theorem setCstore_par : (setCstore s b a v).par = s.par := rfl
@[simp] theorem setCstore_pins : (setCstore s b a v).pins = s.pins := rfl
@[simp] theorem setCstore_sys : (setCstore s b a v).sys = s.sys := rfl
@[simp] theorem setCstore_host : (setCstore s b a v).host = s.host := rfl
@[simp] theorem setCstore_sup : (setCstore s b a v).sup = s.sup := rfl
@[simp] theorem setCstore_flt : (setCstore s b a v).flt = s.flt := rfl
@[simp] theorem setCstore_cells : (setCstore s b a v).cells = s.cells := rfl
@[simp] theorem setCstore_doms : (setCstore s b a v).doms = s.doms := rfl
@[simp] theorem setCstore_trks : (setCstore s b a v).trks = s.trks := rfl
@[simp] theorem setCstore_blks : (setCstore s b a v).blks = s.blks := rfl
@[simp] theorem setCstore_bcar : (setCstore s b a v).bcar = s.bcar := rfl
@[simp] theorem setCstore_gcar : (setCstore s b a v).gcar = s.gcar := rfl
@[simp] theorem setCstore_chans : (setCstore s b a v).chans = s.chans := rfl
@[simp] theorem setCstore_pes : (setCstore s b a v).pes = s.pes := rfl
@[simp] theorem setCstore_adcs : (setCstore s b a v).adcs = s.adcs := rfl
@[simp] theorem setCstore_seqs : (setCstore s b a v).seqs = s.seqs := rfl
@[simp] theorem setCstore_comps : (setCstore s b a v).comps = s.comps := rfl
@[simp] theorem setCstore_life : (setCstore s b a v).life = s.life := rfl
@[simp] theorem setCstore_mons : (setCstore s b a v).mons = s.mons := rfl
@[simp] theorem setCstore_elc : (setCstore s b a v).elc = s.elc := rfl
@[simp] theorem setCstore_boot : (setCstore s b a v).boot = s.boot := rfl
@[simp] theorem setCstore_sec : (setCstore s b a v).sec = s.sec := rfl
@[simp] theorem setCstore_excs : (setCstore s b a v).excs = s.excs := rfl
end SetCstore

section SetRingByte
variable (s : State) (a : Nat) (v : Byte)
@[simp] theorem setRingByte_pending : (setRingByte s a v).pending = s.pending := rfl
@[simp] theorem setRingByte_freshN : (setRingByte s a v).freshN = s.freshN := rfl
@[simp] theorem setRingByte_agenda : (setRingByte s a v).agenda = s.agenda := rfl
@[simp] theorem setRingByte_time : (setRingByte s a v).time = s.time := rfl
@[simp] theorem setRingByte_par : (setRingByte s a v).par = s.par := rfl
@[simp] theorem setRingByte_pins : (setRingByte s a v).pins = s.pins := rfl
@[simp] theorem setRingByte_sys : (setRingByte s a v).sys = s.sys := rfl
@[simp] theorem setRingByte_host : (setRingByte s a v).host = s.host := rfl
@[simp] theorem setRingByte_sup : (setRingByte s a v).sup = s.sup := rfl
@[simp] theorem setRingByte_flt : (setRingByte s a v).flt = s.flt := rfl
@[simp] theorem setRingByte_cells : (setRingByte s a v).cells = s.cells := rfl
@[simp] theorem setRingByte_doms : (setRingByte s a v).doms = s.doms := rfl
@[simp] theorem setRingByte_trks : (setRingByte s a v).trks = s.trks := rfl
@[simp] theorem setRingByte_blks : (setRingByte s a v).blks = s.blks := rfl
@[simp] theorem setRingByte_bcar : (setRingByte s a v).bcar = s.bcar := rfl
@[simp] theorem setRingByte_gcar : (setRingByte s a v).gcar = s.gcar := rfl
@[simp] theorem setRingByte_chans : (setRingByte s a v).chans = s.chans := rfl
@[simp] theorem setRingByte_pes : (setRingByte s a v).pes = s.pes := rfl
@[simp] theorem setRingByte_adcs : (setRingByte s a v).adcs = s.adcs := rfl
@[simp] theorem setRingByte_seqs : (setRingByte s a v).seqs = s.seqs := rfl
@[simp] theorem setRingByte_comps : (setRingByte s a v).comps = s.comps := rfl
@[simp] theorem setRingByte_life : (setRingByte s a v).life = s.life := rfl
@[simp] theorem setRingByte_mons : (setRingByte s a v).mons = s.mons := rfl
@[simp] theorem setRingByte_elc : (setRingByte s a v).elc = s.elc := rfl
@[simp] theorem setRingByte_boot : (setRingByte s a v).boot = s.boot := rfl
@[simp] theorem setRingByte_sec : (setRingByte s a v).sec = s.sec := rfl
@[simp] theorem setRingByte_excs : (setRingByte s a v).excs = s.excs := rfl
end SetRingByte

section ClearEcc
variable (s : State) (m : MemId) (i a : Nat)
@[simp] theorem clearEcc_pending : (clearEcc s m i a).pending = s.pending := rfl
@[simp] theorem clearEcc_freshN : (clearEcc s m i a).freshN = s.freshN := rfl
@[simp] theorem clearEcc_agenda : (clearEcc s m i a).agenda = s.agenda := rfl
@[simp] theorem clearEcc_time : (clearEcc s m i a).time = s.time := rfl
@[simp] theorem clearEcc_par : (clearEcc s m i a).par = s.par := rfl
@[simp] theorem clearEcc_pins : (clearEcc s m i a).pins = s.pins := rfl
@[simp] theorem clearEcc_sys : (clearEcc s m i a).sys = s.sys := rfl
@[simp] theorem clearEcc_host : (clearEcc s m i a).host = s.host := rfl
@[simp] theorem clearEcc_sup : (clearEcc s m i a).sup = s.sup := rfl
@[simp] theorem clearEcc_flt : (clearEcc s m i a).flt = s.flt := rfl
@[simp] theorem clearEcc_cells : (clearEcc s m i a).cells = s.cells := rfl
@[simp] theorem clearEcc_doms : (clearEcc s m i a).doms = s.doms := rfl
@[simp] theorem clearEcc_trks : (clearEcc s m i a).trks = s.trks := rfl
@[simp] theorem clearEcc_blks : (clearEcc s m i a).blks = s.blks := rfl
@[simp] theorem clearEcc_bcar : (clearEcc s m i a).bcar = s.bcar := rfl
@[simp] theorem clearEcc_gcar : (clearEcc s m i a).gcar = s.gcar := rfl
@[simp] theorem clearEcc_chans : (clearEcc s m i a).chans = s.chans := rfl
@[simp] theorem clearEcc_pes : (clearEcc s m i a).pes = s.pes := rfl
@[simp] theorem clearEcc_adcs : (clearEcc s m i a).adcs = s.adcs := rfl
@[simp] theorem clearEcc_seqs : (clearEcc s m i a).seqs = s.seqs := rfl
@[simp] theorem clearEcc_comps : (clearEcc s m i a).comps = s.comps := rfl
@[simp] theorem clearEcc_life : (clearEcc s m i a).life = s.life := rfl
@[simp] theorem clearEcc_mons : (clearEcc s m i a).mons = s.mons := rfl
@[simp] theorem clearEcc_elc : (clearEcc s m i a).elc = s.elc := rfl
@[simp] theorem clearEcc_boot : (clearEcc s m i a).boot = s.boot := rfl
@[simp] theorem clearEcc_sec : (clearEcc s m i a).sec = s.sec := rfl
@[simp] theorem clearEcc_excs : (clearEcc s m i a).excs = s.excs := rfl
end ClearEcc

section NextFree
variable (s : State)
@[simp] theorem nextFree_pending : (nextFree s).pending = s.pending := rfl
@[simp] theorem nextFree_time : (nextFree s).time = s.time := rfl
@[simp] theorem nextFree_par : (nextFree s).par = s.par := rfl
@[simp] theorem nextFree_mem : (nextFree s).mem = s.mem := rfl
@[simp] theorem nextFree_pins : (nextFree s).pins = s.pins := rfl
@[simp] theorem nextFree_sys : (nextFree s).sys = s.sys := rfl
@[simp] theorem nextFree_host : (nextFree s).host = s.host := rfl
@[simp] theorem nextFree_sup : (nextFree s).sup = s.sup := rfl
@[simp] theorem nextFree_flt : (nextFree s).flt = s.flt := rfl
@[simp] theorem nextFree_cells : (nextFree s).cells = s.cells := rfl
@[simp] theorem nextFree_doms : (nextFree s).doms = s.doms := rfl
@[simp] theorem nextFree_trks : (nextFree s).trks = s.trks := rfl
@[simp] theorem nextFree_blks : (nextFree s).blks = s.blks := rfl
@[simp] theorem nextFree_bcar : (nextFree s).bcar = s.bcar := rfl
@[simp] theorem nextFree_gcar : (nextFree s).gcar = s.gcar := rfl
@[simp] theorem nextFree_chans : (nextFree s).chans = s.chans := rfl
@[simp] theorem nextFree_pes : (nextFree s).pes = s.pes := rfl
@[simp] theorem nextFree_adcs : (nextFree s).adcs = s.adcs := rfl
@[simp] theorem nextFree_seqs : (nextFree s).seqs = s.seqs := rfl
@[simp] theorem nextFree_comps : (nextFree s).comps = s.comps := rfl
@[simp] theorem nextFree_life : (nextFree s).life = s.life := rfl
@[simp] theorem nextFree_mons : (nextFree s).mons = s.mons := rfl
@[simp] theorem nextFree_elc : (nextFree s).elc = s.elc := rfl
@[simp] theorem nextFree_boot : (nextFree s).boot = s.boot := rfl
@[simp] theorem nextFree_sec : (nextFree s).sec = s.sec := rfl
@[simp] theorem nextFree_excs : (nextFree s).excs = s.excs := rfl
end NextFree

section EmitAt
variable (s : State) (ring tick tier : Nat) (r : Rec)
@[simp] theorem emitAt_pending : (emitAt s ring tick tier r).pending = s.pending := rfl
@[simp] theorem emitAt_freshN : (emitAt s ring tick tier r).freshN = s.freshN := rfl
@[simp] theorem emitAt_agenda : (emitAt s ring tick tier r).agenda = s.agenda := rfl
@[simp] theorem emitAt_time : (emitAt s ring tick tier r).time = s.time := rfl
@[simp] theorem emitAt_par : (emitAt s ring tick tier r).par = s.par := rfl
@[simp] theorem emitAt_mem : (emitAt s ring tick tier r).mem = s.mem := rfl
@[simp] theorem emitAt_pins : (emitAt s ring tick tier r).pins = s.pins := rfl
@[simp] theorem emitAt_sys : (emitAt s ring tick tier r).sys = s.sys := rfl
@[simp] theorem emitAt_sup : (emitAt s ring tick tier r).sup = s.sup := rfl
@[simp] theorem emitAt_flt : (emitAt s ring tick tier r).flt = s.flt := rfl
@[simp] theorem emitAt_cells : (emitAt s ring tick tier r).cells = s.cells := rfl
@[simp] theorem emitAt_doms : (emitAt s ring tick tier r).doms = s.doms := rfl
@[simp] theorem emitAt_trks : (emitAt s ring tick tier r).trks = s.trks := rfl
@[simp] theorem emitAt_blks : (emitAt s ring tick tier r).blks = s.blks := rfl
@[simp] theorem emitAt_bcar : (emitAt s ring tick tier r).bcar = s.bcar := rfl
@[simp] theorem emitAt_gcar : (emitAt s ring tick tier r).gcar = s.gcar := rfl
@[simp] theorem emitAt_chans : (emitAt s ring tick tier r).chans = s.chans := rfl
@[simp] theorem emitAt_pes : (emitAt s ring tick tier r).pes = s.pes := rfl
@[simp] theorem emitAt_adcs : (emitAt s ring tick tier r).adcs = s.adcs := rfl
@[simp] theorem emitAt_seqs : (emitAt s ring tick tier r).seqs = s.seqs := rfl
@[simp] theorem emitAt_comps : (emitAt s ring tick tier r).comps = s.comps := rfl
@[simp] theorem emitAt_life : (emitAt s ring tick tier r).life = s.life := rfl
@[simp] theorem emitAt_mons : (emitAt s ring tick tier r).mons = s.mons := rfl
@[simp] theorem emitAt_elc : (emitAt s ring tick tier r).elc = s.elc := rfl
@[simp] theorem emitAt_boot : (emitAt s ring tick tier r).boot = s.boot := rfl
@[simp] theorem emitAt_sec : (emitAt s ring tick tier r).sec = s.sec := rfl
@[simp] theorem emitAt_excs : (emitAt s ring tick tier r).excs = s.excs := rfl
end EmitAt

section BusOut
variable (s : State) (m : BusMsg)
@[simp] theorem busOut_pending : (busOut s m).pending = s.pending := rfl
@[simp] theorem busOut_freshN : (busOut s m).freshN = s.freshN := rfl
@[simp] theorem busOut_agenda : (busOut s m).agenda = s.agenda := rfl
@[simp] theorem busOut_time : (busOut s m).time = s.time := rfl
@[simp] theorem busOut_par : (busOut s m).par = s.par := rfl
@[simp] theorem busOut_mem : (busOut s m).mem = s.mem := rfl
@[simp] theorem busOut_pins : (busOut s m).pins = s.pins := rfl
@[simp] theorem busOut_sys : (busOut s m).sys = s.sys := rfl
@[simp] theorem busOut_sup : (busOut s m).sup = s.sup := rfl
@[simp] theorem busOut_flt : (busOut s m).flt = s.flt := rfl
@[simp] theorem busOut_cells : (busOut s m).cells = s.cells := rfl
@[simp] theorem busOut_doms : (busOut s m).doms = s.doms := rfl
@[simp] theorem busOut_trks : (busOut s m).trks = s.trks := rfl
@[simp] theorem busOut_blks : (busOut s m).blks = s.blks := rfl
@[simp] theorem busOut_bcar : (busOut s m).bcar = s.bcar := rfl
@[simp] theorem busOut_gcar : (busOut s m).gcar = s.gcar := rfl
@[simp] theorem busOut_chans : (busOut s m).chans = s.chans := rfl
@[simp] theorem busOut_pes : (busOut s m).pes = s.pes := rfl
@[simp] theorem busOut_adcs : (busOut s m).adcs = s.adcs := rfl
@[simp] theorem busOut_seqs : (busOut s m).seqs = s.seqs := rfl
@[simp] theorem busOut_comps : (busOut s m).comps = s.comps := rfl
@[simp] theorem busOut_life : (busOut s m).life = s.life := rfl
@[simp] theorem busOut_mons : (busOut s m).mons = s.mons := rfl
@[simp] theorem busOut_elc : (busOut s m).elc = s.elc := rfl
@[simp] theorem busOut_boot : (busOut s m).boot = s.boot := rfl
@[simp] theorem busOut_sec : (busOut s m).sec = s.sec := rfl
@[simp] theorem busOut_excs : (busOut s m).excs = s.excs := rfl
end BusOut

section Report
variable (s : State) (cls : Byte) (home : Scope) (detail : Nat) (masked : Bool)
@[simp] theorem report_pending : (report s cls home detail masked).pending = s.pending := rfl
@[simp] theorem report_freshN : (report s cls home detail masked).freshN = s.freshN := rfl
@[simp] theorem report_agenda : (report s cls home detail masked).agenda = s.agenda := rfl
@[simp] theorem report_time : (report s cls home detail masked).time = s.time := rfl
@[simp] theorem report_par : (report s cls home detail masked).par = s.par := rfl
@[simp] theorem report_mem : (report s cls home detail masked).mem = s.mem := rfl
@[simp] theorem report_pins : (report s cls home detail masked).pins = s.pins := rfl
@[simp] theorem report_sys : (report s cls home detail masked).sys = s.sys := rfl
@[simp] theorem report_host : (report s cls home detail masked).host = s.host := rfl
@[simp] theorem report_sup : (report s cls home detail masked).sup = s.sup := rfl
@[simp] theorem report_cells : (report s cls home detail masked).cells = s.cells := rfl
@[simp] theorem report_doms : (report s cls home detail masked).doms = s.doms := rfl
@[simp] theorem report_trks : (report s cls home detail masked).trks = s.trks := rfl
@[simp] theorem report_blks : (report s cls home detail masked).blks = s.blks := rfl
@[simp] theorem report_bcar : (report s cls home detail masked).bcar = s.bcar := rfl
@[simp] theorem report_gcar : (report s cls home detail masked).gcar = s.gcar := rfl
@[simp] theorem report_chans : (report s cls home detail masked).chans = s.chans := rfl
@[simp] theorem report_pes : (report s cls home detail masked).pes = s.pes := rfl
@[simp] theorem report_adcs : (report s cls home detail masked).adcs = s.adcs := rfl
@[simp] theorem report_seqs : (report s cls home detail masked).seqs = s.seqs := rfl
@[simp] theorem report_comps : (report s cls home detail masked).comps = s.comps := rfl
@[simp] theorem report_life : (report s cls home detail masked).life = s.life := rfl
@[simp] theorem report_mons : (report s cls home detail masked).mons = s.mons := rfl
@[simp] theorem report_elc : (report s cls home detail masked).elc = s.elc := rfl
@[simp] theorem report_boot : (report s cls home detail masked).boot = s.boot := rfl
@[simp] theorem report_sec : (report s cls home detail masked).sec = s.sec := rfl
@[simp] theorem report_excs : (report s cls home detail masked).excs = s.excs := rfl
end Report

section SetHreg
variable (s : State) (a : Nat) (v : Word32)
@[simp] theorem setHreg_pending : (setHreg s a v).pending = s.pending := rfl
@[simp] theorem setHreg_freshN : (setHreg s a v).freshN = s.freshN := rfl
@[simp] theorem setHreg_agenda : (setHreg s a v).agenda = s.agenda := rfl
@[simp] theorem setHreg_time : (setHreg s a v).time = s.time := rfl
@[simp] theorem setHreg_par : (setHreg s a v).par = s.par := rfl
@[simp] theorem setHreg_mem : (setHreg s a v).mem = s.mem := rfl
@[simp] theorem setHreg_pins : (setHreg s a v).pins = s.pins := rfl
@[simp] theorem setHreg_sys : (setHreg s a v).sys = s.sys := rfl
@[simp] theorem setHreg_sup : (setHreg s a v).sup = s.sup := rfl
@[simp] theorem setHreg_flt : (setHreg s a v).flt = s.flt := rfl
@[simp] theorem setHreg_cells : (setHreg s a v).cells = s.cells := rfl
@[simp] theorem setHreg_doms : (setHreg s a v).doms = s.doms := rfl
@[simp] theorem setHreg_trks : (setHreg s a v).trks = s.trks := rfl
@[simp] theorem setHreg_blks : (setHreg s a v).blks = s.blks := rfl
@[simp] theorem setHreg_bcar : (setHreg s a v).bcar = s.bcar := rfl
@[simp] theorem setHreg_gcar : (setHreg s a v).gcar = s.gcar := rfl
@[simp] theorem setHreg_chans : (setHreg s a v).chans = s.chans := rfl
@[simp] theorem setHreg_pes : (setHreg s a v).pes = s.pes := rfl
@[simp] theorem setHreg_adcs : (setHreg s a v).adcs = s.adcs := rfl
@[simp] theorem setHreg_seqs : (setHreg s a v).seqs = s.seqs := rfl
@[simp] theorem setHreg_comps : (setHreg s a v).comps = s.comps := rfl
@[simp] theorem setHreg_life : (setHreg s a v).life = s.life := rfl
@[simp] theorem setHreg_mons : (setHreg s a v).mons = s.mons := rfl
@[simp] theorem setHreg_elc : (setHreg s a v).elc = s.elc := rfl
@[simp] theorem setHreg_boot : (setHreg s a v).boot = s.boot := rfl
@[simp] theorem setHreg_sec : (setHreg s a v).sec = s.sec := rfl
@[simp] theorem setHreg_excs : (setHreg s a v).excs = s.excs := rfl
end SetHreg

section ImageCell
variable (s : State) (c : Fin 512) (o : Nat) (v : Word)
@[simp] theorem imageCell_pending : (imageCell s c o v).pending = s.pending := rfl
@[simp] theorem imageCell_freshN : (imageCell s c o v).freshN = s.freshN := rfl
@[simp] theorem imageCell_agenda : (imageCell s c o v).agenda = s.agenda := rfl
@[simp] theorem imageCell_time : (imageCell s c o v).time = s.time := rfl
@[simp] theorem imageCell_par : (imageCell s c o v).par = s.par := rfl
@[simp] theorem imageCell_pins : (imageCell s c o v).pins = s.pins := rfl
@[simp] theorem imageCell_sys : (imageCell s c o v).sys = s.sys := rfl
@[simp] theorem imageCell_host : (imageCell s c o v).host = s.host := rfl
@[simp] theorem imageCell_sup : (imageCell s c o v).sup = s.sup := rfl
@[simp] theorem imageCell_flt : (imageCell s c o v).flt = s.flt := rfl
@[simp] theorem imageCell_cells : (imageCell s c o v).cells = s.cells := rfl
@[simp] theorem imageCell_doms : (imageCell s c o v).doms = s.doms := rfl
@[simp] theorem imageCell_trks : (imageCell s c o v).trks = s.trks := rfl
@[simp] theorem imageCell_blks : (imageCell s c o v).blks = s.blks := rfl
@[simp] theorem imageCell_bcar : (imageCell s c o v).bcar = s.bcar := rfl
@[simp] theorem imageCell_gcar : (imageCell s c o v).gcar = s.gcar := rfl
@[simp] theorem imageCell_chans : (imageCell s c o v).chans = s.chans := rfl
@[simp] theorem imageCell_pes : (imageCell s c o v).pes = s.pes := rfl
@[simp] theorem imageCell_adcs : (imageCell s c o v).adcs = s.adcs := rfl
@[simp] theorem imageCell_seqs : (imageCell s c o v).seqs = s.seqs := rfl
@[simp] theorem imageCell_comps : (imageCell s c o v).comps = s.comps := rfl
@[simp] theorem imageCell_life : (imageCell s c o v).life = s.life := rfl
@[simp] theorem imageCell_mons : (imageCell s c o v).mons = s.mons := rfl
@[simp] theorem imageCell_elc : (imageCell s c o v).elc = s.elc := rfl
@[simp] theorem imageCell_boot : (imageCell s c o v).boot = s.boot := rfl
@[simp] theorem imageCell_sec : (imageCell s c o v).sec = s.sec := rfl
@[simp] theorem imageCell_excs : (imageCell s c o v).excs = s.excs := rfl
end ImageCell

section ArmPut
variable (s : State) (h : BitVec 12) (e : ArmEntry)
@[simp] theorem armPut_pending : (armPut s h e).pending = s.pending := rfl
@[simp] theorem armPut_freshN : (armPut s h e).freshN = s.freshN := rfl
@[simp] theorem armPut_agenda : (armPut s h e).agenda = s.agenda := rfl
@[simp] theorem armPut_time : (armPut s h e).time = s.time := rfl
@[simp] theorem armPut_par : (armPut s h e).par = s.par := rfl
@[simp] theorem armPut_mem : (armPut s h e).mem = s.mem := rfl
@[simp] theorem armPut_pins : (armPut s h e).pins = s.pins := rfl
@[simp] theorem armPut_sys : (armPut s h e).sys = s.sys := rfl
@[simp] theorem armPut_host : (armPut s h e).host = s.host := rfl
@[simp] theorem armPut_sup : (armPut s h e).sup = s.sup := rfl
@[simp] theorem armPut_flt : (armPut s h e).flt = s.flt := rfl
@[simp] theorem armPut_cells : (armPut s h e).cells = s.cells := rfl
@[simp] theorem armPut_trks : (armPut s h e).trks = s.trks := rfl
@[simp] theorem armPut_blks : (armPut s h e).blks = s.blks := rfl
@[simp] theorem armPut_bcar : (armPut s h e).bcar = s.bcar := rfl
@[simp] theorem armPut_gcar : (armPut s h e).gcar = s.gcar := rfl
@[simp] theorem armPut_chans : (armPut s h e).chans = s.chans := rfl
@[simp] theorem armPut_pes : (armPut s h e).pes = s.pes := rfl
@[simp] theorem armPut_adcs : (armPut s h e).adcs = s.adcs := rfl
@[simp] theorem armPut_seqs : (armPut s h e).seqs = s.seqs := rfl
@[simp] theorem armPut_comps : (armPut s h e).comps = s.comps := rfl
@[simp] theorem armPut_life : (armPut s h e).life = s.life := rfl
@[simp] theorem armPut_mons : (armPut s h e).mons = s.mons := rfl
@[simp] theorem armPut_elc : (armPut s h e).elc = s.elc := rfl
@[simp] theorem armPut_boot : (armPut s h e).boot = s.boot := rfl
@[simp] theorem armPut_sec : (armPut s h e).sec = s.sec := rfl
@[simp] theorem armPut_excs : (armPut s h e).excs = s.excs := rfl
end ArmPut

section ArmFree
variable (s : State) (h : BitVec 12)
@[simp] theorem armFree_pending : (armFree s h).pending = s.pending := rfl
@[simp] theorem armFree_freshN : (armFree s h).freshN = s.freshN := rfl
@[simp] theorem armFree_agenda : (armFree s h).agenda = s.agenda := rfl
@[simp] theorem armFree_time : (armFree s h).time = s.time := rfl
@[simp] theorem armFree_par : (armFree s h).par = s.par := rfl
@[simp] theorem armFree_mem : (armFree s h).mem = s.mem := rfl
@[simp] theorem armFree_pins : (armFree s h).pins = s.pins := rfl
@[simp] theorem armFree_sys : (armFree s h).sys = s.sys := rfl
@[simp] theorem armFree_host : (armFree s h).host = s.host := rfl
@[simp] theorem armFree_sup : (armFree s h).sup = s.sup := rfl
@[simp] theorem armFree_flt : (armFree s h).flt = s.flt := rfl
@[simp] theorem armFree_cells : (armFree s h).cells = s.cells := rfl
@[simp] theorem armFree_trks : (armFree s h).trks = s.trks := rfl
@[simp] theorem armFree_blks : (armFree s h).blks = s.blks := rfl
@[simp] theorem armFree_bcar : (armFree s h).bcar = s.bcar := rfl
@[simp] theorem armFree_gcar : (armFree s h).gcar = s.gcar := rfl
@[simp] theorem armFree_chans : (armFree s h).chans = s.chans := rfl
@[simp] theorem armFree_pes : (armFree s h).pes = s.pes := rfl
@[simp] theorem armFree_adcs : (armFree s h).adcs = s.adcs := rfl
@[simp] theorem armFree_seqs : (armFree s h).seqs = s.seqs := rfl
@[simp] theorem armFree_comps : (armFree s h).comps = s.comps := rfl
@[simp] theorem armFree_life : (armFree s h).life = s.life := rfl
@[simp] theorem armFree_mons : (armFree s h).mons = s.mons := rfl
@[simp] theorem armFree_elc : (armFree s h).elc = s.elc := rfl
@[simp] theorem armFree_boot : (armFree s h).boot = s.boot := rfl
@[simp] theorem armFree_sec : (armFree s h).sec = s.sec := rfl
@[simp] theorem armFree_excs : (armFree s h).excs = s.excs := rfl
end ArmFree

section AddLate
variable (s : State) (rank : Nat) (who : Requester) (op : LateOp)
@[simp] theorem addLate_pending : (addLate s rank who op).pending = s.pending := rfl
@[simp] theorem addLate_freshN : (addLate s rank who op).freshN = s.freshN := rfl
@[simp] theorem addLate_time : (addLate s rank who op).time = s.time := rfl
@[simp] theorem addLate_par : (addLate s rank who op).par = s.par := rfl
@[simp] theorem addLate_mem : (addLate s rank who op).mem = s.mem := rfl
@[simp] theorem addLate_pins : (addLate s rank who op).pins = s.pins := rfl
@[simp] theorem addLate_sys : (addLate s rank who op).sys = s.sys := rfl
@[simp] theorem addLate_host : (addLate s rank who op).host = s.host := rfl
@[simp] theorem addLate_sup : (addLate s rank who op).sup = s.sup := rfl
@[simp] theorem addLate_flt : (addLate s rank who op).flt = s.flt := rfl
@[simp] theorem addLate_cells : (addLate s rank who op).cells = s.cells := rfl
@[simp] theorem addLate_doms : (addLate s rank who op).doms = s.doms := rfl
@[simp] theorem addLate_trks : (addLate s rank who op).trks = s.trks := rfl
@[simp] theorem addLate_blks : (addLate s rank who op).blks = s.blks := rfl
@[simp] theorem addLate_bcar : (addLate s rank who op).bcar = s.bcar := rfl
@[simp] theorem addLate_gcar : (addLate s rank who op).gcar = s.gcar := rfl
@[simp] theorem addLate_chans : (addLate s rank who op).chans = s.chans := rfl
@[simp] theorem addLate_pes : (addLate s rank who op).pes = s.pes := rfl
@[simp] theorem addLate_adcs : (addLate s rank who op).adcs = s.adcs := rfl
@[simp] theorem addLate_seqs : (addLate s rank who op).seqs = s.seqs := rfl
@[simp] theorem addLate_comps : (addLate s rank who op).comps = s.comps := rfl
@[simp] theorem addLate_life : (addLate s rank who op).life = s.life := rfl
@[simp] theorem addLate_mons : (addLate s rank who op).mons = s.mons := rfl
@[simp] theorem addLate_elc : (addLate s rank who op).elc = s.elc := rfl
@[simp] theorem addLate_boot : (addLate s rank who op).boot = s.boot := rfl
@[simp] theorem addLate_sec : (addLate s rank who op).sec = s.sec := rfl
@[simp] theorem addLate_excs : (addLate s rank who op).excs = s.excs := rfl
@[simp] theorem addLate_outs : (addLate s rank who op).agenda.outs = s.agenda.outs := rfl
@[simp] theorem addLate_banks : (addLate s rank who op).agenda.banks = s.agenda.banks := rfl
@[simp] theorem addLate_bankLast : (addLate s rank who op).agenda.bankLast = s.agenda.bankLast := rfl
@[simp] theorem addLate_jobs : (addLate s rank who op).agenda.jobs = s.agenda.jobs := rfl
end AddLate

section AddJob
variable (s : State) (n : Nat) (j : Job)
@[simp] theorem addJob_pending : (addJob s n j).pending = s.pending := rfl
@[simp] theorem addJob_freshN : (addJob s n j).freshN = s.freshN := rfl
@[simp] theorem addJob_time : (addJob s n j).time = s.time := rfl
@[simp] theorem addJob_par : (addJob s n j).par = s.par := rfl
@[simp] theorem addJob_mem : (addJob s n j).mem = s.mem := rfl
@[simp] theorem addJob_pins : (addJob s n j).pins = s.pins := rfl
@[simp] theorem addJob_sys : (addJob s n j).sys = s.sys := rfl
@[simp] theorem addJob_host : (addJob s n j).host = s.host := rfl
@[simp] theorem addJob_sup : (addJob s n j).sup = s.sup := rfl
@[simp] theorem addJob_flt : (addJob s n j).flt = s.flt := rfl
@[simp] theorem addJob_cells : (addJob s n j).cells = s.cells := rfl
@[simp] theorem addJob_doms : (addJob s n j).doms = s.doms := rfl
@[simp] theorem addJob_trks : (addJob s n j).trks = s.trks := rfl
@[simp] theorem addJob_blks : (addJob s n j).blks = s.blks := rfl
@[simp] theorem addJob_bcar : (addJob s n j).bcar = s.bcar := rfl
@[simp] theorem addJob_gcar : (addJob s n j).gcar = s.gcar := rfl
@[simp] theorem addJob_chans : (addJob s n j).chans = s.chans := rfl
@[simp] theorem addJob_pes : (addJob s n j).pes = s.pes := rfl
@[simp] theorem addJob_adcs : (addJob s n j).adcs = s.adcs := rfl
@[simp] theorem addJob_seqs : (addJob s n j).seqs = s.seqs := rfl
@[simp] theorem addJob_comps : (addJob s n j).comps = s.comps := rfl
@[simp] theorem addJob_life : (addJob s n j).life = s.life := rfl
@[simp] theorem addJob_mons : (addJob s n j).mons = s.mons := rfl
@[simp] theorem addJob_elc : (addJob s n j).elc = s.elc := rfl
@[simp] theorem addJob_boot : (addJob s n j).boot = s.boot := rfl
@[simp] theorem addJob_sec : (addJob s n j).sec = s.sec := rfl
@[simp] theorem addJob_excs : (addJob s n j).excs = s.excs := rfl
@[simp] theorem addJob_outs : (addJob s n j).agenda.outs = s.agenda.outs := rfl
@[simp] theorem addJob_banks : (addJob s n j).agenda.banks = s.agenda.banks := rfl
@[simp] theorem addJob_bankLast : (addJob s n j).agenda.bankLast = s.agenda.bankLast := rfl
@[simp] theorem addJob_late : (addJob s n j).agenda.late = s.agenda.late := rfl
end AddJob

section NoteHost
variable (s : State) (a : Nat) (old : Word) (f : Word → Word)
@[simp] theorem noteHost_pending : (noteHost s a old f).pending = s.pending := rfl
@[simp] theorem noteHost_freshN : (noteHost s a old f).freshN = s.freshN := rfl
@[simp] theorem noteHost_time : (noteHost s a old f).time = s.time := rfl
@[simp] theorem noteHost_agenda : (noteHost s a old f).agenda = s.agenda := rfl
@[simp] theorem noteHost_mem : (noteHost s a old f).mem = s.mem := rfl
@[simp] theorem noteHost_pins : (noteHost s a old f).pins = s.pins := rfl
@[simp] theorem noteHost_sys : (noteHost s a old f).sys = s.sys := rfl
@[simp] theorem noteHost_host : (noteHost s a old f).host = s.host := rfl
@[simp] theorem noteHost_sup : (noteHost s a old f).sup = s.sup := rfl
@[simp] theorem noteHost_flt : (noteHost s a old f).flt = s.flt := rfl
@[simp] theorem noteHost_cells : (noteHost s a old f).cells = s.cells := rfl
@[simp] theorem noteHost_doms : (noteHost s a old f).doms = s.doms := rfl
@[simp] theorem noteHost_trks : (noteHost s a old f).trks = s.trks := rfl
@[simp] theorem noteHost_blks : (noteHost s a old f).blks = s.blks := rfl
@[simp] theorem noteHost_bcar : (noteHost s a old f).bcar = s.bcar := rfl
@[simp] theorem noteHost_gcar : (noteHost s a old f).gcar = s.gcar := rfl
@[simp] theorem noteHost_chans : (noteHost s a old f).chans = s.chans := rfl
@[simp] theorem noteHost_pes : (noteHost s a old f).pes = s.pes := rfl
@[simp] theorem noteHost_adcs : (noteHost s a old f).adcs = s.adcs := rfl
@[simp] theorem noteHost_seqs : (noteHost s a old f).seqs = s.seqs := rfl
@[simp] theorem noteHost_comps : (noteHost s a old f).comps = s.comps := rfl
@[simp] theorem noteHost_life : (noteHost s a old f).life = s.life := rfl
@[simp] theorem noteHost_mons : (noteHost s a old f).mons = s.mons := rfl
@[simp] theorem noteHost_elc : (noteHost s a old f).elc = s.elc := rfl
@[simp] theorem noteHost_boot : (noteHost s a old f).boot = s.boot := rfl
@[simp] theorem noteHost_sec : (noteHost s a old f).sec = s.sec := rfl
@[simp] theorem noteHost_excs : (noteHost s a old f).excs = s.excs := rfl
@[simp] theorem noteHost_reg : (noteHost s a old f).par.reg = s.par.reg := rfl
@[simp] theorem noteHost_work : (noteHost s a old f).par.work = s.par.work := rfl
@[simp] theorem noteHost_hlog : (noteHost s a old f).par.hlog = s.par.hlog := rfl
@[simp] theorem noteHost_caps : (noteHost s a old f).par.caps = s.par.caps := rfl
@[simp] theorem noteHost_lows : (noteHost s a old f).par.lows = s.par.lows := rfl
@[simp] theorem noteHost_sels : (noteHost s a old f).par.sels = s.par.sels := rfl
@[simp] theorem noteHost_snaps : (noteHost s a old f).par.snaps = s.par.snaps := rfl
end NoteHost

section NoteFresh
variable (s : State) (l : PLoc) (f : Word → Word)
@[simp] theorem noteFresh_pending : (noteFresh s l f).pending = s.pending := rfl
@[simp] theorem noteFresh_freshN : (noteFresh s l f).freshN = s.freshN := rfl
@[simp] theorem noteFresh_time : (noteFresh s l f).time = s.time := rfl
@[simp] theorem noteFresh_agenda : (noteFresh s l f).agenda = s.agenda := rfl
@[simp] theorem noteFresh_mem : (noteFresh s l f).mem = s.mem := rfl
@[simp] theorem noteFresh_pins : (noteFresh s l f).pins = s.pins := rfl
@[simp] theorem noteFresh_sys : (noteFresh s l f).sys = s.sys := rfl
@[simp] theorem noteFresh_host : (noteFresh s l f).host = s.host := rfl
@[simp] theorem noteFresh_sup : (noteFresh s l f).sup = s.sup := rfl
@[simp] theorem noteFresh_flt : (noteFresh s l f).flt = s.flt := rfl
@[simp] theorem noteFresh_cells : (noteFresh s l f).cells = s.cells := rfl
@[simp] theorem noteFresh_doms : (noteFresh s l f).doms = s.doms := rfl
@[simp] theorem noteFresh_trks : (noteFresh s l f).trks = s.trks := rfl
@[simp] theorem noteFresh_blks : (noteFresh s l f).blks = s.blks := rfl
@[simp] theorem noteFresh_bcar : (noteFresh s l f).bcar = s.bcar := rfl
@[simp] theorem noteFresh_gcar : (noteFresh s l f).gcar = s.gcar := rfl
@[simp] theorem noteFresh_chans : (noteFresh s l f).chans = s.chans := rfl
@[simp] theorem noteFresh_pes : (noteFresh s l f).pes = s.pes := rfl
@[simp] theorem noteFresh_adcs : (noteFresh s l f).adcs = s.adcs := rfl
@[simp] theorem noteFresh_seqs : (noteFresh s l f).seqs = s.seqs := rfl
@[simp] theorem noteFresh_comps : (noteFresh s l f).comps = s.comps := rfl
@[simp] theorem noteFresh_life : (noteFresh s l f).life = s.life := rfl
@[simp] theorem noteFresh_mons : (noteFresh s l f).mons = s.mons := rfl
@[simp] theorem noteFresh_elc : (noteFresh s l f).elc = s.elc := rfl
@[simp] theorem noteFresh_boot : (noteFresh s l f).boot = s.boot := rfl
@[simp] theorem noteFresh_sec : (noteFresh s l f).sec = s.sec := rfl
@[simp] theorem noteFresh_excs : (noteFresh s l f).excs = s.excs := rfl
@[simp] theorem noteFresh_reg : (noteFresh s l f).par.reg = s.par.reg := rfl
@[simp] theorem noteFresh_work : (noteFresh s l f).par.work = s.par.work := rfl
@[simp] theorem noteFresh_hlog : (noteFresh s l f).par.hlog = s.par.hlog := rfl
@[simp] theorem noteFresh_caps : (noteFresh s l f).par.caps = s.par.caps := rfl
@[simp] theorem noteFresh_lows : (noteFresh s l f).par.lows = s.par.lows := rfl
@[simp] theorem noteFresh_sels : (noteFresh s l f).par.sels = s.par.sels := rfl
@[simp] theorem noteFresh_snaps : (noteFresh s l f).par.snaps = s.par.snaps := rfl
end NoteFresh

section SendVector
variable (s : State) (v : Fin 32)
@[simp] theorem sendVector_pending : (sendVector s v).pending = s.pending := by unfold sendVector; split <;> rfl
@[simp] theorem sendVector_freshN : (sendVector s v).freshN = s.freshN := by unfold sendVector; split <;> rfl
@[simp] theorem sendVector_agenda : (sendVector s v).agenda = s.agenda := by unfold sendVector; split <;> rfl
@[simp] theorem sendVector_time : (sendVector s v).time = s.time := by unfold sendVector; split <;> rfl
@[simp] theorem sendVector_par : (sendVector s v).par = s.par := by unfold sendVector; split <;> rfl
@[simp] theorem sendVector_mem : (sendVector s v).mem = s.mem := by unfold sendVector; split <;> rfl
@[simp] theorem sendVector_pins : (sendVector s v).pins = s.pins := by unfold sendVector; split <;> rfl
@[simp] theorem sendVector_sys : (sendVector s v).sys = s.sys := by unfold sendVector; split <;> rfl
@[simp] theorem sendVector_sup : (sendVector s v).sup = s.sup := by unfold sendVector; split <;> rfl
@[simp] theorem sendVector_flt : (sendVector s v).flt = s.flt := by unfold sendVector; split <;> rfl
@[simp] theorem sendVector_cells : (sendVector s v).cells = s.cells := by unfold sendVector; split <;> rfl
@[simp] theorem sendVector_doms : (sendVector s v).doms = s.doms := by unfold sendVector; split <;> rfl
@[simp] theorem sendVector_trks : (sendVector s v).trks = s.trks := by unfold sendVector; split <;> rfl
@[simp] theorem sendVector_blks : (sendVector s v).blks = s.blks := by unfold sendVector; split <;> rfl
@[simp] theorem sendVector_bcar : (sendVector s v).bcar = s.bcar := by unfold sendVector; split <;> rfl
@[simp] theorem sendVector_gcar : (sendVector s v).gcar = s.gcar := by unfold sendVector; split <;> rfl
@[simp] theorem sendVector_chans : (sendVector s v).chans = s.chans := by unfold sendVector; split <;> rfl
@[simp] theorem sendVector_pes : (sendVector s v).pes = s.pes := by unfold sendVector; split <;> rfl
@[simp] theorem sendVector_adcs : (sendVector s v).adcs = s.adcs := by unfold sendVector; split <;> rfl
@[simp] theorem sendVector_seqs : (sendVector s v).seqs = s.seqs := by unfold sendVector; split <;> rfl
@[simp] theorem sendVector_comps : (sendVector s v).comps = s.comps := by unfold sendVector; split <;> rfl
@[simp] theorem sendVector_life : (sendVector s v).life = s.life := by unfold sendVector; split <;> rfl
@[simp] theorem sendVector_mons : (sendVector s v).mons = s.mons := by unfold sendVector; split <;> rfl
@[simp] theorem sendVector_elc : (sendVector s v).elc = s.elc := by unfold sendVector; split <;> rfl
@[simp] theorem sendVector_boot : (sendVector s v).boot = s.boot := by unfold sendVector; split <;> rfl
@[simp] theorem sendVector_sec : (sendVector s v).sec = s.sec := by unfold sendVector; split <;> rfl
@[simp] theorem sendVector_excs : (sendVector s v).excs = s.excs := by unfold sendVector; split <;> rfl
end SendVector

section RaiseIrq
variable (s : State) (i : Nat)
@[simp] theorem raiseIrq_pending : (raiseIrq s i).pending = s.pending := by unfold raiseIrq; dsimp only; split <;> simp
@[simp] theorem raiseIrq_freshN : (raiseIrq s i).freshN = s.freshN := by unfold raiseIrq; dsimp only; split <;> simp
@[simp] theorem raiseIrq_agenda : (raiseIrq s i).agenda = s.agenda := by unfold raiseIrq; dsimp only; split <;> simp
@[simp] theorem raiseIrq_time : (raiseIrq s i).time = s.time := by unfold raiseIrq; dsimp only; split <;> simp
@[simp] theorem raiseIrq_reg : (raiseIrq s i).par.reg = s.par.reg := by unfold raiseIrq; dsimp only; split <;> simp
@[simp] theorem raiseIrq_work : (raiseIrq s i).par.work = s.par.work := by unfold raiseIrq; dsimp only; split <;> simp
@[simp] theorem raiseIrq_hlog : (raiseIrq s i).par.hlog = s.par.hlog := by unfold raiseIrq; dsimp only; split <;> simp
@[simp] theorem raiseIrq_caps : (raiseIrq s i).par.caps = s.par.caps := by unfold raiseIrq; dsimp only; split <;> simp
@[simp] theorem raiseIrq_lows : (raiseIrq s i).par.lows = s.par.lows := by unfold raiseIrq; dsimp only; split <;> simp
@[simp] theorem raiseIrq_sels : (raiseIrq s i).par.sels = s.par.sels := by unfold raiseIrq; dsimp only; split <;> simp
@[simp] theorem raiseIrq_snaps : (raiseIrq s i).par.snaps = s.par.snaps := by unfold raiseIrq; dsimp only; split <;> simp
@[simp] theorem raiseIrq_mem : (raiseIrq s i).mem = s.mem := by unfold raiseIrq; dsimp only; split <;> simp
@[simp] theorem raiseIrq_pins : (raiseIrq s i).pins = s.pins := by unfold raiseIrq; dsimp only; split <;> simp
@[simp] theorem raiseIrq_sys : (raiseIrq s i).sys = s.sys := by unfold raiseIrq; dsimp only; split <;> simp
@[simp] theorem raiseIrq_sup : (raiseIrq s i).sup = s.sup := by unfold raiseIrq; dsimp only; split <;> simp
@[simp] theorem raiseIrq_flt : (raiseIrq s i).flt = s.flt := by unfold raiseIrq; dsimp only; split <;> simp
@[simp] theorem raiseIrq_cells : (raiseIrq s i).cells = s.cells := by unfold raiseIrq; dsimp only; split <;> simp
@[simp] theorem raiseIrq_doms : (raiseIrq s i).doms = s.doms := by unfold raiseIrq; dsimp only; split <;> simp
@[simp] theorem raiseIrq_trks : (raiseIrq s i).trks = s.trks := by unfold raiseIrq; dsimp only; split <;> simp
@[simp] theorem raiseIrq_blks : (raiseIrq s i).blks = s.blks := by unfold raiseIrq; dsimp only; split <;> simp
@[simp] theorem raiseIrq_bcar : (raiseIrq s i).bcar = s.bcar := by unfold raiseIrq; dsimp only; split <;> simp
@[simp] theorem raiseIrq_gcar : (raiseIrq s i).gcar = s.gcar := by unfold raiseIrq; dsimp only; split <;> simp
@[simp] theorem raiseIrq_chans : (raiseIrq s i).chans = s.chans := by unfold raiseIrq; dsimp only; split <;> simp
@[simp] theorem raiseIrq_pes : (raiseIrq s i).pes = s.pes := by unfold raiseIrq; dsimp only; split <;> simp
@[simp] theorem raiseIrq_adcs : (raiseIrq s i).adcs = s.adcs := by unfold raiseIrq; dsimp only; split <;> simp
@[simp] theorem raiseIrq_seqs : (raiseIrq s i).seqs = s.seqs := by unfold raiseIrq; dsimp only; split <;> simp
@[simp] theorem raiseIrq_comps : (raiseIrq s i).comps = s.comps := by unfold raiseIrq; dsimp only; split <;> simp
@[simp] theorem raiseIrq_life : (raiseIrq s i).life = s.life := by unfold raiseIrq; dsimp only; split <;> simp
@[simp] theorem raiseIrq_mons : (raiseIrq s i).mons = s.mons := by unfold raiseIrq; dsimp only; split <;> simp
@[simp] theorem raiseIrq_elc : (raiseIrq s i).elc = s.elc := by unfold raiseIrq; dsimp only; split <;> simp
@[simp] theorem raiseIrq_boot : (raiseIrq s i).boot = s.boot := by unfold raiseIrq; dsimp only; split <;> simp
@[simp] theorem raiseIrq_sec : (raiseIrq s i).sec = s.sec := by unfold raiseIrq; dsimp only; split <;> simp
@[simp] theorem raiseIrq_excs : (raiseIrq s i).excs = s.excs := by unfold raiseIrq; dsimp only; split <;> simp
end RaiseIrq

section Violation
variable (s : State) (a w x p b c q : Nat)
@[simp] theorem violation_pending : (violation s a w x p b c q).pending = s.pending := by unfold violation; simp
@[simp] theorem violation_freshN : (violation s a w x p b c q).freshN = s.freshN := by unfold violation; simp
@[simp] theorem violation_agenda : (violation s a w x p b c q).agenda = s.agenda := by unfold violation; simp
@[simp] theorem violation_time : (violation s a w x p b c q).time = s.time := by unfold violation; simp
@[simp] theorem violation_reg : (violation s a w x p b c q).par.reg = s.par.reg := by unfold violation; simp
@[simp] theorem violation_work : (violation s a w x p b c q).par.work = s.par.work := by unfold violation; simp
@[simp] theorem violation_hlog : (violation s a w x p b c q).par.hlog = s.par.hlog := by unfold violation; simp
@[simp] theorem violation_caps : (violation s a w x p b c q).par.caps = s.par.caps := by unfold violation; simp
@[simp] theorem violation_lows : (violation s a w x p b c q).par.lows = s.par.lows := by unfold violation; simp
@[simp] theorem violation_sels : (violation s a w x p b c q).par.sels = s.par.sels := by unfold violation; simp
@[simp] theorem violation_snaps : (violation s a w x p b c q).par.snaps = s.par.snaps := by unfold violation; simp
@[simp] theorem violation_mem : (violation s a w x p b c q).mem = s.mem := by unfold violation; simp
@[simp] theorem violation_pins : (violation s a w x p b c q).pins = s.pins := by unfold violation; simp
@[simp] theorem violation_sys : (violation s a w x p b c q).sys = s.sys := by unfold violation; simp
@[simp] theorem violation_sup : (violation s a w x p b c q).sup = s.sup := by unfold violation; simp
@[simp] theorem violation_flt : (violation s a w x p b c q).flt = s.flt := by unfold violation; simp
@[simp] theorem violation_cells : (violation s a w x p b c q).cells = s.cells := by unfold violation; simp
@[simp] theorem violation_doms : (violation s a w x p b c q).doms = s.doms := by unfold violation; simp
@[simp] theorem violation_trks : (violation s a w x p b c q).trks = s.trks := by unfold violation; simp
@[simp] theorem violation_blks : (violation s a w x p b c q).blks = s.blks := by unfold violation; simp
@[simp] theorem violation_bcar : (violation s a w x p b c q).bcar = s.bcar := by unfold violation; simp
@[simp] theorem violation_gcar : (violation s a w x p b c q).gcar = s.gcar := by unfold violation; simp
@[simp] theorem violation_chans : (violation s a w x p b c q).chans = s.chans := by unfold violation; simp
@[simp] theorem violation_pes : (violation s a w x p b c q).pes = s.pes := by unfold violation; simp
@[simp] theorem violation_adcs : (violation s a w x p b c q).adcs = s.adcs := by unfold violation; simp
@[simp] theorem violation_seqs : (violation s a w x p b c q).seqs = s.seqs := by unfold violation; simp
@[simp] theorem violation_comps : (violation s a w x p b c q).comps = s.comps := by unfold violation; simp
@[simp] theorem violation_life : (violation s a w x p b c q).life = s.life := by unfold violation; simp
@[simp] theorem violation_mons : (violation s a w x p b c q).mons = s.mons := by unfold violation; simp
@[simp] theorem violation_elc : (violation s a w x p b c q).elc = s.elc := by unfold violation; simp
@[simp] theorem violation_boot : (violation s a w x p b c q).boot = s.boot := by unfold violation; simp
@[simp] theorem violation_sec : (violation s a w x p b c q).sec = s.sec := by unfold violation; simp
@[simp] theorem violation_excs : (violation s a w x p b c q).excs = s.excs := by unfold violation; simp
end Violation

section EmitRegion
variable (s : State) (r : Fin 4) (ring tick : Nat) (x : Rec)
@[simp] theorem emitRegion_pending : (emitRegion s r ring tick x).pending = s.pending := rfl
@[simp] theorem emitRegion_freshN : (emitRegion s r ring tick x).freshN = s.freshN := rfl
@[simp] theorem emitRegion_agenda : (emitRegion s r ring tick x).agenda = s.agenda := rfl
@[simp] theorem emitRegion_time : (emitRegion s r ring tick x).time = s.time := rfl
@[simp] theorem emitRegion_mem : (emitRegion s r ring tick x).mem = s.mem := rfl
@[simp] theorem emitRegion_pins : (emitRegion s r ring tick x).pins = s.pins := rfl
@[simp] theorem emitRegion_sys : (emitRegion s r ring tick x).sys = s.sys := rfl
@[simp] theorem emitRegion_sup : (emitRegion s r ring tick x).sup = s.sup := rfl
@[simp] theorem emitRegion_flt : (emitRegion s r ring tick x).flt = s.flt := rfl
@[simp] theorem emitRegion_cells : (emitRegion s r ring tick x).cells = s.cells := rfl
@[simp] theorem emitRegion_doms : (emitRegion s r ring tick x).doms = s.doms := rfl
@[simp] theorem emitRegion_trks : (emitRegion s r ring tick x).trks = s.trks := rfl
@[simp] theorem emitRegion_blks : (emitRegion s r ring tick x).blks = s.blks := rfl
@[simp] theorem emitRegion_bcar : (emitRegion s r ring tick x).bcar = s.bcar := rfl
@[simp] theorem emitRegion_gcar : (emitRegion s r ring tick x).gcar = s.gcar := rfl
@[simp] theorem emitRegion_chans : (emitRegion s r ring tick x).chans = s.chans := rfl
@[simp] theorem emitRegion_pes : (emitRegion s r ring tick x).pes = s.pes := rfl
@[simp] theorem emitRegion_adcs : (emitRegion s r ring tick x).adcs = s.adcs := rfl
@[simp] theorem emitRegion_seqs : (emitRegion s r ring tick x).seqs = s.seqs := rfl
@[simp] theorem emitRegion_comps : (emitRegion s r ring tick x).comps = s.comps := rfl
@[simp] theorem emitRegion_life : (emitRegion s r ring tick x).life = s.life := rfl
@[simp] theorem emitRegion_mons : (emitRegion s r ring tick x).mons = s.mons := rfl
@[simp] theorem emitRegion_elc : (emitRegion s r ring tick x).elc = s.elc := rfl
@[simp] theorem emitRegion_boot : (emitRegion s r ring tick x).boot = s.boot := rfl
@[simp] theorem emitRegion_sec : (emitRegion s r ring tick x).sec = s.sec := rfl
@[simp] theorem emitRegion_excs : (emitRegion s r ring tick x).excs = s.excs := rfl
end EmitRegion

section UpdCarrier
variable (s : State) (c : Carrier) (f : CarrierSt → CarrierSt)
@[simp] theorem updCarrier_pending : (updCarrier s c f).pending = s.pending := by cases c <;> rfl
@[simp] theorem updCarrier_freshN : (updCarrier s c f).freshN = s.freshN := by cases c <;> rfl
@[simp] theorem updCarrier_agenda : (updCarrier s c f).agenda = s.agenda := by cases c <;> rfl
@[simp] theorem updCarrier_time : (updCarrier s c f).time = s.time := by cases c <;> rfl
@[simp] theorem updCarrier_par : (updCarrier s c f).par = s.par := by cases c <;> rfl
@[simp] theorem updCarrier_mem : (updCarrier s c f).mem = s.mem := by cases c <;> rfl
@[simp] theorem updCarrier_pins : (updCarrier s c f).pins = s.pins := by cases c <;> rfl
@[simp] theorem updCarrier_sys : (updCarrier s c f).sys = s.sys := by cases c <;> rfl
@[simp] theorem updCarrier_host : (updCarrier s c f).host = s.host := by cases c <;> rfl
@[simp] theorem updCarrier_sup : (updCarrier s c f).sup = s.sup := by cases c <;> rfl
@[simp] theorem updCarrier_flt : (updCarrier s c f).flt = s.flt := by cases c <;> rfl
@[simp] theorem updCarrier_cells : (updCarrier s c f).cells = s.cells := by cases c <;> rfl
@[simp] theorem updCarrier_doms : (updCarrier s c f).doms = s.doms := by cases c <;> rfl
@[simp] theorem updCarrier_trks : (updCarrier s c f).trks = s.trks := by cases c <;> rfl
@[simp] theorem updCarrier_blks : (updCarrier s c f).blks = s.blks := by cases c <;> rfl
@[simp] theorem updCarrier_chans : (updCarrier s c f).chans = s.chans := by cases c <;> rfl
@[simp] theorem updCarrier_pes : (updCarrier s c f).pes = s.pes := by cases c <;> rfl
@[simp] theorem updCarrier_adcs : (updCarrier s c f).adcs = s.adcs := by cases c <;> rfl
@[simp] theorem updCarrier_seqs : (updCarrier s c f).seqs = s.seqs := by cases c <;> rfl
@[simp] theorem updCarrier_comps : (updCarrier s c f).comps = s.comps := by cases c <;> rfl
@[simp] theorem updCarrier_life : (updCarrier s c f).life = s.life := by cases c <;> rfl
@[simp] theorem updCarrier_mons : (updCarrier s c f).mons = s.mons := by cases c <;> rfl
@[simp] theorem updCarrier_elc : (updCarrier s c f).elc = s.elc := by cases c <;> rfl
@[simp] theorem updCarrier_boot : (updCarrier s c f).boot = s.boot := by cases c <;> rfl
@[simp] theorem updCarrier_sec : (updCarrier s c f).sec = s.sec := by cases c <;> rfl
@[simp] theorem updCarrier_excs : (updCarrier s c f).excs = s.excs := by cases c <;> rfl
end UpdCarrier

section SetEccBad
variable (s : State) (m : MemId) (i a : Nat)
@[simp] theorem setEccBad_pending : (setEccBad s m i a).pending = s.pending := by unfold setEccBad; split <;> rfl
@[simp] theorem setEccBad_freshN : (setEccBad s m i a).freshN = s.freshN := by unfold setEccBad; split <;> rfl
@[simp] theorem setEccBad_agenda : (setEccBad s m i a).agenda = s.agenda := by unfold setEccBad; split <;> rfl
@[simp] theorem setEccBad_time : (setEccBad s m i a).time = s.time := by unfold setEccBad; split <;> rfl
@[simp] theorem setEccBad_par : (setEccBad s m i a).par = s.par := by unfold setEccBad; split <;> rfl
@[simp] theorem setEccBad_pins : (setEccBad s m i a).pins = s.pins := by unfold setEccBad; split <;> rfl
@[simp] theorem setEccBad_sys : (setEccBad s m i a).sys = s.sys := by unfold setEccBad; split <;> rfl
@[simp] theorem setEccBad_host : (setEccBad s m i a).host = s.host := by unfold setEccBad; split <;> rfl
@[simp] theorem setEccBad_sup : (setEccBad s m i a).sup = s.sup := by unfold setEccBad; split <;> rfl
@[simp] theorem setEccBad_flt : (setEccBad s m i a).flt = s.flt := by unfold setEccBad; split <;> rfl
@[simp] theorem setEccBad_cells : (setEccBad s m i a).cells = s.cells := by unfold setEccBad; split <;> rfl
@[simp] theorem setEccBad_doms : (setEccBad s m i a).doms = s.doms := by unfold setEccBad; split <;> rfl
@[simp] theorem setEccBad_trks : (setEccBad s m i a).trks = s.trks := by unfold setEccBad; split <;> rfl
@[simp] theorem setEccBad_blks : (setEccBad s m i a).blks = s.blks := by unfold setEccBad; split <;> rfl
@[simp] theorem setEccBad_bcar : (setEccBad s m i a).bcar = s.bcar := by unfold setEccBad; split <;> rfl
@[simp] theorem setEccBad_gcar : (setEccBad s m i a).gcar = s.gcar := by unfold setEccBad; split <;> rfl
@[simp] theorem setEccBad_chans : (setEccBad s m i a).chans = s.chans := by unfold setEccBad; split <;> rfl
@[simp] theorem setEccBad_pes : (setEccBad s m i a).pes = s.pes := by unfold setEccBad; split <;> rfl
@[simp] theorem setEccBad_adcs : (setEccBad s m i a).adcs = s.adcs := by unfold setEccBad; split <;> rfl
@[simp] theorem setEccBad_seqs : (setEccBad s m i a).seqs = s.seqs := by unfold setEccBad; split <;> rfl
@[simp] theorem setEccBad_comps : (setEccBad s m i a).comps = s.comps := by unfold setEccBad; split <;> rfl
@[simp] theorem setEccBad_life : (setEccBad s m i a).life = s.life := by unfold setEccBad; split <;> rfl
@[simp] theorem setEccBad_mons : (setEccBad s m i a).mons = s.mons := by unfold setEccBad; split <;> rfl
@[simp] theorem setEccBad_elc : (setEccBad s m i a).elc = s.elc := by unfold setEccBad; split <;> rfl
@[simp] theorem setEccBad_boot : (setEccBad s m i a).boot = s.boot := by unfold setEccBad; split <;> rfl
@[simp] theorem setEccBad_sec : (setEccBad s m i a).sec = s.sec := by unfold setEccBad; split <;> rfl
@[simp] theorem setEccBad_excs : (setEccBad s m i a).excs = s.excs := by unfold setEccBad; split <;> rfl
end SetEccBad

section SetMode
variable (s : State) (m : Mode) (cause : Nat)
@[simp] theorem setMode_pending : (setMode s m cause).pending = s.pending := by unfold setMode; dsimp only; split <;> simp
@[simp] theorem setMode_freshN : (setMode s m cause).freshN = s.freshN := by unfold setMode; dsimp only; split <;> simp
@[simp] theorem setMode_agenda : (setMode s m cause).agenda = s.agenda := by unfold setMode; dsimp only; split <;> simp
@[simp] theorem setMode_time : (setMode s m cause).time = s.time := by unfold setMode; dsimp only; split <;> simp
@[simp] theorem setMode_reg : (setMode s m cause).par.reg = s.par.reg := by unfold setMode; dsimp only; split <;> simp
@[simp] theorem setMode_work : (setMode s m cause).par.work = s.par.work := by unfold setMode; dsimp only; split <;> simp
@[simp] theorem setMode_hlog : (setMode s m cause).par.hlog = s.par.hlog := by unfold setMode; dsimp only; split <;> simp
@[simp] theorem setMode_caps : (setMode s m cause).par.caps = s.par.caps := by unfold setMode; dsimp only; split <;> simp
@[simp] theorem setMode_lows : (setMode s m cause).par.lows = s.par.lows := by unfold setMode; dsimp only; split <;> simp
@[simp] theorem setMode_sels : (setMode s m cause).par.sels = s.par.sels := by unfold setMode; dsimp only; split <;> simp
@[simp] theorem setMode_snaps : (setMode s m cause).par.snaps = s.par.snaps := by unfold setMode; dsimp only; split <;> simp
@[simp] theorem setMode_mem : (setMode s m cause).mem = s.mem := by unfold setMode; dsimp only; split <;> simp
@[simp] theorem setMode_pins : (setMode s m cause).pins = s.pins := by unfold setMode; dsimp only; split <;> simp
@[simp] theorem setMode_sup : (setMode s m cause).sup = s.sup := by unfold setMode; dsimp only; split <;> simp
@[simp] theorem setMode_flt : (setMode s m cause).flt = s.flt := by unfold setMode; dsimp only; split <;> simp
@[simp] theorem setMode_cells : (setMode s m cause).cells = s.cells := by unfold setMode; dsimp only; split <;> simp
@[simp] theorem setMode_doms : (setMode s m cause).doms = s.doms := by unfold setMode; dsimp only; split <;> simp
@[simp] theorem setMode_trks : (setMode s m cause).trks = s.trks := by unfold setMode; dsimp only; split <;> simp
@[simp] theorem setMode_blks : (setMode s m cause).blks = s.blks := by unfold setMode; dsimp only; split <;> simp
@[simp] theorem setMode_bcar : (setMode s m cause).bcar = s.bcar := by unfold setMode; dsimp only; split <;> simp
@[simp] theorem setMode_gcar : (setMode s m cause).gcar = s.gcar := by unfold setMode; dsimp only; split <;> simp
@[simp] theorem setMode_chans : (setMode s m cause).chans = s.chans := by unfold setMode; dsimp only; split <;> simp
@[simp] theorem setMode_pes : (setMode s m cause).pes = s.pes := by unfold setMode; dsimp only; split <;> simp
@[simp] theorem setMode_adcs : (setMode s m cause).adcs = s.adcs := by unfold setMode; dsimp only; split <;> simp
@[simp] theorem setMode_seqs : (setMode s m cause).seqs = s.seqs := by unfold setMode; dsimp only; split <;> simp
@[simp] theorem setMode_comps : (setMode s m cause).comps = s.comps := by unfold setMode; dsimp only; split <;> simp
@[simp] theorem setMode_life : (setMode s m cause).life = s.life := by unfold setMode; dsimp only; split <;> simp
@[simp] theorem setMode_mons : (setMode s m cause).mons = s.mons := by unfold setMode; dsimp only; split <;> simp
@[simp] theorem setMode_elc : (setMode s m cause).elc = s.elc := by unfold setMode; dsimp only; split <;> simp
@[simp] theorem setMode_boot : (setMode s m cause).boot = s.boot := by unfold setMode; dsimp only; split <;> simp
@[simp] theorem setMode_sec : (setMode s m cause).sec = s.sec := by unfold setMode; dsimp only; split <;> simp
@[simp] theorem setMode_excs : (setMode s m cause).excs = s.excs := by unfold setMode; dsimp only; split <;> simp
end SetMode

end Sys2Proof.Machine
end

