-- ==== Sys2Proof/Laws/Settle.lean ====
section
/-!
SUPPORT. What follows every command (Machine/Settle.lean): with no detection waiting for the collector, only the scopes'
active flags, the operating mode with its record, and the excitation outputs move.
-/
namespace Sys2Proof.Machine

/-- With nothing reported the collector leaves the state alone. -/
theorem collectAll_none (s : State) (h : s.flt.reports = []) : collectAll s = s := by
  have hc : collect s = s := by
    have hf : { s.flt with reports := [] } = s.flt := by rw [← h]
    simp only [collect, updFlt, h, List.foldl_nil, hf]
    exact ite_self s
  unfold collectAll
  simp [Nat.repeat, hc]

theorem excFollow_frame (s : State) (n : Fin 8) : excFollow s n = { s with excs := (excFollow s n).excs } := by
  unfold excFollow
  split
  · rfl
  · rfl

theorem excFold_frame (l : List (Fin 8)) (s : State) :
    l.foldl excFollow s = { s with excs := (l.foldl excFollow s).excs } := by
  induction l generalizing s with
  | nil => rfl
  | cons n t ih =>
    simp only [List.foldl_cons]
    rw [ih (excFollow s n)]
    rw [excFollow_frame s n]

/-- R397: following what holds an excitation output off changes the excitation outputs alone. -/
theorem excSettle_frame (s : State) : excSettle s = { s with excs := (excSettle s).excs } := excFold_frame _ s

@[simp] theorem excSettle_pending (s : State) : (excSettle s).pending = s.pending := by rw [excSettle_frame]
@[simp] theorem excSettle_freshN (s : State) : (excSettle s).freshN = s.freshN := by rw [excSettle_frame]
@[simp] theorem excSettle_time (s : State) : (excSettle s).time = s.time := by rw [excSettle_frame]
@[simp] theorem excSettle_agenda (s : State) : (excSettle s).agenda = s.agenda := by rw [excSettle_frame]
@[simp] theorem excSettle_par (s : State) : (excSettle s).par = s.par := by rw [excSettle_frame]
@[simp] theorem excSettle_mem (s : State) : (excSettle s).mem = s.mem := by rw [excSettle_frame]
@[simp] theorem excSettle_pins (s : State) : (excSettle s).pins = s.pins := by rw [excSettle_frame]
@[simp] theorem excSettle_sup (s : State) : (excSettle s).sup = s.sup := by rw [excSettle_frame]
@[simp] theorem excSettle_cells (s : State) : (excSettle s).cells = s.cells := by rw [excSettle_frame]
@[simp] theorem excSettle_doms (s : State) : (excSettle s).doms = s.doms := by rw [excSettle_frame]
@[simp] theorem excSettle_trks (s : State) : (excSettle s).trks = s.trks := by rw [excSettle_frame]
@[simp] theorem excSettle_blks (s : State) : (excSettle s).blks = s.blks := by rw [excSettle_frame]
@[simp] theorem excSettle_bcar (s : State) : (excSettle s).bcar = s.bcar := by rw [excSettle_frame]
@[simp] theorem excSettle_gcar (s : State) : (excSettle s).gcar = s.gcar := by rw [excSettle_frame]
@[simp] theorem excSettle_chans (s : State) : (excSettle s).chans = s.chans := by rw [excSettle_frame]
@[simp] theorem excSettle_pes (s : State) : (excSettle s).pes = s.pes := by rw [excSettle_frame]
@[simp] theorem excSettle_adcs (s : State) : (excSettle s).adcs = s.adcs := by rw [excSettle_frame]
@[simp] theorem excSettle_seqs (s : State) : (excSettle s).seqs = s.seqs := by rw [excSettle_frame]
@[simp] theorem excSettle_comps (s : State) : (excSettle s).comps = s.comps := by rw [excSettle_frame]
@[simp] theorem excSettle_life (s : State) : (excSettle s).life = s.life := by rw [excSettle_frame]
@[simp] theorem excSettle_mons (s : State) : (excSettle s).mons = s.mons := by rw [excSettle_frame]
@[simp] theorem excSettle_elc (s : State) : (excSettle s).elc = s.elc := by rw [excSettle_frame]
@[simp] theorem excSettle_boot (s : State) : (excSettle s).boot = s.boot := by rw [excSettle_frame]
@[simp] theorem excSettle_sec (s : State) : (excSettle s).sec = s.sec := by rw [excSettle_frame]
@[simp] theorem excSettle_flt (s : State) : (excSettle s).flt = s.flt := by rw [excSettle_frame]
@[simp] theorem excSettle_sys (s : State) : (excSettle s).sys = s.sys := by rw [excSettle_frame]
@[simp] theorem excSettle_host (s : State) : (excSettle s).host = s.host := by rw [excSettle_frame]

/-- R326, R329: what a change of mode keeps, following the causes of DEGRADED keeps. -/
theorem followCauses_keep {α : Type} (g : State → α) (h : ∀ z m c, g (setMode z m c) = g z) (s : State) :
    g (followCauses s) = g s := by
  unfold followCauses; split
  · exact h ..
  · split
    · exact h ..
    · rfl

@[simp] theorem followCauses_pending (s : State) : (followCauses s).pending = s.pending := followCauses_keep (·.pending) (by simp) s
@[simp] theorem followCauses_freshN (s : State) : (followCauses s).freshN = s.freshN := followCauses_keep (·.freshN) (by simp) s
@[simp] theorem followCauses_time (s : State) : (followCauses s).time = s.time := followCauses_keep (·.time) (by simp) s
@[simp] theorem followCauses_agenda (s : State) : (followCauses s).agenda = s.agenda := followCauses_keep (·.agenda) (by simp) s
@[simp] theorem followCauses_mem (s : State) : (followCauses s).mem = s.mem := followCauses_keep (·.mem) (by simp) s
@[simp] theorem followCauses_pins (s : State) : (followCauses s).pins = s.pins := followCauses_keep (·.pins) (by simp) s
@[simp] theorem followCauses_sup (s : State) : (followCauses s).sup = s.sup := followCauses_keep (·.sup) (by simp) s
@[simp] theorem followCauses_cells (s : State) : (followCauses s).cells = s.cells := followCauses_keep (·.cells) (by simp) s
@[simp] theorem followCauses_doms (s : State) : (followCauses s).doms = s.doms := followCauses_keep (·.doms) (by simp) s
@[simp] theorem followCauses_trks (s : State) : (followCauses s).trks = s.trks := followCauses_keep (·.trks) (by simp) s
@[simp] theorem followCauses_blks (s : State) : (followCauses s).blks = s.blks := followCauses_keep (·.blks) (by simp) s
@[simp] theorem followCauses_bcar (s : State) : (followCauses s).bcar = s.bcar := followCauses_keep (·.bcar) (by simp) s
@[simp] theorem followCauses_gcar (s : State) : (followCauses s).gcar = s.gcar := followCauses_keep (·.gcar) (by simp) s
@[simp] theorem followCauses_chans (s : State) : (followCauses s).chans = s.chans := followCauses_keep (·.chans) (by simp) s
@[simp] theorem followCauses_pes (s : State) : (followCauses s).pes = s.pes := followCauses_keep (·.pes) (by simp) s
@[simp] theorem followCauses_adcs (s : State) : (followCauses s).adcs = s.adcs := followCauses_keep (·.adcs) (by simp) s
@[simp] theorem followCauses_seqs (s : State) : (followCauses s).seqs = s.seqs := followCauses_keep (·.seqs) (by simp) s
@[simp] theorem followCauses_comps (s : State) : (followCauses s).comps = s.comps := followCauses_keep (·.comps) (by simp) s
@[simp] theorem followCauses_life (s : State) : (followCauses s).life = s.life := followCauses_keep (·.life) (by simp) s
@[simp] theorem followCauses_mons (s : State) : (followCauses s).mons = s.mons := followCauses_keep (·.mons) (by simp) s
@[simp] theorem followCauses_elc (s : State) : (followCauses s).elc = s.elc := followCauses_keep (·.elc) (by simp) s
@[simp] theorem followCauses_boot (s : State) : (followCauses s).boot = s.boot := followCauses_keep (·.boot) (by simp) s
@[simp] theorem followCauses_sec (s : State) : (followCauses s).sec = s.sec := followCauses_keep (·.sec) (by simp) s
@[simp] theorem followCauses_flt (s : State) : (followCauses s).flt = s.flt := followCauses_keep (·.flt) (by simp) s
@[simp] theorem followCauses_excs (s : State) : (followCauses s).excs = s.excs := followCauses_keep (·.excs) (by simp) s
@[simp] theorem followCauses_reg (s : State) : (followCauses s).par.reg = s.par.reg := followCauses_keep (·.par.reg) (by simp) s
@[simp] theorem followCauses_work (s : State) : (followCauses s).par.work = s.par.work := followCauses_keep (·.par.work) (by simp) s
@[simp] theorem followCauses_hlog (s : State) : (followCauses s).par.hlog = s.par.hlog := followCauses_keep (·.par.hlog) (by simp) s
@[simp] theorem followCauses_caps (s : State) : (followCauses s).par.caps = s.par.caps := followCauses_keep (·.par.caps) (by simp) s
@[simp] theorem followCauses_lows (s : State) : (followCauses s).par.lows = s.par.lows := followCauses_keep (·.par.lows) (by simp) s
@[simp] theorem followCauses_sels (s : State) : (followCauses s).par.sels = s.par.sels := followCauses_keep (·.par.sels) (by simp) s
@[simp] theorem followCauses_snaps (s : State) : (followCauses s).par.snaps = s.par.snaps := followCauses_keep (·.par.snaps) (by simp) s

@[simp] theorem noteActive_pending (s : State) : (noteActive s).pending = s.pending := rfl
@[simp] theorem noteActive_freshN (s : State) : (noteActive s).freshN = s.freshN := rfl
@[simp] theorem noteActive_time (s : State) : (noteActive s).time = s.time := rfl
@[simp] theorem noteActive_agenda (s : State) : (noteActive s).agenda = s.agenda := rfl
@[simp] theorem noteActive_par (s : State) : (noteActive s).par = s.par := rfl
@[simp] theorem noteActive_mem (s : State) : (noteActive s).mem = s.mem := rfl
@[simp] theorem noteActive_pins (s : State) : (noteActive s).pins = s.pins := rfl
@[simp] theorem noteActive_sup (s : State) : (noteActive s).sup = s.sup := rfl
@[simp] theorem noteActive_cells (s : State) : (noteActive s).cells = s.cells := rfl
@[simp] theorem noteActive_doms (s : State) : (noteActive s).doms = s.doms := rfl
@[simp] theorem noteActive_trks (s : State) : (noteActive s).trks = s.trks := rfl
@[simp] theorem noteActive_blks (s : State) : (noteActive s).blks = s.blks := rfl
@[simp] theorem noteActive_bcar (s : State) : (noteActive s).bcar = s.bcar := rfl
@[simp] theorem noteActive_gcar (s : State) : (noteActive s).gcar = s.gcar := rfl
@[simp] theorem noteActive_chans (s : State) : (noteActive s).chans = s.chans := rfl
@[simp] theorem noteActive_pes (s : State) : (noteActive s).pes = s.pes := rfl
@[simp] theorem noteActive_adcs (s : State) : (noteActive s).adcs = s.adcs := rfl
@[simp] theorem noteActive_seqs (s : State) : (noteActive s).seqs = s.seqs := rfl
@[simp] theorem noteActive_comps (s : State) : (noteActive s).comps = s.comps := rfl
@[simp] theorem noteActive_life (s : State) : (noteActive s).life = s.life := rfl
@[simp] theorem noteActive_mons (s : State) : (noteActive s).mons = s.mons := rfl
@[simp] theorem noteActive_elc (s : State) : (noteActive s).elc = s.elc := rfl
@[simp] theorem noteActive_boot (s : State) : (noteActive s).boot = s.boot := rfl
@[simp] theorem noteActive_sec (s : State) : (noteActive s).sec = s.sec := rfl
@[simp] theorem noteActive_sys (s : State) : (noteActive s).sys = s.sys := rfl
@[simp] theorem noteActive_host (s : State) : (noteActive s).host = s.host := rfl
@[simp] theorem noteActive_excs (s : State) : (noteActive s).excs = s.excs := rfl

/-- What the mode with its record, the active flags and the excitation outputs leave alone, settling leaves alone. -/
theorem settle_keep {α : Type} (g : State → α) (h : ∀ z, g (excSettle (followCauses (noteActive z))) = g z) (s : State)
    (hr : s.flt.reports = []) : g (settle s) = g s := by unfold settle; rw [collectAll_none s hr, h]

theorem settle_pending (s : State) (h : s.flt.reports = []) : (settle s).pending = s.pending := settle_keep (·.pending) (by simp) s h
theorem settle_freshN (s : State) (h : s.flt.reports = []) : (settle s).freshN = s.freshN := settle_keep (·.freshN) (by simp) s h
theorem settle_time (s : State) (h : s.flt.reports = []) : (settle s).time = s.time := settle_keep (·.time) (by simp) s h
theorem settle_agenda (s : State) (h : s.flt.reports = []) : (settle s).agenda = s.agenda := settle_keep (·.agenda) (by simp) s h
theorem settle_mem (s : State) (h : s.flt.reports = []) : (settle s).mem = s.mem := settle_keep (·.mem) (by simp) s h
theorem settle_pins (s : State) (h : s.flt.reports = []) : (settle s).pins = s.pins := settle_keep (·.pins) (by simp) s h
theorem settle_sup (s : State) (h : s.flt.reports = []) : (settle s).sup = s.sup := settle_keep (·.sup) (by simp) s h
theorem settle_cells (s : State) (h : s.flt.reports = []) : (settle s).cells = s.cells := settle_keep (·.cells) (by simp) s h
theorem settle_doms (s : State) (h : s.flt.reports = []) : (settle s).doms = s.doms := settle_keep (·.doms) (by simp) s h
theorem settle_trks (s : State) (h : s.flt.reports = []) : (settle s).trks = s.trks := settle_keep (·.trks) (by simp) s h
theorem settle_blks (s : State) (h : s.flt.reports = []) : (settle s).blks = s.blks := settle_keep (·.blks) (by simp) s h
theorem settle_bcar (s : State) (h : s.flt.reports = []) : (settle s).bcar = s.bcar := settle_keep (·.bcar) (by simp) s h
theorem settle_gcar (s : State) (h : s.flt.reports = []) : (settle s).gcar = s.gcar := settle_keep (·.gcar) (by simp) s h
theorem settle_chans (s : State) (h : s.flt.reports = []) : (settle s).chans = s.chans := settle_keep (·.chans) (by simp) s h
theorem settle_pes (s : State) (h : s.flt.reports = []) : (settle s).pes = s.pes := settle_keep (·.pes) (by simp) s h
theorem settle_adcs (s : State) (h : s.flt.reports = []) : (settle s).adcs = s.adcs := settle_keep (·.adcs) (by simp) s h
theorem settle_seqs (s : State) (h : s.flt.reports = []) : (settle s).seqs = s.seqs := settle_keep (·.seqs) (by simp) s h
theorem settle_comps (s : State) (h : s.flt.reports = []) : (settle s).comps = s.comps := settle_keep (·.comps) (by simp) s h
theorem settle_life (s : State) (h : s.flt.reports = []) : (settle s).life = s.life := settle_keep (·.life) (by simp) s h
theorem settle_mons (s : State) (h : s.flt.reports = []) : (settle s).mons = s.mons := settle_keep (·.mons) (by simp) s h
theorem settle_elc (s : State) (h : s.flt.reports = []) : (settle s).elc = s.elc := settle_keep (·.elc) (by simp) s h
theorem settle_boot (s : State) (h : s.flt.reports = []) : (settle s).boot = s.boot := settle_keep (·.boot) (by simp) s h
theorem settle_sec (s : State) (h : s.flt.reports = []) : (settle s).sec = s.sec := settle_keep (·.sec) (by simp) s h
theorem settle_reg (s : State) (h : s.flt.reports = []) : (settle s).par.reg = s.par.reg := settle_keep (·.par.reg) (by simp) s h
theorem settle_work (s : State) (h : s.flt.reports = []) : (settle s).par.work = s.par.work := settle_keep (·.par.work) (by simp) s h
theorem settle_hlog (s : State) (h : s.flt.reports = []) : (settle s).par.hlog = s.par.hlog := settle_keep (·.par.hlog) (by simp) s h
theorem settle_caps (s : State) (h : s.flt.reports = []) : (settle s).par.caps = s.par.caps := settle_keep (·.par.caps) (by simp) s h
theorem settle_lows (s : State) (h : s.flt.reports = []) : (settle s).par.lows = s.par.lows := settle_keep (·.par.lows) (by simp) s h
theorem settle_sels (s : State) (h : s.flt.reports = []) : (settle s).par.sels = s.par.sels := settle_keep (·.par.sels) (by simp) s h
theorem settle_snaps (s : State) (h : s.flt.reports = []) : (settle s).par.snaps = s.par.snaps := settle_keep (·.par.snaps) (by simp) s h

end Sys2Proof.Machine
end

