-- ==== Sys2Proof/Laws/Frames.lean ====
section
/-!
SUPPORT. Frames of shared operations: what a fold of updates keeps, what follows a command keeps (`SameUnits`), one
register stored, output bits of an engine, ring-memory bytes.
-/
namespace Sys2Proof.Machine

/-- A fold of updates that each keep an observation keeps it. -/
theorem foldl_keep {α β : Type} (g : State → β) (f : State → α → State) (h : ∀ z a, g (f z a) = g z) (l : List α)
    (s : State) : g (l.foldl f s) = g s := by
  induction l generalizing s with
  | nil => rfl
  | cons a t ih => rw [List.foldl_cons, ih, h]

theorem SameUnits.refl (s : State) : SameUnits s s := by simp [SameUnits]

theorem SameUnits.trans {s t u : State} (h : SameUnits s t) (k : SameUnits t u) : SameUnits s u := by
  simp only [SameUnits] at *
  obtain ⟨h1, h2, h3, h4, h5, h6, h7, h8, h9, h10, h11, h12, h13, h14, h15, h16, h17, h18, h19⟩ := h
  simpa only [h1, h2, h3, h4, h5, h6, h7, h8, h9, h10, h11, h12, h13, h14, h15, h16, h17, h18, h19] using k

/-- What follows a command changes no unit, with no detection waiting. -/
theorem settle_same (s : State) (h : s.flt.reports = []) : SameUnits s (settle s) := by
  unfold SameUnits
  simp [settle_time, settle_agenda, settle_pins, settle_cells, settle_doms, settle_trks, settle_blks, settle_bcar, settle_gcar,
      settle_chans, settle_pes, settle_adcs, settle_seqs, settle_comps, settle_life, settle_mons, settle_elc, settle_boot,
      settle_sec, h]

/-- A command whose effect is one register stored. -/
theorem settle_setReg (s : State) (l : PLoc) (v : Word) (h : s.flt.reports = [])
    (hw : Memory.wf regReset s.par.reg = true) : OnlyRegister s (settle (setReg s l v)) l v := by
  have hr : (setReg s l v).flt.reports = [] := h
  refine ⟨SameUnits.trans (by simp [SameUnits]) (settle_same _ hr), by rw [settle_mem _ hr]; rfl, by rw [settle_work _ hr]; rfl, ?_, ?_⟩
  · unfold reg regAt; rw [settle_reg _ hr]; exact memGet_put_same regReset _ _ _ hw
  · intro pa hp; unfold regAt; rw [settle_reg _ hr]; exact memGet_put_other regReset _ _ _ _ hp hw

/-- R201: of the engines, new output bits change only the engine's own bits and what is on its way to the balls. -/
theorem setOuts_pes (s : State) (p : Fin 32) (n : Nat) (o : BitVec 16) : (setOuts s p n o).pes =
    if o = s.pes[p].out then s.pes else (updPe s p (fun e => { e with out := o, outs := e.outs ++ [(n + 3, o)] })).pes := by
  unfold setOuts; dsimp only
  split
  · rfl
  · rw [foldl_keep (·.pes) _ (by intro z c; split <;> simp)]

/-- R201: the output bits after they took new levels. -/
theorem setOuts_out (s : State) (p : Fin 32) (n : Nat) (o : BitVec 16) : (setOuts s p n o).pes[p].out = o := by
  rw [show (setOuts s p n o).pes[p] = (if o = s.pes[p].out then s.pes else (updPe s p (fun e => { e with
    out := o, outs := e.outs ++ [(n + 3, o)] })).pes)[p] by rw [setOuts_pes]]
  split
  · next h => exact h.symm
  · simp [updPe]

theorem updPe_at (s : State) (p : Fin 32) (f : Pewter → Pewter) : (updPe s p f).pes[p] = f s.pes[p] := by simp [updPe]

theorem updPe_other (s : State) (p q : Fin 32) (f : Pewter → Pewter) (h : q ≠ p) : (updPe s p f).pes[q] = s.pes[q] := by
  have hv : p.val ≠ q.val := fun e => h (Fin.ext e.symm)
  simp [updPe, hv]

/-- The bytes of ring memory after a store. -/
theorem setRingBytes_ring (bs : List Byte) : ∀ (s : State) (a : Nat), Memory.wf (zeroMem 8) s.mem.ring = true →
    Memory.wf (zeroMem 8) (setRingBytes s a bs).mem.ring = true ∧
    (setRingBytes s a bs) = { s with mem := { s.mem with ring := (setRingBytes s a bs).mem.ring } } ∧
    ∀ x, x < 0x200000 → ringByte (setRingBytes s a bs) x =
      (if h : a ≤ x ∧ x - a < bs.length then bs[x - a] else ringByte s x) := by
  induction bs with
  | nil => intro s a h; exact ⟨h, rfl, fun x _ => by simp [setRingBytes]⟩
  | cons b t ih =>
    intro s a h
    unfold setRingBytes
    have hw : Memory.wf (zeroMem 8) (if a < 0x200000 then setRingByte s a b else s).mem.ring = true := by
      split
      · exact memPut_wf (zeroMem 8) _ _ _ h
      · exact h
    obtain ⟨i1, i2, i3⟩ := ih (if a < 0x200000 then setRingByte s a b else s) (a + 1) hw
    refine ⟨i1, ?_, ?_⟩
    · rw [i2]; split <;> rfl
    · intro x hx
      rw [i3 x hx]
      by_cases hxa : x = a
      · subst hxa
        rw [dif_neg (by omega), if_pos hx, dif_pos (by simp)]
        simp only [Nat.sub_self, List.getElem_cons_zero]
        exact memGet_put_same (zeroMem 8) _ _ _ h
      · by_cases hin : a + 1 ≤ x ∧ x - (a + 1) < t.length
        · rw [dif_pos hin, dif_pos (by simp; omega)]
          have e : x - a = (x - (a + 1)) + 1 := by omega
          simp only [e, List.getElem_cons_succ]
        · rw [dif_neg hin, dif_neg (by simp; omega)]
          split
          · exact memGet_put_other (zeroMem 8) _ _ _ _ hxa h
          · rfl

/-- The bits of a field. -/
theorem fld_testBit {n : Nat} (w : BitVec n) (hi lo i : Nat) :
    (fld w hi lo).testBit i = (decide (i < hi - lo + 1) && w.getLsbD (lo + i)) := by
  unfold fld; rw [Nat.testBit_mod_two_pow, Nat.testBit_shiftRight]; rfl

/-- The bits of a word after a field is set. -/
theorem setFld_getLsbD {n : Nat} (w : BitVec n) (hi lo v j : Nat) (hj : j < n) :
    (setFld w hi lo v).getLsbD j = if lo ≤ j ∧ j - lo < hi - lo + 1 then v.testBit (j - lo) else w.getLsbD j := by
  have hm : (BitVec.ofNat n ((2 ^ (hi - lo + 1) - 1) <<< lo)).getLsbD j = decide (lo ≤ j ∧ j - lo < hi - lo + 1) := by
    rw [BitVec.getLsbD_ofNat, Nat.testBit_shiftLeft, Nat.testBit_two_pow_sub_one]; simp [hj]
  have hv : (BitVec.ofNat n (v <<< lo)).getLsbD j = (decide (lo ≤ j) && v.testBit (j - lo)) := by
    rw [BitVec.getLsbD_ofNat, Nat.testBit_shiftLeft]; simp [hj]
  unfold setFld; dsimp only
  rw [BitVec.getLsbD_or, BitVec.getLsbD_and, BitVec.getLsbD_and, BitVec.getLsbD_not, hm, hv]
  by_cases h : lo ≤ j ∧ j - lo < hi - lo + 1
  · rw [if_pos h]; simp [h]
  · rw [if_neg h, decide_eq_false h, Bool.and_false, Bool.or_false, Bool.not_false]; simp [hj]

/-- A field reads as it was set. -/
theorem fld_setFld {n : Nat} (w : BitVec n) (hi lo v : Nat) (h : lo ≤ hi) (hn : hi < n) (hv : v < 2 ^ (hi - lo + 1)) :
    fld (setFld w hi lo v) hi lo = v := by
  apply Nat.eq_of_testBit_eq; intro i
  rw [fld_testBit]
  by_cases hi' : i < hi - lo + 1
  · rw [setFld_getLsbD _ _ _ _ _ (by omega), if_pos (by omega), show lo + i - lo = i by omega]; simp [hi']
  · rw [Nat.testBit_lt_two_pow (Nat.lt_of_lt_of_le hv (Nat.pow_le_pow_right (by decide) (by omega)))]; simp [hi']

/-- A field reads as before where another field is set. -/
theorem fld_setFld_other {n : Nat} (w : BitVec n) (hi lo hi' lo' v : Nat) (h : hi < lo' ∨ hi' < lo) (h1 : lo ≤ hi)
    (h2 : lo' ≤ hi') (hn : hi < n) : fld (setFld w hi' lo' v) hi lo = fld w hi lo := by
  apply Nat.eq_of_testBit_eq; intro i
  rw [fld_testBit, fld_testBit]
  by_cases hi2 : i < hi - lo + 1
  · rw [setFld_getLsbD _ _ _ _ _ (by omega), if_neg (by omega)]
  · simp [hi2]

/-- A field reads as before where lower bits are set. -/
theorem fld_or_low {n : Nat} (a b : BitVec n) (hi lo : Nat) (h : b.toNat < 2 ^ lo) : fld (a ||| b) hi lo = fld a hi lo := by
  unfold fld
  rw [BitVec.toNat_or, Nat.shiftRight_or_distrib, Nat.shiftRight_eq_div_pow b.toNat, Nat.div_eq_of_lt h, Nat.or_zero]

end Sys2Proof.Machine
end

