-- ==== Sys2Proof/Laws/Params.lean ====
section
/-!
SUPPORT. Addresses of parameter space (01_architecture_and_timebase.md R43), and what a row that stands for a parameter write
or read is once the requester reaches the place.
-/
namespace Sys2Proof.Machine

/-- The slot of a place lies in its area. -/
def PLoc.inArea (l : PLoc) : Prop :=
  match l with
  | .chip o => o < 0x100
  | .cell _ o => o < 0x20
  | .block _ o => o < 0x100
  | .region _ o => o < 0x1000
  | .dom _ o => o < 0x100
  | .chan _ o => o < 0x80
  | .gang _ o => o < 0x100
  | .pewter _ o => o < 0x40
  | .adc _ o => o < 8
  | .comp _ o => o < 0x10
  | .seqr _ o => o < 0x10
  | .link o => o < 0x60
  | .faults o => o < 0x100
  | .life o => o < 0xC0
  | .monitor o => o < 0x60
  | .pram _ w _ => w < 0x2000
  | .rram _ w => w < 0x10000

theorem finOfNat_eq {n : Nat} [NeZero n] (x : Fin n) (k : Nat) (h : k = x.val) : Fin.ofNat n k = x := by
  apply Fin.ext
  simp [Fin.ofNat, h, Nat.mod_eq_of_lt x.isLt]

/-- R43: the address of a place names that place: areas do not overlap. -/
theorem locate_paOf (l : PLoc) (h : l.inArea) : locate (paOf l) = some l := by
  cases l with
  | chip o => simp only [PLoc.inArea] at h; unfold locate paOf; simp only []; rw [if_pos h]
  | cell c o | block c o | region c o | dom c o | chan c o | gang c o | pewter c o | adc c o | comp c o | seqr c o | rram c o =>
    have := c.isLt
    simp only [PLoc.inArea] at h
    unfold locate paOf; simp only []
    repeat rw [if_neg (by omega)]
    rw [if_pos (by omega), finOfNat_eq c _ (by omega)]; congr 2; omega
  | link o | faults o | life o | monitor o =>
    simp only [PLoc.inArea] at h
    unfold locate paOf; simp only []
    repeat rw [if_neg (by omega)]
    rw [if_pos (by omega)]; congr 2; omega
  | pram c o k =>
    have := c.isLt
    simp only [PLoc.inArea] at h
    cases k <;>
    · unfold locate paOf; simp only []
      repeat rw [if_neg (by omega)]
      rw [if_pos (by omega)]
      repeat rw [if_neg (by omega)]
      rw [if_pos (by omega), finOfNat_eq c _ (by omega)]
      first
      | rw [show (1048576 + c.val * 32768 + o) % 32768 = o by omega]
      | rw [show (1048576 + c.val * 32768 + 8192 + o) % 32768 - 8192 = o by omega]
      | rw [show (1048576 + c.val * 32768 + 16384 + o) % 32768 - 16384 = o by omega]

/-- R9, R10, R12: a parameter write that nothing refuses before its unit sees it. -/
theorem writeParam_send (s : State) (who : Requester) (l : PLoc) (i : PInfo) (v : Word) (h : l.inArea)
    (hi : paramInfo l = some i) (hr : writeRefused s l i v = none) :
    writeParam s who (paOf l) v = sendWrite s who l i v := by
  unfold writeParam
  rw [locate_paOf l h]
  simp only [hi, hr]

theorem logAccess_ok (s : State) (who : Requester) (pa a : Nat) : logAccess s who pa a .ok = s := by
  simp [logAccess, logged]

/-- A row that is a parameter write, where its requester reaches the place and nothing refuses the write. -/
theorem rowWrite_send (s t : State) (who : Requester) (l : PLoc) (i : PInfo) (v : Word) (h : l.inArea)
    (hr : reaches s who l = true) (hi : paramInfo l = some i) (hn : writeRefused s l i v = none)
    (hw : sendWrite s who l i v = (t, .ok)) : rowWrite who l v s = t := by
  unfold rowWrite
  rw [if_pos hr, writeParam_send s who l i v h hi hn, hw]
  exact logAccess_ok t who _ _

/-- R9: a write that acts in its commit tick. -/
theorem sendWrite_now (s : State) (who : Requester) (l : PLoc) (i : PInfo) (v : Word) (h : atOnce l i = true) :
    sendWrite s who l i v = writePlace s who (lowFor s who l) l i v := by
  simp [sendWrite, h]

/-- R9: a class L write that its unit takes waits for the end of its commit tick. -/
theorem sendWrite_late (s : State) (who : Requester) (l : PLoc) (i : PInfo) (v : Word) (h : atOnce l i = false)
    (hd : (writePlace (lateView s) who (lowFor s who l) l i v).2 = .ok) :
    sendWrite s who l i v = (addLate (sendHeld s who l (lowFor s who l) v) (writeRank who l) who
        (.write (lowFor s who l) l v), .ok) := by
  unfold sendWrite; simp only [h, hd]; rfl

/-- A row that is a parameter read without a captured word, of a place that is no RAM word. -/
theorem rowRead_ok (s : State) (who : Requester) (l : PLoc) (i : PInfo) (h : l.inArea)
    (hr : reaches s who l = true) (hi : paramInfo l = some i) (hb : readBad s l = none) (hc : capOf s who l = none)
    (h0 : i.rc = 0) : rowRead who l s = (readPlace s who l).2 := by
  unfold rowRead
  rw [if_pos hr]
  unfold readParam
  rw [locate_paOf l h]
  simp only [hi, hb, hc, h0, readClear, if_true]
  exact logAccess_ok _ who _ _

end Sys2Proof.Machine
end

