-- ==== Sys2Proof/Laws/Rows.lean ====
section
/-!
SUPPORT. What rows come to once their conditions hold: host commands, ring registers, carrier writes, engine steps; and
the frames of interrupt flags, violations, status slots and waiting records.
-/
namespace Sys2Proof.Machine

/-- R290, R293: a host command that finds its turn: its body, its completion unless it stays open, and what follows. -/
theorem cmdRun_takes (i : Instr) (op : Byte) (e : Entry) (body : State → CmdResult) (s z : State) (h : Takes s op e z) :
    run (cmdRun i op.toNat e body) s = .next (settle (flushRing (match (body z).2 with
      | some v => complete (body z).1 op.toNat e v.1 v.2
      | none => (body z).1) e.ring)) := by
  obtain ⟨h1, h2, h3, h4⟩ := h
  simp only [run, cmdRun, h1, Bool.not_true, Bool.false_eq_true, if_false, h2, BitVec.ofNat_toNat, BitVec.setWidth_eq, h3, applyCmd, h4] <;> rfl

/-- A host command whose body ends at once completes. -/
theorem cmdRun_ends (i : Instr) (op : Byte) (e : Entry) (body : State → CmdResult) (s z y : State) (t : Status) (b : Word) (h : Takes s op e z)
   (hb : body z = (y, some (t, b))) :
    run (cmdRun i op.toNat e body) s = .next (Completes y op e t b) := by
  rw [cmdRun_takes i op e body s z h, hb]; rfl

/-- R278: a submission ring's register names that ring. -/
theorem ringRegOf_sq (r : Fin 16) (o : Nat) (h : o ≤ 0x10) (h4 : o % 4 = 0) : ringRegOf (sqReg r o) = some (false, r, o) := by
  have := r.isLt
  unfold ringRegOf sqReg
  rw [if_pos (by omega), finOfNat_eq r _ (by omega)]; congr 3; omega

/-- R278: an event ring's register names that ring. -/
theorem ringRegOf_eq (r : Fin 16) (o : Nat) (h : o ≤ 0x14) (h4 : o % 4 = 0) : ringRegOf (eqReg r o) = some (true, r, o) := by
  have := r.isLt
  unfold ringRegOf eqReg
  rw [if_neg (by omega), if_pos (by omega), finOfNat_eq r _ (by omega)]; congr 3; omega

/-- DOORBELL as a host-register write. -/
theorem writeHostReg_bell (s : State) (r : Fin 16) (tail : BitVec 16) (h0 : hostUp s = true) (h1 : s.sys.mode ≠ .boot) :
    writeHostReg s (sqReg r 0x0C) (tail.setWidth 32) = writeBell s r tail := by
  unfold writeHostReg; rw [if_neg (by simp [h0]), if_neg h1, ringRegOf_sq r 0x0C (by omega) rfl]
  simp [writeRingReg]

/-- An event ring's HEAD write. -/
theorem writeHostReg_eqBell (s : State) (r : Fin 16) (v : BitVec 32) (h0 : hostUp s = true) (h1 : s.sys.mode ≠ .boot) :
    writeHostReg s (eqReg r 0x0C) v = writeEqBell s r v := by
  unfold writeHostReg; rw [if_neg (by simp [h0]), if_neg h1, ringRegOf_eq r 0x0C (by omega) rfl]
  simp [writeRingReg]

/-- A write of a submission ring's configuration. -/
theorem writeHostReg_sqCfg (s : State) (r : Fin 16) (v : BitVec 32) (h0 : hostUp s = true) (h1 : s.sys.mode ≠ .boot) :
    writeHostReg s (sqReg r 0x08) v = writeSqCfg s r v := by
  unfold writeHostReg; rw [if_neg (by simp [h0]), if_neg h1, ringRegOf_sq r 0x08 (by omega) rfl]
  simp [writeRingReg]

/-- A write of an event ring's configuration. -/
theorem writeHostReg_eqCfg (s : State) (r : Fin 16) (v : BitVec 32) (h0 : hostUp s = true) (h1 : s.sys.mode ≠ .boot) :
    writeHostReg s (eqReg r 0x08) v = writeEqCfg s r v := by
  unfold writeHostReg; rw [if_neg (by simp [h0]), if_neg h1, ringRegOf_eq r 0x08 (by omega) rfl]
  simp [writeRingReg]

/-- A class L write by row, where its unit takes it and the words its requester holds stay. -/
theorem rowWrite_waits (req : Requester) (l : PLoc) (i : PInfo) (v : Word) (s : State) (h : l.inArea)
    (hr : reaches s req l = true) (hi : paramInfo l = some i) (hn : writeRefused s l i v = none) (ha : atOnce l i = false)
    (hd : (writePlace (lateView s) req (lowFor s req l) l i v).2 = .ok) : rowWrite req l v s = Committed s req l v :=
  rowWrite_send s _ req l i v h hr hi hn (by rw [sendWrite_late s req l i v ha hd]; rfl)

/-- One bit of a word after a one-bit field is set. -/
theorem bit_setFld (o : BitVec 16) (k j : Nat) (b : Bool) (hk : k < 16) (hj : j < 16) :
    bit (setFld o k k (bitAt b 0)) j = if j = k then b else bit o j := by
  unfold setFld bit bitAt
  interval_cases k <;> interval_cases j <;> cases b <;> simp

/-- R208: output bits after the side field. -/
theorem sideOut_bit (y : State) (p : Fin 32) (w : PewterWord) (o : BitVec 16) (j : Nat) (hj : j < 16) :
    bit (sideOut y p w o) j =
        (if j = regFld y (.pewter p 0x01) 7 4 ∧ fld w 3 2 ≠ 0 then
          (if fld w 3 2 = 1 then false else if fld w 3 2 = 2 then true else !bit y.pes[p].out j)
        else bit o j) := by
  have hk : regFld y (.pewter p 0x01) 7 4 < 16 := by unfold regFld fld; omega
  unfold sideOut; dsimp only
  split
  · next h => simp [h]
  · next h =>
    rw [bit_setFld _ _ _ _ hk hj]
    by_cases hjk : j = regFld y (.pewter p 0x01) 7 4
    · subst hjk; simp only [h, if_true, ne_eq, not_false_eq_true, and_self]
    · simp only [hjk, if_false, false_and]

/-- R202: where the PC goes leaves output bits alone. -/
theorem pePc_out (s : State) (p : Fin 32) (n : Nat) (i : Bool) (t : Option (BitVec 6)) : (pePc s p n i t).pes[p].out = s.pes[p].out := by
  unfold pePc
  split
  · simp [updPe]
  · split
    · rfl
    · split
      · dsimp only; simp only [updPe]
        split <;> simp [reload]
      · simp [updPe]

/-- R202: a step whose word completes. -/
theorem pewterStep_ends (s : State) (p : Fin 32) (op n : Nat) (w : PewterWord) (inj : Bool) (z y : State) (t : Option (BitVec 6)) (o : BitVec 16)
    (h : PeTakes s p op n w inj z) (ht : peTry z p n w = ⟨y, true, o, t⟩) :
    run (pewterStep p (peOp op)) s = .next (PeEnds y p n w o inj t) := by
  obtain ⟨h1, h2, h3, h4, h5, rfl⟩ := h
  show Host.Outcome.next (settle (pewterStep p (peOp op) s)) = _
  unfold pewterStep
  rw [h1]; dsimp only
  rw [if_neg (not_not.mpr h2), h3]; dsimp only
  rw [if_pos (by unfold peOp; rw [h5, decide_eq_true h4]; rfl), if_pos h5]
  unfold peStep; dsimp only; rw [ht]; rfl

/-- The device's PCIe message: no more than the message list or the pending vectors. -/
theorem sendVector_frame (s : State) (v : Fin 32) : sendVector s v = { s with host := { s.host with
    bus := (sendVector s v).host.bus, msixPend := (sendVector s v).host.msixPend } } := by
  unfold sendVector; split <;> rfl

/-- An interrupt flag set: the flag, and perhaps its message. -/
theorem raiseIrq_frame (s : State) (i : Nat) : raiseIrq s i = { s with
    par := { s.par with fresh := (raiseIrq s i).par.fresh }
    host := { s.host with
      irqStat := s.host.irqStat ||| BitVec.ofNat 32 (2 ^ i), bus := (raiseIrq s i).host.bus,
      msixPend := (raiseIrq s i).host.msixPend } } := by
  unfold raiseIrq; dsimp only
  split
  · rw [sendVector_frame]; rfl
  · rfl

/-- A violation logged: the log, its lost count, and an interrupt flag. -/
theorem violation_frame (s : State) (a w c k m d q : Nat) : violation s a w c k m d q = { s with
    par := { s.par with fresh := (violation s a w c k m d q).par.fresh }
    host := { s.host with
      vlog := (violation s a w c k m d q).host.vlog, vlogLost := (violation s a w c k m d q).host.vlogLost,
      irqStat := s.host.irqStat ||| 4, bus := (violation s a w c k m d q).host.bus,
      msixPend := (violation s a w c k m d q).host.msixPend } } := by
  unfold violation; dsimp only; rw [raiseIrq_frame]; rfl

/-- R298: the newest entry after a violation. -/
theorem violation_last (s : State) (a w c k m d q : Nat) : (violation s a w c k m d q).host.vlog.getLast? =
    some ⟨BitVec.ofNat 32 a, BitVec.ofNat 32 (w * 2 ^ 28 + c * 2 ^ 24 + k * 2 ^ 21 + m * 2 ^ 16 + d * 2 ^ 8 + q % 256), now s⟩ := by
  unfold violation; dsimp only; rw [raiseIrq_frame]; simp

theorem setRingBytes_frame (bs : List Byte) : ∀ (s : State) (a : Nat),
    setRingBytes s a bs = { s with mem := { s.mem with ring := (setRingBytes s a bs).mem.ring } } := by
  induction bs with
  | nil => intro s a; rfl
  | cons b t ih => intro s a; unfold setRingBytes; rw [ih]; split <;> rfl

/-- R281: a status slot lies in ring memory or beyond the bus. -/
theorem writeOut_frame (s : State) (local' : Bool) (a : BitVec 64) (bs : List Byte) : writeOut s local' a bs = { s with
    host := { s.host with bus := (writeOut s local' a bs).host.bus }
    mem := { s.mem with ring := (writeOut s local' a bs).mem.ring, ecc := (writeOut s local' a bs).mem.ecc } } := by
  unfold writeOut; dsimp only
  split
  · unfold ringStore; dsimp only; rw [setRingBytes_frame]
  · split <;> rfl

/-- R281: writing a ring's status slot, now or later, changes the slot and the ring's note of it. -/
theorem writeSqSlot_frame (s : State) (r : Fin 16) : ∃ at', ∃ due' : Bool, writeSqSlot s r = { s with
    host := { s.host with
      bus := (writeSqSlot s r).host.bus
      subs := s.host.subs.set r { s.host.subs[r] with slotAt := at', slotDue := due' } }
    mem := { s.mem with ring := (writeSqSlot s r).mem.ring, ecc := (writeSqSlot s r).mem.ecc } } := by
  unfold writeSqSlot
  split
  · exact ⟨s.host.subs[r].slotAt, true, rfl⟩
  · refine ⟨some s.time.tick, false, ?_⟩
    dsimp only
    rw [writeOut_frame]; rfl

/-- R288: a ring that falls idle changes its own flags and its enable. -/
theorem settleRing_frame (s : State) (r : Fin 16) : settleRing s r = { s with host := { s.host with
    subs := (settleRing s r).host.subs, hregs := (settleRing s r).host.hregs } } := by
  unfold settleRing; split <;> rfl

/-- R288: a ring that falls idle keeps its counts. -/
theorem settleRing_done (s : State) (r : Fin 16) : (settleRing s r).host.subs[r].done = s.host.subs[r].done := by
  unfold settleRing; split
  · simp [updSub, setHreg]
  · rfl

/-- R19: a new record among those that wait. -/
theorem placeRec_split (l : List Placed) (p : Placed) : ∃ x y : List Placed, l = x ++ y ∧ placeRec l p = x ++ [p] ++ y := by
  induction l with
  | nil => exact ⟨[], [], rfl, rfl⟩
  | cons q t ih =>
    unfold placeRec; split
    · obtain ⟨x, y, h1, h2⟩ := ih
      exact ⟨q :: x, y, by rw [h1]; rfl, by rw [h2]; rfl⟩
    · exact ⟨[], q :: t, rfl, rfl⟩

end Sys2Proof.Machine
end

