-- ==== Sys2Proof/WellFormed.lean ====
section
/-!
DEFINITION. Which commands are well formed: each operand within what the spec lets the environment bring. One check for
each kind of operand that its type does not already bound.
-/
namespace Sys2Proof
open Sys2Proof.Machine

/-- R276: the access sizes of the bus. -/
def sizeOk (n : Nat) : Bool := decide (n = 1 ∨ n = 2 ∨ n = 4 ∨ n = 8)

/-- R279: a failed DMA read has a cause. -/
def causeOk (c : BitVec 4) : Bool := decide (c ≠ 0)

/-- A buffer read has data, or a cause. -/
def bufOk (b : Buf) : Bool :=
  match b with
  | .data _ => true
  | .fail c => causeOk c

/-- R273: bytes within BAR2. -/
def bar2Ok (off : BitVec 21) (n : Nat) : Bool := decide (0 < n ∧ off.toNat + n ≤ 0x200000)

/-- R246: a frame has 250 bytes. -/
def frameOk (bs : List Byte) : Bool := decide (bs.length = 250)

/-- R326: the target that a row of REQUEST_MODE names. -/
def targetOk (e : Entry) (t : Nat) : Bool := decide (fld e.a0 3 0 = t)

/-- R299: a class, and an index of its home scope. -/
def classOk (cls : Byte) (i : Fin 512) : Bool :=
  classDefined cls.toNat &&
    (match homeOf cls.toNat i with
      | .cell _ => true
      | .block _ => decide (i.val < 32)
      | .region _ => decide (i.val < 4)
      | .chip => decide (i.val = 0))

/-- R359: a header that an image can carry. -/
def imageOk (i : ImageInfo) : Bool := decide (i.rollback ≤ 32) && decide (fld i.lcMask 7 4 = 0)

/-- R334, R335: what a boot finds. -/
def findOk (f : BootFind) : Bool :=
  match f.current with
  | some i => imageOk i
  | none => true

/-- R338: the causes that stop a boot. -/
def stopOk (c : BitVec 8) : Bool := decide (1 ≤ c.toNat ∧ c.toNat ≤ 8)

/-- R348: an instance of a memory. -/
def instOk (m : MemId) (i : Fin 32) : Bool := decide (i.val < (memShape m).1)

/-- R381: a temperature sensor. -/
def tempOk (m : Fin 24) : Bool := decide (m.val < 8)

/-- R381: a supply or reference monitor. -/
def voltOk (m : Fin 24) : Bool := decide (8 ≤ m.val ∧ m.val < 20)

/-- R6: a block reaches only what belongs to it. -/
def reqOk (r : Requester) (l : PLoc) : Bool :=
  match r with
  | .block b => blockReaches b l
  | _ => true

/-- The operands of a command are ones that can occur. -/
def wellFormed (i : Instr) : Bool :=
  match i with
  | .openSession _ => true
  | .closeSession _ => true
  | .echoWord _ => true
  | .waitUntil _ => true
  | .readParam _ => true
  | .writeParam _ => true
  | .modifyParam _ => true
  | .writeParams _ => true
  | .readBlock _ => true
  | .writeBlock _ buf => bufOk buf
  | .armTime _ => true
  | .armAngle _ => true
  | .cancelEvent _ => true
  | .replaceEvent _ => true
  | .readEvent _ => true
  | .startDomain _ => true
  | .stopDomain _ => true
  | .resyncDomain _ => true
  | .setVirtualSpeed _ => true
  | .loadWindow _ buf => bufOk buf
  | .verifyWindow _ buf => bufOk buf
  | .invokeRoutine _ => true
  | .loadPewter _ buf => bufOk buf
  | .injectPewter _ => true
  | .loadLut _ buf => bufOk buf
  | .readFault _ => true
  | .acknowledgeFault _ => true
  | .releaseScope _ => true
  | .releaseFaultPin _ => true
  | .setCalendar _ => true
  | .bindWearCounter _ => true
  | .commitLifetime _ => true
  | .exportLifetime _ => true
  | .requestModeRun e => targetOk e 3
  | .requestModeConfigure e => targetOk e 2
  | .requestModeService e => targetOk e 7
  | .advanceLifecycle _ buf => bufOk buf
  | .stageFirmware _ buf => bufOk buf
  | .verifyFirmware _ => true
  | .activateFirmware _ => true
  | .abortStaging _ => true
  | .submissionFetch f => (match f with | .entry _ _ => true | .fail _ c => causeOk c)
  | .doorbell _ _ => true
  | .eqDoorbell _ _ => true
  | .sqCfgEn _ _ => true
  | .eqCfgEn _ _ => true
  | .hostRegisterWrite _ size _ => sizeOk size
  | .vlogClear _ => true
  | .hLtLoRead => true
  | .imageReady _ => true
  | .spiWrite _ _ => true
  | .spiRead _ _ => true
  | .readStatus => true
  | .hotReset => true
  | .recordPost => true
  | .irqHoldoffExpiry _ => true
  | .heartbeat => true
  | .hostTimeout => true
  | .supervisorDivergence _ => true
  | .supervisorRestartDone => true
  | .supLockstep => true
  | .ltPresetHi req _ => reqOk req (.chip 0x27)
  | .ltLoRead req => reqOk req (.chip 0x24)
  | .domSnapCapture req _ => reqOk req (.chip 0x50)
  | .pllSwitch req _ => reqOk req (.chip 0x21)
  | .activeLockLoss => true
  | .standbyLock _ => true
  | .referenceLost => true
  | .referenceReturn => true
  | .coreClockLost => true
  | .inputEdge _ _ _ => true
  | .capture _ _ _ => true
  | .capLoRead req cell => reqOk req (.cell cell 0x06)
  | .cellEnSet req cell _ => reqOk req (.cell cell 0x01)
  | .cellEnClear req cell _ => reqOk req (.cell cell 0x01)
  | .force req cell _ => reqOk req (.cell cell 0x01)
  | .cmpHiWrite req cell unit _ => reqOk req (.cell cell (cmpHiOff unit))
  | .compareMatch _ _ => true
  | .readbackMismatch _ _ => true
  | .toothEdge _ _ _ => true
  | .missDeadline _ => true
  | .gapTooth _ => true
  | .standstillDeadline _ => true
  | .toothUpdate _ => true
  | .virtualTooth _ => true
  | .virtualStop _ => true
  | .domCtrlEn req d _ => reqOk req (.dom d 0x00)
  | .domCtrlResync req d _ => reqOk req (.dom d 0x00)
  | .indexSet req d _ => reqOk req (.dom d 0x0D)
  | .vgCtrlRun req d _ => reqOk req (.dom d 0x15)
  | .standstillTime req d _ => reqOk req (.dom d 0x0B)
  | .angleRead req d => reqOk req (.dom d 0x1A)
  | .liveAngleCompare _ _ => true
  | .blkTimerExpiry _ => true
  | .routineDispatch _ => true
  | .microword _ => true
  | .commit _ => true
  | .routineWatchdog _ => true
  | .laneRebuildDone _ => true
  | .custEnClear req b _ => reqOk req (.block b 0x00)
  | .periodStart _ => true
  | .pwmEdge _ => true
  | .ctrig _ _ => true
  | .tripSourceActive _ _ => true
  | .bpwmCtrlEn req c _ => reqOk req (carrierCtrl c)
  | .tripClr req c _ => reqOk req (carrierCtrl c)
  | .tripSw req c _ => reqOk req (carrierCtrl c)
  | .updlock req c _ => reqOk req (carrierCtrl c)
  | .quadEdge _ _ _ => true
  | .stepEdge _ _ _ => true
  | .pulseRefEdge _ _ => true
  | .sincosSample _ _ _ _ => true
  | .serialReading _ => true
  | .countEvent _ => true
  | .indexEvent _ _ => true
  | .channelStandstill _ => true
  | .emuOutputCount _ => true
  | .chCtrlEn req ch _ => reqOk req (.chan ch 0x00)
  | .cmpEn req ch _ => reqOk req (.chan ch 0x00)
  | .emuEn req ch _ => reqOk req (.chan ch 0x00)
  | .clrFault req ch _ => reqOk req (.chan ch 0x00)
  | .indexArm req ch _ => reqOk req (.chan ch 0x00)
  | .posHi req ch _ => reqOk req (.chan ch 0x18)
  | .pcmpHi req ch _ => reqOk req (.chan ch 0x0F)
  | .spdTimeout req ch _ => reqOk req (.chan ch 0x0D)
  | .posLoRead req ch => reqOk req (.chan ch 0x17)
  | .idxLatchLoRead req ch => reqOk req (.chan ch 0x1D)
  | .pewterHoldStep _ => true
  | .peNop _ => true
  | .peSet _ => true
  | .peMov _ => true
  | .peJmp _ => true
  | .peWait _ => true
  | .peIn _ => true
  | .pePush _ => true
  | .peOut _ => true
  | .pePull _ => true
  | .peIrq _ => true
  | .lutStep _ => true
  | .restart req pe _ => reqOk req (.pewter pe 0x00)
  | .peCtrlEn req pe _ => reqOk req (.pewter pe 0x00)
  | .peInject req pe _ => reqOk req (.pewter pe 0x08)
  | .peTxdata req pe _ => reqOk req (.pewter pe 0x10)
  | .peRxdataRead req pe => reqOk req (.pewter pe 0x0F)
  | .peProg req pe _ => reqOk req (.pewter pe 0x11)
  | .peLut req pe _ => reqOk req (.pewter pe 0x12)
  | .sqSwtrig req region _ => reqOk req (.seqr region 0x3)
  | .sqListData req region _ => reqOk req (.seqr region 0x2)
  | .sqCtrlEn req region _ => reqOk req (.seqr region 0x0)
  | .adcCtrlEn req adc _ => reqOk req (.adc adc 0x1)
  | .conversionStart _ => true
  | .conversionResult _ _ _ => true
  | .adcLastRead req adc => reqOk req (.adc adc 0x2)
  | .rawZoneChange _ _ => true
  | .filterSample _ _ => true
  | .settlingEnd _ => true
  | .wcCtrlEn req w _ => reqOk req (.comp w 0x0)
  | .wcThrWrite req w hi _ => reqOk req (.comp w (if hi then 0x3 else 0x2))
  | .frameOriginate => true
  | .frameArrival _ bytes _ => frameOk bytes
  | .frameMissed _ => true
  | .laneLockLoss _ => true
  | .backupTakeover => true
  | .candidateOriginate => true
  | .elcCtrlEn req _ => reqOk req (.link 0x00)
  | .elcMbxTxHi req _ => reqOk req (.link 0x22)
  | .faultDetected cls index _ => classOk cls index
  | .quietPeriodEnd _ => true
  | .pinWidthExpiry => true
  | .safeReqN => true
  | .safeReqNRise => true
  | .pwrOkRise find => findOk find
  | .bootDone => true
  | .bootStop cause => stopOk cause
  | .pwrOkFall => true
  | .powerFail _ => true
  | .powerFailRecovery => true
  | .debugHalt => true
  | .debugResume => true
  | .debugCertificate _ => true
  | .extest => true
  | .intest => true
  | .bypass => true
  | .idcode => true
  | .samplePreload => true
  | .scrubWord mem inst _ => instOk mem inst
  | .tamper _ => true
  | .secureBankRebuild => true
  | .calendarSecond => true
  | .lifetimeCommitEnd _ => true
  | .historyWrite => true
  | .wearClr req _ => reqOk req (.life 0x0C)
  | .temperatureSample m _ => tempOk m
  | .voltageSample m _ => voltOk m
  | .calibrationPass _ _ => true
  | .ledgerSample _ _ _ _ => true
  | .excCtrl req _ => reqOk req (.chip 0x98)
  | .zioCfgEn req z _ => reqOk req (.chip (0x80 + z.val))
  | .laneLockGained _ => true
  | .vbatLoss => true
  | .busMasterEnable => true
  | .msixUnmask _ => true
  | .hostRingMemWrite off bytes => bar2Ok off bytes.length
  | .hCmdLatMaxRead => true
  | .debugPortAccess _ => true
  | .illegalWord _ => true

end Sys2Proof
end

