-- ==== Sys2Proof/Tests/Slice0.lean ====
section
/-!
SUPPORT. Tests: places and words of the spec's worked examples, one command that is not well formed for each check of
`wellFormed`, and for each statement with hypotheses a state and operands that meet them, clause by clause.
-/
open Sys2Proof Sys2Proof.Machine
set_option maxRecDepth 100000
set_option exponentiation.threshold 600
namespace Sys2Proof.Tests

/-- The state after reset. -/
def rs : State := State.reset

/-- A state with registers stored. -/
def regs (l : List (PLoc × Word)) (s : State) : State := l.foldl (fun z p => setReg z p.1 p.2) s

/-- A state at tick and line time `n`. -/
def tk (n : Nat) (s : State) : State := { s with time := { s.time with tick := n, lt := BitVec.ofNat 48 n } }

/-- A state in a mode. -/
def md (m : Mode) (s : State) : State := { s with sys := { s.sys with mode := m } }

/-- A submission entry of ring 0 with its arguments. -/
def cm (a0 : Word) (a1 : Word := 0) (a2 : Word := 0) (a3 : Word := 0) (a4 : Word := 0) (a5 : Word := 0) (a6 : Word := 0)
    (flags : Byte := 0) : Entry := ⟨0, 0, flags, 0, a0, a1, a2, a3, a4, a5, a6, 0⟩

/-- A state with a session whose ring 0 holds one fetched command. -/
def qs (op : Byte) (e : Entry) (s : State) : State :=
  setHreg { s with host := { s.host with sessionOpen := true, busMaster := true, subs := s.host.subs.set 0 { s.host.subs[0] with fetched := [(op, e)], tail := 1, head := 1 } } } (sqReg 0 0x08) 0xC0500000

/-- That state with the command taken. -/
def qz (op : Byte) (e : Entry) (s : State) : State := (takeHead (qs op e s) op e).getD s

/-- The command is taken. -/
def takesNow (op : Byte) (e : Entry) (s : State) : Bool :=
  alive (qs op e s) && decide ((qs op e s).sys.mode ≠ .powerFail) && !mustWait (qs op e s) op.toNat e && (takeHead (qs op e s) op e).isSome &&
    decide (cmdCheck (qz op e s) op.toNat e = none)

theorem takes_now {op : Byte} {e : Entry} {s : State} (h : takesNow op e s = true) : Takes (qs op e s) op e (qz op e s) := by
  simp only [takesNow, Bool.and_eq_true, Bool.not_eq_true', decide_eq_true_eq] at h
  obtain ⟨⟨⟨⟨h1, h2⟩, h3⟩, h4⟩, h5⟩ := h
  refine ⟨by rw [h1]; simpa using h2, h3, ?_, h5⟩
  unfold qz
  rw [Option.isSome_iff_exists] at h4
  obtain ⟨z, hz⟩ := h4
  rw [hz]; rfl

theorem pairs {α β : Type} {p : α × β} {a : α} (h : p.1 = a) : p = (a, p.2) := by rw [← h]
theorem pair2 {α β : Type} {p : α × β} {b : β} (h : p.2 = b) : p = (p.1, b) := by rw [← h]
theorem pair3 {α β γ : Type} {p : α × β × γ} {c : γ} (h : p.2.2 = c) : p = (p.1, p.2.1, c) := by rw [← h]

theorem rd3 {α β γ : Type} {p : α × β × γ} {a : α} {c : γ} (h : p.1 = a) (k : p.2.2 = c) : p = (a, p.2.1, c) := by
  rw [← h, ← k]

theorem ok_of {ε α : Type} {p : Except ε α} {d : α} (h : p.toBool = true) : p = .ok (p.toOption.getD d) := by
  cases p with
  | ok => rfl
  | error => cases h

/-- The error of an outcome. -/
def errGet {ε α : Type} (p : Except ε α) (d : ε) : ε :=
  match p with
  | .ok _ => d
  | .error e => e

theorem err_of {α β γ δ : Type} {p : Except (α × β × γ) δ} {d : α × β × γ} {a : α} {b : β} (h : p.toBool = false)
    (k : (errGet p d).1 = a) (l : (errGet p d).2.1 = b) : p = .error (a, b, (errGet p d).2.2) := by
  cases p with
  | ok => cases h
  | error => subst k; subst l; rfl

theorem inl_of {α β γ : Type} {p : α × (β ⊕ γ)} (h : p.2.isLeft = true) : p = (p.1, .inl (p.2.getLeft h)) := by
  obtain ⟨x, y⟩ := p
  cases y with
  | inl => rfl
  | inr => cases h

theorem inr_of {α β γ δ : Type} {p : α × (β ⊕ γ × δ)} (h : p.2.isRight = true) :
    p = (p.1, .inr ((p.2.getRight h).1, (p.2.getRight h).2)) := by
  obtain ⟨x, y⟩ := p
  cases y with
  | inl => cases h
  | inr => rfl

theorem some_of {α β : Type} {p : Option α × β} (h : p.1.isSome = true) : p = (some (p.1.get h), p.2) := by
  obtain ⟨x, y⟩ := p
  cases x with
  | none => cases h
  | some => rfl

theorem pe2 {α β : Type} (p : α × β) : p = (p.1, p.2) := rfl

theorem none_all {α : Type} {p : Option α} (h : p = none) {q : α → Prop} : ∀ y, p = some y → q y := by
  intro y k
  rw [h] at k
  cases k

theorem someD {α : Type} {p : Option α} {d : α} (h : p.isSome = true) : p = some (p.getD d) := by
  obtain ⟨x, hx⟩ := Option.isSome_iff_exists.mp h
  rw [hx]; rfl

/-- A domain of a state. -/
def dm (f : Dom → Dom) (s : State) : State := updDom s 0 f

/-- An entry of domain 0's arm table. -/
def armed (s : State) : State := dm (fun x => { x with st := .synced, arm := [(0, ⟨0, 0, 0, 0, 0, 0, []⟩)] }) s

/-- An open fault. -/
def f0 : OpenFault := ⟨0x10, .cell 0, .cell 0, 2, false, none, none, none, 0, ⟨0x05, 0, 0, 0, 0⟩⟩

/-- A state whose slot 0 holds a fault. -/
def slot (f : OpenFault) (s : State) : State := { s with flt := { s.flt with slots := s.flt.slots.set 0 (some f) } }

/-- A state with a scope in fault state. -/
def held (x : Scope) (latched : Bool) (s : State) : State :=
  { s with flt := { s.flt with scopes := [{ scope := x, since := 0, quietFrom := 0, latched := latched, active := false }] } }

/-- A state in SERVICE with a staged image in some state. -/
def staged (x : StageState) (s : State) : State := md .service { s with sec := { s.sec with stage := x } }

/-- A parameter write is accepted. -/
def acceptsNow (s : State) (who : Requester) (l : PLoc) (v : Word) : Bool :=
  reaches s who l && (match paramInfo l with
    | some i => decide (writeRefused s l i v = none)
    | none => false)

theorem accepts_now {s : State} {who : Requester} {l : PLoc} {v : Word} (h : acceptsNow s who l v = true) : Accepts s who l v := by
  unfold acceptsNow at h
  rw [Bool.and_eq_true] at h
  refine ⟨h.1, ?_⟩
  have h2 := h.2
  split at h2
  · next i hi => exact ⟨i, hi, by simpa using h2⟩
  · cases h2

/-- A state whose submission ring 0 is set up in host memory, or in ring memory. -/
def ringed (cfg : Word32) (f : SubRing → SubRing) (s : State) : State :=
  updSub (setHreg { s with host := { s.host with busMaster := true } } (sqReg 0 0x08) cfg) 0 f

/-- A state with a change of the host port. -/
def ho (f : HostIf → HostIf) (s : State) : State := { s with host := f s.host }

/-- A state on the SPI port. -/
def spi (s : State) : State := { s with host := { s.host with transport := .spi } }

/-- A state with a change of the clocks. -/
def ck (f : Clock → Clock) (s : State) : State := { s with time := { s.time with clk := f s.time.clk } }

/-- A record that waits. -/
def pl0 : Placed := ⟨0, 0, 22, ⟨0x01, 0, 0, 0, 0⟩⟩

/-- An armed occurrence of an angle event, and one whose start has been matched. -/
def occ0 : Occ :=
  { handle := 0, pulse := false, act := .set, cycle := 0, startAt := 0, startFlags := 0, startOut := false, startFired := false,
    endAngle := 0, endCycle := 0, endAt := none, endFlags := 0, endOut := false, startLoad := 0, endLoad := 0, link := .live }
def occ1 : Occ := { occ0 with pulse := true, startOut := true, endAt := some 0 }

/-- A committed write of a parameter-RAM word, and one of a cell's latch. -/
def lt0 : Late := ⟨4, .host, 0, .write 0 (.pram 0 3 .direct) 5⟩
def lc0 : Late := ⟨4, .host, 0, .latch 0 .set⟩
def ag (l : List Late) (s : State) : State := { s with agenda := { s.agenda with late := l } }

/-- A tooth on its way to the leaves. -/
def tooth0 : Tooth := { kind := .real, pin := 0, idx := 0, period := 0, upd := 0, state := .synced, causes := [], gapOk := false, noise := 0, clamp := none, jump := none, cycle := none, micro := none, ang := none, rev := none }

/-- A request of source 17. -/
def req0 : Request := ⟨0, 0, 0, none, none, 0, false⟩

/-- A routine that stands at the first customer word. -/
def rout (p : Phase) : Routine := { routineAt rs 0 17 req0 0 with pc := 0xC40, readyAt := 0, firstAt := 0, phase := p }

/-- A state with a change of a cell, and of a block. -/
def ce (f : Cell → Cell) (s : State) : State := updCell s 0 f
def bk (f : Block → Block) (s : State) : State := updBlk s 0 f

/-- A sequencer that stands at a microword, its word and its data. -/
def w0 : MicroWord := 1 <<< 100
def sw : State := bk (fun x => { x with run := some (rout .body) }) (regs [(.block 0 0x00, 1)] { rs with mem := { rs.mem with cstore := [(0xC40, 1 <<< 100)] } })
def d0 : Word := aluResult (fld w0 105 100) (microSource (rout .body) w0 (fld w0 99 95)) (microSource (rout .body) w0 (fld w0 94 90)) (rout .body).c

/-- A state with a change of a carrier, of a channel and of an engine. -/
def ca (k : Carrier) (f : CarrierSt → CarrierSt) (s : State) : State := updCarrier s k f
def ch (f : Channel → Channel) (s : State) : State := updChan s 0 f
def pe (f : Pewter → Pewter) (s : State) : State := updPe s 0 f

/-- Channel 0 enabled in a mode, and engine 0 enabled with a word in hand. -/
def cn (mode : Word) (s : State) : State := regs [(.chan 0 0x00, 1), (.chan 0 0x01, mode)] s
def pw (w : PewterWord) (f : Pewter → Pewter) : State := pe (fun e => f { e with nextStep := some 0, ir := some w }) (regs [(.pewter 0 0x00, 1)] rs)

/-- A state with a change of the link port A, of the node, of a converter, of a sequencer and of a comparator. -/
def po (f : ElcPort → ElcPort) (s : State) : State := updPort (regs [(.link 0x00, 3)] s) .a f
def no (f : Electrum → Electrum) (s : State) : State := updElc (regs [(.link 0x00, 3)] s) f
def ad (f : Converter → Converter) (s : State) : State := updAdc s 0 f
def sq (f : Sequencer → Sequencer) (s : State) : State := updSeq s 0 f
def cp (f : Comparator → Comparator) (s : State) : State := updComp s 0 f

/-- Region 0's trigger list with one entry. -/
def ent (w0 w1 w2 : Word) (s : State) : State := setSqWord (setSqWord (setSqWord s 0 0 0 w0) 0 0 1 w1) 0 0 2 w2

/-- A frame of number 0 with its checksum. -/
def fr : List Byte := [0, 0, 0x50, 0] ++ List.replicate 242 0 ++ [0x8B, 0xD8, 0x89, 0xF2]

/-- A frame of master 1 with its checksum. -/
def fr1 : List Byte := [0, 0, 0x50, 0x20] ++ List.replicate 242 0 ++ [0xF1, 0xBE, 0xBD, 0x96]

theorem fr1_crc : frameCrc fr1 = BitVec.ofNat 32 (beAt fr1 246 4) := by decide +kernel

theorem fr_crc : frameCrc fr = BitVec.ofNat 32 (beAt fr 246 4) := by decide +kernel

/-- A firmware image, what the boot flow finds, a scope in fault state, and a history entry. -/
def img : ImageInfo := ⟨1, 0, 0, 0xFF, false, true, true⟩
def bf (ok : Bool) : BootFind := ⟨false, none, ok, 0⟩
def ss (x : Scope) : ScopeState := { scope := x, since := 0, quietFrom := 0, latched := false, active := false }
def he : HistEntry := { body := ⟨0x01, 0, 0, 0, 0⟩, seq := 0, acked := none, closed := none, latched := none, exits := 0, boot := 0, cal := 0, calValid := true }
def ci : CommitImg := { n := 1, wear := Vector.ofFn (fun _ => 0), binds := Vector.ofFn (fun _ => 0), duty := Vector.ofFn (fun _ => 0) }

/-- A device whose debug port is open, and one that writes a lifetime commit. -/
def dbg (s : State) : State := { s with sec := { s.sec with lc := .development, debugOk := true } }
def lw (s : State) : State := { s with life := { s.life with writing := some ci } }

/-- A state in POWER-FAIL with no commit running, and its monitors within their thresholds, for either grade (R381). -/
def pfail : State := { rs with life := { rs.life with writing := none }, sys := { rs.sys with mode := .powerFail } }

theorem pfail_thresholds (m : Fin 24) (h : m.val < 8) :
    reg pfail (.monitor (0x0A + 3 * m.val)) = BitVec.ofNat 24 (pair12 (-180) (if Config.gradeEB then 520 else 480)) := by
  have l : locate (paOf (.monitor (0x0A + 3 * m.val))) = some (.monitor (0x0A + 3 * m.val)) := by revert m; decide
  show regReset _ = _
  unfold regReset
  rw [l]
  have i : paramInfo (.monitor (0x0A + 3 * m.val)) = pS (faultReset ((0x0A + 3 * m.val - 8) / 3)) 0xFFFFFF := by
    have := m.isLt
    show infoMonitor _ = _
    unfold infoMonitor
    simp only [show ¬ (0x0A + 3 * m.val = 0) by omega, show ¬ (0x0A + 3 * m.val = 1) by omega, show ¬ (0x0A + 3 * m.val ≤ 4) by omega,
      show ¬ (0x0A + 3 * m.val < 8) by omega, show 0x0A + 3 * m.val ≤ 0x4F by omega, show ¬ ((0x0A + 3 * m.val - 8) % 3 = 0) by omega,
      show ¬ ((0x0A + 3 * m.val - 8) % 3 = 1) by omega, if_false, if_true]
  dsimp only
  rw [i]
  have d : (0x0A + 3 * m.val - 8) / 3 = m.val := by omega
  rw [d]
  unfold faultReset pS
  simp only [h, if_true]
  rfl

theorem pfail_inside : (List.finRange 24).any (monBeyond pfail) = false := by
  rw [List.any_eq_false]
  intro m _
  by_cases h : m.val < 8
  · unfold monBeyond
    rw [pfail_thresholds m h]
    generalize Config.gradeEB = b
    revert b m; decide
  · revert m; decide

/-! ### Words no row spells, and places in parameter space -/

/-- spec/opcode_table.json gives its rows no bits. -/
theorem test_no_word_spells_a_command : decodeTableWord 16 0 = none ∧ decodeTableWord 32 0x12345678 = none := by decide

/-- 00_scope.md, the worked example of cell 2.5.11. -/
theorem test_cell_2_5_11 :
    cellOf 21 11 = 347 ∧ paOf (.cell 347 0x00) = 0x012B60 ∧ paOf (.block 21 0x00) = 0x021500 ∧
      paOf (.pram 21 0 .direct) = 0x1A8000 := by decide

/-- 01_architecture_and_timebase.md, the worked examples of the RAM areas. -/
theorem test_ram_areas :
    paOf (.pram 21 0x0123 .set) = 0x1AA123 ∧ paOf (.pram 21 0x0123 .clear) = 0x1AC123 ∧
      paOf (.rram 2 0xC100) = 0x22C100 ∧ locate 0x1AA123 = some (.pram 21 0x0123 .set) := by decide

/-- 08_analogue_front_end.md, the example of a trigger-list entry: EN, ANGLE and domain D3. -/
theorem test_trigger_word : bit (0x930000 : Word) 23 = true ∧ fld (0x930000 : Word) 22 20 = 1 ∧
    fld (0x930000 : Word) 19 16 = 3 ∧ paOf (.seqr 2 0x1) = 0x080821 ∧ paOf (.seqr 2 0x2) = 0x080822 := by decide

/-! ### Commands that are not well formed -/

theorem test_wf_size : wellFormed (.hostRegisterWrite 0 3 0) = false ∧ wellFormed (.hostRegisterWrite 0 4 0) = true := by decide
theorem test_wf_cause : wellFormed (.submissionFetch (.fail 0 0)) = false ∧ wellFormed (.submissionFetch (.fail 0 1)) = true := by decide
theorem test_wf_buf : wellFormed (.loadLut (cm 0) (.fail 0)) = false ∧ wellFormed (.loadLut (cm 0) (.data [])) = true := by decide
theorem test_wf_bar2 : wellFormed (.hostRingMemWrite 0x1FFFFF [0, 0]) = false ∧ wellFormed (.hostRingMemWrite 0 []) = false ∧
    wellFormed (.hostRingMemWrite 0x1FFFFF [0]) = true := by decide
theorem test_wf_frame : wellFormed (.frameArrival .a [0] 0) = false ∧ wellFormed (.frameArrival .a fr 0) = true := by decide
theorem test_wf_target : wellFormed (.requestModeRun (cm 2)) = false ∧ wellFormed (.requestModeRun (cm 3)) = true := by decide
theorem test_wf_class : wellFormed (.faultDetected 0xFF 0 0) = false ∧ wellFormed (.faultDetected 0x10 511 0) = true := by decide
theorem test_wf_image : wellFormed (.pwrOkRise { bf true with current := some { img with rollback := 33 } }) = false ∧
    wellFormed (.pwrOkRise (bf true)) = true := by decide
theorem test_wf_stop : wellFormed (.bootStop 0) = false ∧ wellFormed (.bootStop 9) = false ∧ wellFormed (.bootStop 8) = true := by decide
theorem test_wf_inst : wellFormed (.scrubWord .pewterStore 8 .clean) = false ∧ wellFormed (.scrubWord .pewterStore 7 .clean) = true := by decide
theorem test_wf_temp : wellFormed (.temperatureSample 8 0) = false ∧ wellFormed (.temperatureSample 7 0) = true := by decide
theorem test_wf_volt : wellFormed (.voltageSample 7 0) = false ∧ wellFormed (.voltageSample 20 0) = false ∧
    wellFormed (.voltageSample 8 0) = true := by decide
theorem test_wf_requester : wellFormed (.force (.block 0) 511 0) = false ∧ wellFormed (.force .host 511 0) = true := by decide

/-! ### A state and operands for every clause of every statement that has hypotheses -/

/-- A state and operands for each clause of `StepRunsFront`. -/
theorem witness_StepRunsFront :
    (∃ (s : State) (c : Instr) (rest : List Instr), s.pending = c :: rest) ∧
    (∃ (s : State), s.pending = []) :=
  ⟨⟨({ rs with pending := [.calendarSecond] }), .calendarSecond, ([]), rfl⟩,
    ⟨rs, rfl⟩⟩

/-- A state and operands for each clause of `StepSettled`. -/
theorem witness_StepSettled :
    (∃ (s : State) (t : State), step s = .next t) :=
  ⟨rs, (settle (tick rs)), rfl⟩

/-- A state and operands for each clause of `SettleLeaves`. -/
theorem witness_SettleLeaves :
    (∃ (s : State), s.flt.reports = []) :=
  ⟨rs, rfl⟩

/-- A state and operands for each clause of `SessionCommandsComplete`. -/
theorem witness_SessionCommandsComplete :
    (∃ (e : Entry) (s : State) (z : State), Takes s 0x01 e z ∧ fld e.a0 7 0 = 3 ∧ (z.host.sessionOpen = false ∨ bit
      e.a0 23 = true)) ∧
    (∃ (e : Entry) (s : State) (z : State), Takes s 0x01 e z ∧ fld e.a0 7 0 ≠ 3) ∧
    (∃ (e : Entry) (s : State) (z : State), Takes s 0x01 e z ∧ fld e.a0 7 0 = 3 ∧ z.host.sessionOpen = true ∧ bit
      e.a0 23 = false) ∧
    (∃ (e : Entry) (s : State) (z : State), Takes s 0x02 e z) ∧
    (∃ (e : Entry) (s : State) (z : State), Takes s 0x03 e z) ∧
    (∃ (e : Entry) (s : State) (z : State), Takes s 0x04 e z ∧ due z (mkTime e.a1 e.a0) = true) ∧
    (∃ (e : Entry) (s : State) (z : State), Takes s 0x04 e z ∧ due z (mkTime e.a1 e.a0) = false) :=
  ⟨⟨(cm 0x800003), (qs 0x01 (cm 0x800003) rs), (qz 0x01 (cm 0x800003) rs), takes_now (by decide), by decide, by
      decide⟩,
    ⟨(cm 2), (qs 0x01 (cm 2) (rs)), (qz 0x01 (cm 2) (rs)), takes_now (by decide), by decide⟩,
    ⟨(cm 3), (qs 0x01 (cm 3) (rs)), (qz 0x01 (cm 3) (rs)), takes_now (by decide), by decide, by decide, by decide⟩,
    ⟨(cm 0), (qs 0x02 (cm 0) (rs)), (qz 0x02 (cm 0) (rs)), takes_now (by decide)⟩,
    ⟨(cm 7), (qs 0x03 (cm 7) (rs)), (qz 0x03 (cm 7) (rs)), takes_now (by decide)⟩,
    ⟨(cm 0), (qs 0x04 (cm 0) (rs)), (qz 0x04 (cm 0) (rs)), takes_now (by decide), by decide⟩,
    ⟨(cm 5), (qs 0x04 (cm 5) (rs)), (qz 0x04 (cm 5) (rs)), takes_now (by decide), by decide⟩⟩

/-- A state and operands for each clause of `ParameterCommandsComplete`. -/
theorem witness_ParameterCommandsComplete :
    (∃ (e : Entry) (w : Word) (y : State) (t : Status) (s : State) (z : State), Takes s 0x10 e z ∧ readParam z .host
      e.a0.toNat = (w, y, t)) ∧
    (∃ (e : Entry) (y : State) (t : Status) (s : State) (z : State), Takes s 0x11 e z ∧ writeParam z .host
      e.a0.toNat e.a1 = (y, t)) ∧
    (∃ (e : Entry) (r : Fin 4) (w : Nat) (s : State) (z : State), Takes s 0x11 e z ∧ w < 0x10000 ∧ e.a0.toNat =
      0x200000 + r.val * 0x10000 + w) ∧
    (∃ (e : Entry) (v : Word) (x : State) (y : State) (s : State) (z : State), Takes s 0x12 e z ∧ readParam z .host
      e.a0.toNat = (v, x, .ok) ∧ writeParam x .host e.a0.toNat (((v &&& ~~~e.a1) ||| (e.a2 &&& e.a1)) &&& ~~~(actBits
      e.a0.toNat &&& ~~~e.a1)) = (y, .ok)) ∧
    (∃ (e : Entry) (x : State) (y : State) (v : Word) (t : Status) (s : State) (z : State), Takes s 0x12 e z ∧
      readParam z .host e.a0.toNat = (v, x, .ok) ∧ writeParam x .host e.a0.toNat (((v &&& ~~~e.a1) ||| (e.a2 &&&
      e.a1)) &&& ~~~(actBits e.a0.toNat &&& ~~~e.a1)) = (y, t) ∧ t ≠ .ok) ∧
    (∃ (e : Entry) (s : State) (z : State), Takes s 0x13 e z ∧ fld e.a0 1 0 = 0) ∧
    (∃ (e : Entry) (y : State) (s : State) (z : State), Takes s 0x13 e z ∧ fld e.a0 1 0 ≠ 0 ∧ checkPairs z z 0
      ([(e.a1.toNat, e.a2), (e.a3.toNat, e.a4), (e.a5.toNat, e.a6)].take (fld e.a0 1 0)) = .ok y) ∧
    (∃ (e : Entry) (k : Nat) (t : Status) (y : State) (s : State) (z : State), Takes s 0x13 e z ∧ fld e.a0 1 0 ≠ 0 ∧
      checkPairs z z 0 ([(e.a1.toNat, e.a2), (e.a3.toNat, e.a4), (e.a5.toNat, e.a6)].take (fld e.a0 1 0)) = .error (k,
      t, y)) ∧
    (∃ (e : Entry) (s : State) (z : State), Takes s 0x14 e z ∧ (e.a1.toNat = 0 ∨ 4096 < e.a1.toNat)) ∧
    (∃ (e : Entry) (y : State) (m : BulkMove) (s : State) (z : State), Takes s 0x14 e z ∧ 1 ≤ e.a1.toNat ∧
      e.a1.toNat ≤ 4096 ∧ bulkPiece z ⟨false, e, 0, [], []⟩ = (y, .inl m)) ∧
    (∃ (e : Entry) (y : State) (t : Status) (b : Word) (s : State) (z : State), Takes s 0x14 e z ∧ 1 ≤ e.a1.toNat ∧
      e.a1.toNat ≤ 4096 ∧ bulkPiece z ⟨false, e, 0, [], []⟩ = (y, .inr (t, b))) ∧
    (∃ (e : Entry) (s : State) (z : State), Takes s 0x15 e z ∧ (e.a1.toNat = 0 ∨ 4096 < e.a1.toNat)) ∧
    (∃ (e : Entry) (buf : Buf) (bs : List Byte) (x : State) (y : State) (m : BulkMove) (s : State) (z : State),
      Takes s 0x15 e z ∧ 1 ≤ e.a1.toNat ∧ e.a1.toNat ≤ 4096 ∧ readBuffer z e 2 (4 * e.a1.toNat) buf = (some bs, x) ∧
      bulkPiece x ⟨true, e, 0, bs, []⟩ = (y, .inl m)) ∧
    (∃ (e : Entry) (buf : Buf) (bs : List Byte) (x : State) (y : State) (t : Status) (b : Word) (s : State) (z :
      State), Takes s 0x15 e z ∧ 1 ≤ e.a1.toNat ∧ e.a1.toNat ≤ 4096 ∧ readBuffer z e 2 (4 * e.a1.toNat) buf = (some
      bs, x) ∧ bulkPiece x ⟨true, e, 0, bs, []⟩ = (y, .inr (t, b))) ∧
    (∃ (e : Entry) (buf : Buf) (x : State) (s : State) (z : State), Takes s 0x15 e z ∧ 1 ≤ e.a1.toNat ∧ e.a1.toNat ≤
      4096 ∧ readBuffer z e 2 (4 * e.a1.toNat) buf = (none, x)) :=
  ⟨⟨(cm 0x24), ((readParam (qz 0x10 (cm 0x24) (rs)) .host ((cm 0x24)).a0.toNat).1), ((readParam (qz 0x10 (cm 0x24)
      (rs)) .host ((cm 0x24)).a0.toNat).2.1), ((readParam (qz 0x10 (cm 0x24) (rs)) .host ((cm 0x24)).a0.toNat).2.2),
      (qs 0x10 (cm 0x24) (rs)), (qz 0x10 (cm 0x24) (rs)), takes_now (by decide), rfl⟩,
    ⟨(cm 0x26 5), ((writeParam (qz 0x11 (cm 0x26 5) (rs)) .host ((cm 0x26 5)).a0.toNat ((cm 0x26 5)).a1).1),
      ((writeParam (qz 0x11 (cm 0x26 5) (rs)) .host ((cm 0x26 5)).a0.toNat ((cm 0x26 5)).a1).2), (qs 0x11 (cm 0x26 5)
      (rs)), (qz 0x11 (cm 0x26 5) (rs)), takes_now (by decide), rfl⟩,
    ⟨(cm 0x23FFFF 5), 3, 0xFFFF, (qs 0x11 (cm 0x23FFFF 5) (rs)), (qz 0x11 (cm 0x23FFFF 5) (rs)), takes_now (by
      decide), by decide, by decide⟩,
    ⟨(cm 0x100003 0xFF 0xAB), 0, ((readParam (qz 0x12 (cm 0x100003 0xFF 0xAB) (rs)) .host ((cm 0x100003 0xFF
      0xAB)).a0.toNat).2.1), ((writeParam ((readParam (qz 0x12 (cm 0x100003 0xFF 0xAB) (rs)) .host ((cm 0x100003 0xFF
      0xAB)).a0.toNat).2.1) .host ((cm 0x100003 0xFF 0xAB)).a0.toNat (((0 &&& ~~~((cm 0x100003 0xFF 0xAB)).a1) |||
      (((cm 0x100003 0xFF 0xAB)).a2 &&& ((cm 0x100003 0xFF 0xAB)).a1)) &&& ~~~(actBits ((cm 0x100003 0xFF
      0xAB)).a0.toNat &&& ~~~((cm 0x100003 0xFF 0xAB)).a1))).1), (qs 0x12 (cm 0x100003 0xFF 0xAB) (rs)), (qz 0x12 (cm
      0x100003 0xFF 0xAB) (rs)), takes_now (by decide), rd3 (by decide) (by decide), pair2 (by decide)⟩,
    ⟨(cm 0x27 0xFF 0xAB), ((readParam (qz 0x12 (cm 0x27 0xFF 0xAB) (md .run rs)) .host ((cm 0x27 0xFF
      0xAB)).a0.toNat).2.1), ((writeParam ((readParam (qz 0x12 (cm 0x27 0xFF 0xAB) (md .run rs)) .host ((cm 0x27 0xFF
      0xAB)).a0.toNat).2.1) .host ((cm 0x27 0xFF 0xAB)).a0.toNat (((0 &&& ~~~((cm 0x27 0xFF 0xAB)).a1) ||| (((cm 0x27
      0xFF 0xAB)).a2 &&& ((cm 0x27 0xFF 0xAB)).a1)) &&& ~~~(actBits ((cm 0x27 0xFF 0xAB)).a0.toNat &&& ~~~((cm 0x27
      0xFF 0xAB)).a1))).1), 0, .staticLocked, (qs 0x12 (cm 0x27 0xFF 0xAB) (md .run rs)), (qz 0x12 (cm 0x27 0xFF 0xAB)
      (md .run rs)), takes_now (by decide), rd3 (by decide) (by decide), pair2 (by decide), by decide⟩,
    ⟨(cm 0), (qs 0x13 (cm 0) (rs)), (qz 0x13 (cm 0) (rs)), takes_now (by decide), by decide⟩,
    ⟨(cm 1 0x100003 5), _, (qs 0x13 (cm 1 0x100003 5) rs), (qz 0x13 (cm 1 0x100003 5) rs), takes_now (by decide), by
      decide, ok_of (d := rs) (by decide)⟩,
    ⟨(cm 1 0x27 5), 0, .staticLocked, _, (qs 0x13 (cm 1 0x27 5) (md .run rs)), (qz 0x13 (cm 1 0x27 5) (md .run rs)),
      takes_now (by decide), by decide, err_of (d := (0, .ok, rs)) (by decide) (by decide) (by decide)⟩,
    ⟨(cm 0 4097), (qs 0x14 (cm 0 4097) (rs)), (qz 0x14 (cm 0 4097) (rs)), takes_now (by decide), by decide⟩,
    ⟨(cm 0x100000 5), _, _, (qs 0x14 (cm 0x100000 5) rs), (qz 0x14 (cm 0x100000 5) rs), takes_now (by decide), by
      decide, by decide, inl_of (by decide)⟩,
    ⟨(cm 0x100000 4), _, _, _, (qs 0x14 (cm 0x100000 4) rs), (qz 0x14 (cm 0x100000 4) rs), takes_now (by decide), by
      decide, by decide, inr_of (by decide)⟩,
    ⟨(cm 0 0), (qs 0x15 (cm 0 0) (rs)), (qz 0x15 (cm 0 0) (rs)), takes_now (by decide), by decide⟩,
    ⟨(cm 0x100000 5), (.data []), _, _, _, _, (qs 0x15 (cm 0x100000 5) rs), (qz 0x15 (cm 0x100000 5) rs), takes_now
      (by decide), by decide, by decide, some_of (by decide), inl_of (by decide)⟩,
    ⟨(cm 0x100000 1), (.data [1, 0, 0, 0]), _, _, _, _, _, (qs 0x15 (cm 0x100000 1) rs), (qz 0x15 (cm 0x100000 1)
      rs), takes_now (by decide), by decide, by decide, some_of (by decide), inr_of (by decide)⟩,
    ⟨(cm 0x100000 1), (.fail 1), ((readBuffer (qz 0x15 (cm 0x100000 1) (rs)) (cm 0x100000 1) 2 (4 * ((cm 0x100000
      1)).a1.toNat) (.fail 1)).2), (qs 0x15 (cm 0x100000 1) (rs)), (qz 0x15 (cm 0x100000 1) (rs)), takes_now (by
      decide), by decide, by decide, pairs (by decide)⟩⟩

/-- A state and operands for each clause of `EventCommandsComplete`. -/
theorem witness_EventCommandsComplete :
    (∃ (e : Entry) (s : State) (z : State), Takes s 0x20 e z ∧ armTimeCheck z e = .ok) ∧
    (∃ (e : Entry) (s : State) (z : State), Takes s 0x20 e z ∧ armTimeCheck z e ≠ .ok) ∧
    (∃ (e : Entry) (d : Fin 16) (k : BitVec 8) (s : State) (z : State), Takes s 0x21 e z ∧ d = Fin.ofNat 16 (regFld
      z (.cell (Fin.ofNat 512 (fld e.a2 23 15)) 0x00) 7 4) ∧ armCheck z d none e.a0 e.a1 e.a2 e.a3 = .ok ∧ freeSlot
      z.doms[d].arm = some k) ∧
    (∃ (e : Entry) (d : Fin 16) (s : State) (z : State), Takes s 0x21 e z ∧ d = Fin.ofNat 16 (regFld z (.cell
      (Fin.ofNat 512 (fld e.a2 23 15)) 0x00) 7 4) ∧ armCheck z d none e.a0 e.a1 e.a2 e.a3 ≠ .ok) ∧
    (∃ (e : Entry) (s : State) (z : State), Takes s 0x22 e z ∧ fld e.a0 23 22 = 0 ∧ armGet z (BitVec.ofNat 12 (fld
      e.a0 11 0)) = none) ∧
    (∃ (e : Entry) (a : ArmEntry) (y : State) (n : Nat) (s : State) (z : State), Takes s 0x22 e z ∧ fld e.a0 23 22 =
      0 ∧ armGet z (BitVec.ofNat 12 (fld e.a0 11 0)) = some a ∧ cancelEntry z (BitVec.ofNat 12 (fld e.a0 11 0)) (bit
      e.a0 21) = (y, n)) ∧
    (∃ (e : Entry) (y : State) (n : Nat) (s : State) (z : State), Takes s 0x22 e z ∧ (fld e.a0 23 22 = 1 ∨ fld e.a0
      23 22 = 2) ∧ cancelEntries z (inCancelScope z e) (bit e.a0 21) = (y, n)) ∧
    (∃ (e : Entry) (y : State) (n : Nat) (s : State) (z : State), Takes s 0x22 e z ∧ fld e.a0 23 22 = 3 ∧
      cancelTimed z (Fin.ofNat 512 (fld e.a0 8 0)) = (y, n)) ∧
    (∃ (e : Entry) (s : State) (z : State), Takes s 0x23 e z ∧ armGet z (BitVec.ofNat 12 (fld e.a0 11 0)) = none) ∧
    (∃ (e : Entry) (y : State) (t : Status) (s : State) (z : State), Takes s 0x23 e z ∧ replaceEvent z (BitVec.ofNat
      12 (fld e.a0 11 0)) e.a1 e.a2 e.a3 e.a4 = (y, t)) ∧
    (∃ (e : Entry) (s : State) (z : State), Takes s 0x24 e z ∧ 4 < fld e.a0 14 12) ∧
    (∃ (e : Entry) (s : State) (z : State), Takes s 0x24 e z ∧ fld e.a0 14 12 ≤ 4 ∧ armGet z (BitVec.ofNat 12 (fld
      e.a0 11 0)) = none) ∧
    (∃ (e : Entry) (a : ArmEntry) (s : State) (z : State), Takes s 0x24 e z ∧ fld e.a0 14 12 ≤ 4 ∧ armGet z
      (BitVec.ofNat 12 (fld e.a0 11 0)) = some a) :=
  ⟨⟨(cm 0 100), (qs 0x20 (cm 0 100) (regs [(.cell 0 0x00, 1), (.cell 0 0x01, 1)] (md .run rs))), (qz 0x20 (cm 0
      100) (regs [(.cell 0 0x00, 1), (.cell 0 0x01, 1)] (md .run rs))), takes_now (by decide), by decide⟩,
    ⟨(cm 0 100), (qs 0x20 (cm 0 100) (rs)), (qz 0x20 (cm 0 100) (rs)), takes_now (by decide), by decide⟩,
    ⟨(cm 0), 0, 0, (qs 0x21 (cm 0) (regs [(.cell 0 0x00, 6), (.cell 0 0x01, 1), (.dom 0 0x02, 4)] (dm (fun x =>
      { x with st := .synced }) (md .run rs)))), (qz 0x21 (cm 0) (regs [(.cell 0 0x00, 6), (.cell 0 0x01, 1), (.dom 0
      0x02, 4)] (dm (fun x => { x with st := .synced }) (md .run rs)))), takes_now (by decide), by decide, by decide,
      by decide⟩,
    ⟨(cm 0), 0, (qs 0x21 (cm 0) (rs)), (qz 0x21 (cm 0) (rs)), takes_now (by decide), by decide, by decide⟩,
    ⟨(cm 0), (qs 0x22 (cm 0) (rs)), (qz 0x22 (cm 0) (rs)), takes_now (by decide), by decide, by decide⟩,
    ⟨(cm 0), (⟨0, 0, 0, 0, 0, 0, []⟩), (((cancelEntry (qz 0x22 (cm 0) (armed rs)) (BitVec.ofNat 12 (fld ((cm 0)).a0
      11 0)) (bit ((cm 0)).a0 21))).1), (((cancelEntry (qz 0x22 (cm 0) (armed rs)) (BitVec.ofNat 12 (fld ((cm 0)).a0
      11 0)) (bit ((cm 0)).a0 21))).2), (qs 0x22 (cm 0) (armed rs)), (qz 0x22 (cm 0) (armed rs)), takes_now (by
      decide), by decide, by decide, rfl⟩,
    ⟨(cm 0x400000), (((cancelEntries (qz 0x22 (cm 0x400000) (armed rs)) (inCancelScope (qz 0x22 (cm 0x400000) (armed
      rs)) (cm 0x400000)) (bit ((cm 0x400000)).a0 21))).1), (((cancelEntries (qz 0x22 (cm 0x400000) (armed rs))
      (inCancelScope (qz 0x22 (cm 0x400000) (armed rs)) (cm 0x400000)) (bit ((cm 0x400000)).a0 21))).2), (qs 0x22 (cm
      0x400000) (armed rs)), (qz 0x22 (cm 0x400000) (armed rs)), takes_now (by decide), by decide, rfl⟩,
    ⟨(cm 0xC00000), (((cancelTimed (qz 0x22 (cm 0xC00000) (rs)) (Fin.ofNat 512 (fld ((cm 0xC00000)).a0 8 0)))).1),
      (((cancelTimed (qz 0x22 (cm 0xC00000) (rs)) (Fin.ofNat 512 (fld ((cm 0xC00000)).a0 8 0)))).2), (qs 0x22 (cm
      0xC00000) (rs)), (qz 0x22 (cm 0xC00000) (rs)), takes_now (by decide), by decide, rfl⟩,
    ⟨(cm 0), (qs 0x23 (cm 0) (rs)), (qz 0x23 (cm 0) (rs)), takes_now (by decide), by decide⟩,
    ⟨(cm 0), (((replaceEvent (qz 0x23 (cm 0) (armed rs)) (BitVec.ofNat 12 (fld ((cm 0)).a0 11 0)) ((cm 0)).a1 ((cm
      0)).a2 ((cm 0)).a3 ((cm 0)).a4)).1), (((replaceEvent (qz 0x23 (cm 0) (armed rs)) (BitVec.ofNat 12 (fld ((cm
      0)).a0 11 0)) ((cm 0)).a1 ((cm 0)).a2 ((cm 0)).a3 ((cm 0)).a4)).2), (qs 0x23 (cm 0) (armed rs)), (qz 0x23 (cm 0)
      (armed rs)), takes_now (by decide), rfl⟩,
    ⟨(cm 0x5000), (qs 0x24 (cm 0x5000) (rs)), (qz 0x24 (cm 0x5000) (rs)), takes_now (by decide), by decide⟩,
    ⟨(cm 0x4000), (qs 0x24 (cm 0x4000) (rs)), (qz 0x24 (cm 0x4000) (rs)), takes_now (by decide), by decide, by
      decide⟩,
    ⟨(cm 0x4000), (⟨0, 0, 0, 0, 0, 0, []⟩), (qs 0x24 (cm 0x4000) (armed rs)), (qz 0x24 (cm 0x4000) (armed rs)),
      takes_now (by decide), by decide, by decide⟩⟩

/-- A state and operands for each clause of `DomainCommandsComplete`. -/
theorem witness_DomainCommandsComplete :
    (∃ (e : Entry) (d : Fin 16) (s : State) (z : State), Takes s 0x30 e z ∧ d = Fin.ofNat 16 (fld e.a0 3 0) ∧ (domEn
      (lateView z) d = true ∨ trkTaken (lateView z) d = false)) ∧
    (∃ (e : Entry) (d : Fin 16) (s : State) (z : State), Takes s 0x30 e z ∧ d = Fin.ofNat 16 (fld e.a0 3 0) ∧ domEn
      (lateView z) d = false ∧ trkTaken (lateView z) d = true) ∧
    (∃ (e : Entry) (d : Fin 16) (s : State) (z : State), Takes s 0x31 e z ∧ d = Fin.ofNat 16 (fld e.a0 3 0) ∧ bit
      e.a0 8 = false) ∧
    (∃ (e : Entry) (d : Fin 16) (y : State) (n : Nat) (s : State) (z : State), Takes s 0x31 e z ∧ d = Fin.ofNat 16
      (fld e.a0 3 0) ∧ bit e.a0 8 = true ∧ y = (cancelEntries z (handlesOf z d) (bit e.a0 9)).1 ∧ n = (cancelEntries z
      (handlesOf z d) (bit e.a0 9)).2) ∧
    (∃ (e : Entry) (d : Fin 16) (s : State) (z : State), Takes s 0x32 e z ∧ d = Fin.ofNat 16 (fld e.a0 3 0) ∧
      (flushIntake z d).doms[d].st = .lost) ∧
    (∃ (e : Entry) (d : Fin 16) (s : State) (z : State), Takes s 0x32 e z ∧ d = Fin.ofNat 16 (fld e.a0 3 0) ∧
      (flushIntake z d).doms[d].st ≠ .lost) ∧
    (∃ (d : Fin 16) (y : State), domEn y d = false ∧ trkTaken y d = false) ∧
    (∃ (d : Fin 16) (y : State), domEn y d = true) ∧
    (∃ (e : Entry) (d : Fin 16) (s : State) (z : State), Takes s 0x33 e z ∧ d = Fin.ofNat 16 (fld e.a0 3 0) ∧
      domKind z d = 3) ∧
    (∃ (e : Entry) (s : State) (z : State), Takes s 0x33 e z ∧ domKind z (Fin.ofNat 16 (fld e.a0 3 0)) ≠ 3) :=
  ⟨⟨(cm 0), 0, (qs 0x30 (cm 0) rs), (qz 0x30 (cm 0) rs), takes_now (by decide), by decide, by decide⟩,
    ⟨(cm 0), 0, (qs 0x30 (cm 0) (regs [(.dom 1 0x00, 1)] rs)), (qz 0x30 (cm 0) (regs [(.dom 1 0x00, 1)] rs)),
      takes_now (by decide), by decide, by decide, by decide⟩,
    ⟨(cm 0), 0, (qs 0x31 (cm 0) rs), (qz 0x31 (cm 0) rs), takes_now (by decide), by decide, by decide⟩,
    ⟨(cm 0x100), 0, _, _, (qs 0x31 (cm 0x100) rs), (qz 0x31 (cm 0x100) rs), takes_now (by decide), by decide, by
      decide, rfl, rfl⟩,
    ⟨(cm 0), 0, (qs 0x32 (cm 0) (dm (fun x => { x with st := .lost }) rs)), (qz 0x32 (cm 0) (dm (fun x =>
      { x with st := .lost }) rs)), takes_now (by decide), by decide, by decide⟩,
    ⟨(cm 0), 0, (qs 0x32 (cm 0) rs), (qz 0x32 (cm 0) rs), takes_now (by decide), by decide, by decide⟩,
    ⟨0, rs, by decide, by decide⟩,
    ⟨0, (regs [(.dom 0 0x00, 1)] rs), by decide⟩,
    ⟨(cm 0), 0, (qs 0x33 (cm 0) (regs [(.dom 0 0x01, 0xC0)] rs)), (qz 0x33 (cm 0) (regs [(.dom 0 0x01, 0xC0)] rs)),
      takes_now (by decide), by decide, by decide⟩,
    ⟨(cm 0), (qs 0x33 (cm 0) (rs)), (qz 0x33 (cm 0) (rs)), takes_now (by decide), by decide⟩⟩

/-- A state and operands for each clause of `WindowCommandsComplete`. -/
theorem witness_WindowCommandsComplete :
    (∃ (e : Entry) (buf : Buf) (x : State) (s : State) (z : State), Takes s 0x40 e z ∧ x = (windowCheck e buf z).2) ∧
    (∃ (e : Entry) (buf : Buf) (x : State) (s : State) (z : State), Takes s 0x41 e z ∧ x = (windowCheck e buf z).2) ∧
    (∃ (e : Entry) (b : Fin 32) (s : State) (z : State), Takes s 0x42 e z ∧ b = (Fin.ofNat 32 (fld e.a0 4 0)) ∧
      blockHeld z b = true) ∧
    (∃ (e : Entry) (b : Fin 32) (s : State) (z : State), Takes s 0x42 e z ∧ b = (Fin.ofNat 32 (fld e.a0 4 0)) ∧
      blockHeld z b = false) :=
  ⟨⟨(cm 1), (.data []), ((windowCheck (cm 1) (.data []) (qz 0x40 (cm 1) (rs))).2), (qs 0x40 (cm 1) (rs)), (qz 0x40
      (cm 1) (rs)), takes_now (by decide), rfl⟩,
    ⟨(cm 1), (.data []), ((windowCheck (cm 1) (.data []) (qz 0x41 (cm 1) (rs))).2), (qs 0x41 (cm 1) (rs)), (qz 0x41
      (cm 1) (rs)), takes_now (by decide), rfl⟩,
    ⟨(cm 0), 0, (qs 0x42 (cm 0) (held (.block 0) false rs)), (qz 0x42 (cm 0) (held (.block 0) false rs)), takes_now
      (by decide), by decide, by decide⟩,
    ⟨(cm 0), 0, (qs 0x42 (cm 0) rs), (qz 0x42 (cm 0) rs), takes_now (by decide), by decide, by decide⟩⟩

/-- A state and operands for each clause of `EngineCommandsComplete`. -/
theorem witness_EngineCommandsComplete :
    (∃ (e : Entry) (s : State) (z : State), Takes s 0x50 e z ∧ 64 < fld e.a1 5 0 + fld e.a2 6 0) ∧
    (∃ (e : Entry) (buf : Buf) (bs : List Byte) (x : State) (s : State) (z : State), Takes s 0x50 e z ∧ fld e.a1 5 0
      + fld e.a2 6 0 ≤ 64 ∧ readBuffer z e 3 (2 * fld e.a2 6 0) buf = (some bs, x)) ∧
    (∃ (e : Entry) (buf : Buf) (x : State) (s : State) (z : State), Takes s 0x50 e z ∧ fld e.a1 5 0 + fld e.a2 6 0 ≤
      64 ∧ readBuffer z e 3 (2 * fld e.a2 6 0) buf = (none, x)) ∧
    (∃ (e : Entry) (p : Fin 32) (s : State) (z : State), Takes s 0x51 e z ∧ p = (Fin.ofNat 32 (fld e.a0 4 0)) ∧
      z.pes[p].inj.isSome = true) ∧
    (∃ (e : Entry) (p : Fin 32) (s : State) (z : State), Takes s 0x51 e z ∧ p = (Fin.ofNat 32 (fld e.a0 4 0)) ∧
      z.pes[p].inj = none) ∧
    (∃ (e : Entry) (s : State) (z : State), Takes s 0x52 e z ∧ peEn z (Fin.ofNat 32 (fld e.a0 4 0)) = true) ∧
    (∃ (e : Entry) (buf : Buf) (bs : List Byte) (x : State) (s : State) (z : State), Takes s 0x52 e z ∧ peEn z
      (Fin.ofNat 32 (fld e.a0 4 0)) = false ∧ readBuffer z e 1 256 buf = (some bs, x)) ∧
    (∃ (e : Entry) (buf : Buf) (x : State) (s : State) (z : State), Takes s 0x52 e z ∧ peEn z (Fin.ofNat 32 (fld
      e.a0 4 0)) = false ∧ readBuffer z e 1 256 buf = (none, x)) :=
  ⟨⟨(cm 0 63 2), (qs 0x50 (cm 0 63 2) (rs)), (qz 0x50 (cm 0 63 2) (rs)), takes_now (by decide), by decide⟩,
    ⟨(cm 0 63 1), (.data [1]), ([1, 0]), ((readBuffer (qz 0x50 (cm 0 63 1) (rs)) (cm 0 63 1) 3 (2 * fld ((cm 0 63
      1)).a2 6 0) (.data [1])).2), (qs 0x50 (cm 0 63 1) (rs)), (qz 0x50 (cm 0 63 1) (rs)), takes_now (by decide), by
      decide, pairs (by decide)⟩,
    ⟨(cm 0 63 1), (.fail 1), ((readBuffer (qz 0x50 (cm 0 63 1) (rs)) (cm 0 63 1) 3 (2 * fld ((cm 0 63 1)).a2 6 0)
      (.fail 1)).2), (qs 0x50 (cm 0 63 1) (rs)), (qz 0x50 (cm 0 63 1) (rs)), takes_now (by decide), by decide, pairs
      (by decide)⟩,
    ⟨(cm 0), 0, (qs 0x51 (cm 0) (updPe rs 0 (fun x => { x with inj := some 0 }))), (qz 0x51 (cm 0) (updPe rs 0 (fun
      x => { x with inj := some 0 }))), takes_now (by decide), by decide, by decide⟩,
    ⟨(cm 0), 0, (qs 0x51 (cm 0) rs), (qz 0x51 (cm 0) rs), takes_now (by decide), by decide, by decide⟩,
    ⟨(cm 0), (qs 0x52 (cm 0) (regs [(.pewter 0 0x00, 1)] rs)), (qz 0x52 (cm 0) (regs [(.pewter 0 0x00, 1)] rs)),
      takes_now (by decide), by decide⟩,
    ⟨(cm 0), (.data []), (List.replicate 256 0), ((readBuffer (qz 0x52 (cm 0) (rs)) (cm 0) 1 256 (.data [])).2), (qs
      0x52 (cm 0) (rs)), (qz 0x52 (cm 0) (rs)), takes_now (by decide), by decide, pairs (by decide)⟩,
    ⟨(cm 0), (.fail 1), ((readBuffer (qz 0x52 (cm 0) (rs)) (cm 0) 1 256 (.fail 1)).2), (qs 0x52 (cm 0) (rs)), (qz
      0x52 (cm 0) (rs)), takes_now (by decide), by decide, pairs (by decide)⟩⟩

/-- A state and operands for each clause of `FaultCommandsComplete`. -/
theorem witness_FaultCommandsComplete :
    (∃ (e : Entry) (s : State) (z : State), Takes s 0x60 e z ∧ faultFound z e = none) ∧
    (∃ (e : Entry) (bs : List Byte) (s : State) (z : State), Takes s 0x60 e z ∧ faultFound z e = some bs) ∧
    (∃ (e : Entry) (s : State) (z : State), Takes s 0x61 e z ∧ bit e.a0 23 = false ∧ z.flt.slots[(Fin.ofNat 64 (fld
      e.a0 5 0) : Fin 64)] = none) ∧
    (∃ (e : Entry) (k : Fin 64) (f : OpenFault) (s : State) (z : State), Takes s 0x61 e z ∧ k = Fin.ofNat 64 (fld
      e.a0 5 0) ∧ bit e.a0 23 = false ∧ z.flt.slots[k] = some f ∧ f.acked = none ∧ f.closed = none) ∧
    (∃ (e : Entry) (k : Fin 64) (f : OpenFault) (s : State) (z : State), Takes s 0x61 e z ∧ k = Fin.ofNat 64 (fld
      e.a0 5 0) ∧ bit e.a0 23 = false ∧ z.flt.slots[k] = some f ∧ f.acked.isSome = true) ∧
    (∃ (e : Entry) (s : State) (z : State), Takes s 0x62 e z ∧ scopeArg e = none) ∧
    (∃ (e : Entry) (x : Scope) (s : State) (z : State), Takes s 0x62 e z ∧ scopeArg e = some x ∧ isLatched z x =
      false) ∧
    (∃ (e : Entry) (x : Scope) (s : State) (z : State), Takes s 0x62 e z ∧ scopeArg e = some x ∧ isLatched z x =
      true ∧ (openWithin z x || faultNow z x || activeCond z x) = true) ∧
    (∃ (e : Entry) (x : Scope) (s : State) (z : State), Takes s 0x62 e z ∧ scopeArg e = some x ∧ isLatched z x =
      true ∧ (openWithin z x || faultNow z x || activeCond z x) = false) ∧
    (∃ (e : Entry) (s : State) (z : State), Takes s 0x63 e z ∧ pinHeld z = true) ∧
    (∃ (e : Entry) (s : State) (z : State), Takes s 0x63 e z ∧ pinHeld z = false) :=
  ⟨⟨(cm 0), (qs 0x60 (cm 0) (rs)), (qz 0x60 (cm 0) (rs)), takes_now (by decide), by decide⟩,
    ⟨(cm 0), ((faultFound (qz 0x60 (cm 0) (slot f0 rs)) (cm 0)).getD []), (qs 0x60 (cm 0) (slot f0 rs)), (qz 0x60
      (cm 0) (slot f0 rs)), takes_now (by decide), someD (by decide)⟩,
    ⟨(cm 0), (qs 0x61 (cm 0) (rs)), (qz 0x61 (cm 0) (rs)), takes_now (by decide), by decide, by decide⟩,
    ⟨(cm 0), 0, f0, (qs 0x61 (cm 0) (slot f0 rs)), (qz 0x61 (cm 0) (slot f0 rs)), takes_now (by decide), by decide,
      by decide, by decide, by decide, by decide⟩,
    ⟨(cm 0), 0, ({ f0 with acked := some 0 }), (qs 0x61 (cm 0) (slot { f0 with acked := some 0 } rs)), (qz 0x61 (cm
      0) (slot { f0 with acked := some 0 } rs)), takes_now (by decide), by decide, by decide, by decide, by decide⟩,
    ⟨(cm 0), (qs 0x62 (cm 0) (rs)), (qz 0x62 (cm 0) (rs)), takes_now (by decide), by decide⟩,
    ⟨(cm 0x800000), .chip, (qs 0x62 (cm 0x800000) (rs)), (qz 0x62 (cm 0x800000) (rs)), takes_now (by decide), by
      decide, by decide⟩,
    ⟨(cm 0x800000), .chip, (qs 0x62 (cm 0x800000) (slot f0 (held .chip true rs))), (qz 0x62 (cm 0x800000) (slot f0
      (held .chip true rs))), takes_now (by decide), by decide, by decide, by decide⟩,
    ⟨(cm 0x800000), .chip, (qs 0x62 (cm 0x800000) (held .chip true rs)), (qz 0x62 (cm 0x800000) (held .chip true
      rs)), takes_now (by decide), by decide, by decide, by decide⟩,
    ⟨(cm 0), (qs 0x63 (cm 0) (slot f0 rs)), (qz 0x63 (cm 0) (slot f0 rs)), takes_now (by decide), by decide⟩,
    ⟨(cm 0), (qs 0x63 (cm 0) (rs)), (qz 0x63 (cm 0) (rs)), takes_now (by decide), by decide⟩⟩

/-- A state and operands for each clause of `LifetimeCommandsComplete`. -/
theorem witness_LifetimeCommandsComplete :
    (∃ (e : Entry) (s : State) (z : State), Takes s 0x70 e z ∧ (z.sys.mode = .configure ∨ z.sys.mode = .service)) ∧
    (∃ (e : Entry) (s : State) (z : State), Takes s 0x70 e z ∧ (¬(z.sys.mode = .configure ∨ z.sys.mode = .service))) ∧
    (∃ (e : Entry) (s : State) (z : State), Takes s 0x71 e z ∧ 6 ≤ fld e.a1 11 9) ∧
    (∃ (e : Entry) (k : Fin 256) (s : State) (z : State), Takes s 0x71 e z ∧ k = Fin.ofNat 256 (fld e.a0 7 0) ∧ fld
      e.a1 11 9 < 6 ∧ fld e.a1 11 9 ≠ 0 ∧ fld (lateView z).life.binds[k] 11 9 ≠ 0) ∧
    (∃ (e : Entry) (k : Fin 256) (s : State) (z : State), Takes s 0x71 e z ∧ k = Fin.ofNat 256 (fld e.a0 7 0) ∧ fld
      e.a1 11 9 < 6 ∧ (fld e.a1 11 9 = 0 ∨ fld (lateView z).life.binds[k] 11 9 = 0)) ∧
    (∃ (e : Entry) (s : State) (z : State), Takes s 0x72 e z) ∧
    (∃ (e : Entry) (s : State) (z : State), Takes s 0x73 e z ∧ z.sys.mode ≠ .service) ∧
    (∃ (e : Entry) (s : State) (z : State), Takes s 0x73 e z ∧ z.sys.mode = .service ∧ e.a3.toNat < 51968) ∧
    (∃ (e : Entry) (s : State) (z : State), Takes s 0x73 e z ∧ z.sys.mode = .service ∧ 51968 ≤ e.a3.toNat) ∧
    (∃ (e : Entry) (s : State), s.agenda.jobs = [(s.time.tick, .exportTo e)]) :=
  ⟨⟨(cm 0), (qs 0x70 (cm 0) (rs)), (qz 0x70 (cm 0) (rs)), takes_now (by decide), by decide⟩,
    ⟨(cm 0), (qs 0x70 (cm 0) (md .run rs)), (qz 0x70 (cm 0) (md .run rs)), takes_now (by decide), by decide⟩,
    ⟨(cm 0 0xC00), (qs 0x71 (cm 0 0xC00) (rs)), (qz 0x71 (cm 0 0xC00) (rs)), takes_now (by decide), by decide⟩,
    ⟨(cm 0 0x200), 0, (qs 0x71 (cm 0 0x200)
      ({ rs with life := { rs.life with binds := rs.life.binds.set 0 0x200 } })), (qz 0x71 (cm 0 0x200)
      ({ rs with life := { rs.life with binds := rs.life.binds.set 0 0x200 } })), takes_now (by decide), by decide, by
      decide, by decide, by decide⟩,
    ⟨(cm 0xFF 0xA00), 255, (qs 0x71 (cm 0xFF 0xA00) rs), (qz 0x71 (cm 0xFF 0xA00) rs), takes_now (by decide), by
      decide, by decide, by decide⟩,
    ⟨(cm 0), (qs 0x72 (cm 0) (rs)), (qz 0x72 (cm 0) (rs)), takes_now (by decide)⟩,
    ⟨(cm 0), (qs 0x73 (cm 0) (rs)), (qz 0x73 (cm 0) (rs)), takes_now (by decide), by decide⟩,
    ⟨(cm 0), (qs 0x73 (cm 0) (md .service rs)), (qz 0x73 (cm 0) (md .service rs)), takes_now (by decide), by decide,
      by decide⟩,
    ⟨(cm 0 0 0 51968), (qs 0x73 (cm 0 0 0 51968) (md .service rs)), (qz 0x73 (cm 0 0 0 51968) (md .service rs)),
      takes_now (by decide), by decide, by decide⟩,
    ⟨(cm 0), ({ rs with agenda := { rs.agenda with jobs := [(0, .exportTo (cm 0))] } }), by decide⟩⟩

/-- A state and operands for each clause of `ModeCommandsComplete`. -/
theorem witness_ModeCommandsComplete :
    (∃ (e : Entry) (y : State) (t : Status) (b : Word) (s : State) (z : State), Takes s 0x80 e z ∧ fld e.a0 3 0 = 3
      ∧ requestRun z = (y, t, b)) ∧
    (∃ (e : Entry) (s : State) (z : State), Takes s 0x80 e z ∧ fld e.a0 3 0 = 3 ∧ z.sys.mode = .configure ∧ runCheck
      z = none) ∧
    (∃ (e : Entry) (s : State) (z : State), Takes s 0x80 e z ∧ fld e.a0 3 0 = 2 ∧ z.sys.mode = .configure) ∧
    (∃ (e : Entry) (s : State) (z : State), Takes s 0x80 e z ∧ fld e.a0 3 0 = 2 ∧ (z.sys.mode = .run ∨ z.sys.mode =
      .degraded ∨ z.sys.mode = .safeHold)) ∧
    (∃ (e : Entry) (s : State) (z : State), Takes s 0x80 e z ∧ fld e.a0 3 0 = 7 ∧ z.sys.mode = .service) ∧
    (∃ (e : Entry) (s : State) (z : State), Takes s 0x80 e z ∧ fld e.a0 3 0 = 7 ∧ z.sys.mode = .configure) ∧
    (∃ (e : Entry) (s : State) (z : State), Takes s 0x80 e z ∧ fld e.a0 3 0 = 7 ∧ (z.sys.mode = .run ∨ z.sys.mode =
      .degraded ∨ z.sys.mode = .safeHold)) :=
  ⟨⟨(cm 3), (((requestRun (qz 0x80 (cm 3) (rs)))).1), (((requestRun (qz 0x80 (cm 3) (rs)))).2.1), (((requestRun (qz
      0x80 (cm 3) (rs)))).2.2), (qs 0x80 (cm 3) (rs)), (qz 0x80 (cm 3) (rs)), takes_now (by decide), by decide, rfl⟩,
    ⟨(cm 3), (qs 0x80 (cm 3) (rs)), (qz 0x80 (cm 3) (rs)), takes_now (by decide), by decide, by decide, by decide⟩,
    ⟨(cm 2), (qs 0x80 (cm 2) (rs)), (qz 0x80 (cm 2) (rs)), takes_now (by decide), by decide, by decide⟩,
    ⟨(cm 2), (qs 0x80 (cm 2) (md .safeHold rs)), (qz 0x80 (cm 2) (md .safeHold rs)), takes_now (by decide), by
      decide, by decide⟩,
    ⟨(cm 7), (qs 0x80 (cm 7) (md .service rs)), (qz 0x80 (cm 7) (md .service rs)), takes_now (by decide), by decide,
      by decide⟩,
    ⟨(cm 7), (qs 0x80 (cm 7) (rs)), (qz 0x80 (cm 7) (rs)), takes_now (by decide), by decide, by decide⟩,
    ⟨(cm 7), (qs 0x80 (cm 7) (md .degraded rs)), (qz 0x80 (cm 7) (md .degraded rs)), takes_now (by decide), by
      decide, by decide⟩⟩

/-- A state and operands for each clause of `FirmwareCommandsComplete`. -/
theorem witness_FirmwareCommandsComplete :
    (∃ (e : Entry) (s : State) (z : State), Takes s 0x81 e z ∧ z.sys.mode ≠ .service) ∧
    (∃ (e : Entry) (buf : Buf) (bs : List Byte) (x : State) (s : State) (z : State), Takes s 0x81 e z ∧ z.sys.mode =
      .service ∧ e.a4.toNat = 260 ∧ readBuffer z e 1 260 buf = (some bs, x)) ∧
    (∃ (e : Entry) (s : State) (z : State), Takes s 0x90 e z ∧ z.sys.mode ≠ .service) ∧
    (∃ (e : Entry) (buf : Buf) (bs : List Byte) (x : State) (s : State) (z : State), Takes s 0x90 e z ∧ z.sys.mode =
      .service ∧ 1 ≤ e.a1.toNat ∧ e.a1.toNat ≤ 65536 ∧ readBuffer z e 2 e.a1.toNat buf = (some bs, x)) ∧
    (∃ (e : Entry) (s : State) (z : State), Takes s 0x91 e z ∧ z.sys.mode = .service ∧ z.sec.stage ≠ .none) ∧
    (∃ (e : Entry) (s : State) (z : State), Takes s 0x91 e z ∧ z.sys.mode = .service ∧ z.sec.stage = .none) ∧
    (∃ (e : Entry) (s : State) (z : State), Takes s 0x91 e z ∧ z.sys.mode ≠ .service) ∧
    (∃ (e : Entry) (s : State) (z : State), Takes s 0x92 e z ∧ z.sys.mode ≠ .service) ∧
    (∃ (e : Entry) (s : State) (z : State), Takes s 0x92 e z ∧ z.sys.mode = .service ∧ z.sec.stage ≠ .verified) ∧
    (∃ (e : Entry) (s : State) (z : State), Takes s 0x92 e z ∧ z.sys.mode = .service ∧ z.sec.stage = .verified) ∧
    (∃ (e : Entry) (s : State) (z : State), Takes s 0x93 e z ∧ z.sys.mode ≠ .service) ∧
    (∃ (e : Entry) (s : State) (z : State), Takes s 0x93 e z ∧ z.sys.mode = .service) :=
  ⟨⟨(cm 0), (qs 0x81 (cm 0) (rs)), (qz 0x81 (cm 0) (rs)), takes_now (by decide), by decide⟩,
    ⟨(cm 0 0 0 0 260), (.data []), (List.replicate 260 0), ((readBuffer (qz 0x81 (cm 0 0 0 0 260) (md .service rs))
      (cm 0 0 0 0 260) 1 260 (.data [])).2), (qs 0x81 (cm 0 0 0 0 260) (md .service rs)), (qz 0x81 (cm 0 0 0 0 260)
      (md .service rs)), takes_now (by decide), by decide, by decide, pairs (by decide)⟩,
    ⟨(cm 0), (qs 0x90 (cm 0) (rs)), (qz 0x90 (cm 0) (rs)), takes_now (by decide), by decide⟩,
    ⟨(cm 0 1), (.data [5]), ([5]), ((readBuffer (qz 0x90 (cm 0 1) (md .service rs)) (cm 0 1) 2 ((cm 0 1)).a1.toNat
      (.data [5])).2), (qs 0x90 (cm 0 1) (md .service rs)), (qz 0x90 (cm 0 1) (md .service rs)), takes_now (by
      decide), by decide, by decide, by decide, pairs (by decide)⟩,
    ⟨(cm 0), (qs 0x91 (cm 0) (staged .written rs)), (qz 0x91 (cm 0) (staged .written rs)), takes_now (by decide), by
      decide, by decide⟩,
    ⟨(cm 0), (qs 0x91 (cm 0) (staged .none rs)), (qz 0x91 (cm 0) (staged .none rs)), takes_now (by decide), by
      decide, by decide⟩,
    ⟨(cm 0), (qs 0x91 (cm 0) (rs)), (qz 0x91 (cm 0) (rs)), takes_now (by decide), by decide⟩,
    ⟨(cm 0), (qs 0x92 (cm 0) (rs)), (qz 0x92 (cm 0) (rs)), takes_now (by decide), by decide⟩,
    ⟨(cm 0), (qs 0x92 (cm 0) (staged .written rs)), (qz 0x92 (cm 0) (staged .written rs)), takes_now (by decide), by
      decide, by decide⟩,
    ⟨(cm 0), (qs 0x92 (cm 0) (staged .verified rs)), (qz 0x92 (cm 0) (staged .verified rs)), takes_now (by decide),
      by decide, by decide⟩,
    ⟨(cm 0), (qs 0x93 (cm 0) (rs)), (qz 0x93 (cm 0) (rs)), takes_now (by decide), by decide⟩,
    ⟨(cm 0), (qs 0x93 (cm 0) (md .service rs)), (qz 0x93 (cm 0) (md .service rs)), takes_now (by decide), by decide⟩⟩

/-- A state and operands for each clause of `RingRowsComplete`. -/
theorem witness_RingRowsComplete :
    (∃ (e : Entry) (s : State), supOn s = true ∧ canFetch s e.ring = true ∧ sqInRing s e.ring = false) ∧
    (∃ (r : Fin 16) (s : State), supOn s = true ∧ canFetch s r = true ∧ sqInRing s r = false) ∧
    (∃ (r : Fin 16) (tail : BitVec 16) (s : State), hostUp s = true ∧ s.sys.mode ≠ .boot ∧ bit (sqCfg s r) 31 = true
      ∧ (tail - s.host.subs[r].done).toNat ≤ depthOf (sqCfg s r) ∧ (s.host.subs[r].tail - s.host.subs[r].done).toNat ≤
      (tail - s.host.subs[r].done).toNat) ∧
    (∃ (r : Fin 16) (head : BitVec 32) (s : State), hostUp s = true ∧ s.sys.mode ≠ .boot ∧ eqOn s r = true ∧ (head -
      s.host.evts[r].head).toNat ≤ (s.host.evts[r].tail - s.host.evts[r].head).toNat ∧ s.host.evts[r].sumBit = none) ∧
    (∃ (r : Fin 16) (v : Word32) (s : State), hostUp s = true ∧ s.sys.mode ≠ .boot ∧ bit v 31 = true ∧ bit (sqCfg s
      r) 31 = false ∧ placeBad s (v &&& 0xFFF00000) (sqBase s r) 32 = false) ∧
    (∃ (r : Fin 16) (v : Word32) (s : State), hostUp s = true ∧ s.sys.mode ≠ .boot ∧ bit v 31 = true ∧ bit (eqCfg s
      r) 31 = false ∧ placeBad s v (eqBase s r) 16 = false) :=
  ⟨⟨(cm 0), (ringed 0x80500000 (fun x => { x with tail := 1 }) rs), by decide, by decide, by decide⟩,
    ⟨0, (ringed 0x80500000 (fun x => { x with tail := 1 }) rs), by decide, by decide, by decide⟩,
    ⟨0, 32, (ringed 0x80500000 id rs), by decide, by decide, by decide, by decide, by decide⟩,
    ⟨0, 0, (setHreg rs (eqReg 0 0x08) 0x80500000), by decide, by decide, by decide, by decide, by decide⟩,
    ⟨0, 0x80500000, rs, by decide, by decide, by decide, by decide, by decide⟩,
    ⟨15, 0x80500000, rs, by decide, by decide, by decide, by decide, by decide⟩⟩

/-- A state and operands for each clause of `HostRegisterRowsComplete`. -/
theorem witness_HostRegisterRowsComplete :
    (∃ (s : State), hostUp s = true ∧ s.sys.mode ≠ .boot) ∧
    (∃ (n : Nat) (s : State), hostUp s = true ∧ s.sys.mode ≠ .boot ∧ n ≠ 4) ∧
    (∃ (s : State), hostUp s = true ∧ s.sys.mode ≠ .boot ∧ hostKept s 0x07C = []) ∧
    (∃ (x : Fresh) (l : List Fresh) (s : State), hostUp s = true ∧ s.sys.mode ≠ .boot ∧ hostKept s 0x07C = x :: l) ∧
    (∃ (s : State), hostUp s = true ∧ s.sys.mode = .boot) :=
  ⟨⟨rs, by decide, by decide⟩,
    ⟨3, rs, by decide, by decide, by decide⟩,
    ⟨rs, by decide, by decide, by decide⟩,
    ⟨⟨hostPa 0x07C, 0, 0, 0⟩, [], ({ rs with par := { rs.par with fresh := [⟨hostPa 0x07C, 0, 0, 0⟩] } }), by
      decide, by decide, by decide⟩,
    ⟨(md .boot rs), by decide, by decide⟩⟩

/-- A state and operands for each clause of `BusRowsComplete`. -/
theorem witness_BusRowsComplete :
    (∃ (a : Word) (s : State), hostUp s = true ∧ overSpi s = true ∧ a.toNat < 0x1000 ∧ a.toNat % 4 = 0) ∧
    (∃ (a : Word) (bs : List Byte) (s : State), hostUp s = true ∧ overSpi s = true ∧ 0x200000 ≤ a.toNat ∧ a.toNat +
      bs.length ≤ 0x400000 ∧ bs ≠ []) ∧
    (∃ (a : Word) (n : Nat) (s : State), hostUp s = true ∧ overSpi s = true ∧ 0x200000 ≤ a.toNat ∧ a.toNat + n ≤
      0x400000 ∧ 1 ≤ n) ∧
    (∃ (s : State), hostUp s = true ∧ overSpi s = true) ∧
    (∃ (off : BitVec 21) (bs : List Byte) (s : State), hostUp s = true ∧ overSpi s = false ∧ 0x10000 ≤ off.toNat ∧
      bs ≠ []) ∧
    (∃ (off : BitVec 21) (bs : List Byte) (s : State), hostUp s = true ∧ overSpi s = false ∧ off.toNat < 0x10000 ∧
      bs ≠ []) :=
  ⟨⟨0xFFC, (spi rs), by decide, by decide, by decide, by decide⟩,
    ⟨0x210000, ([1]), (spi rs), by decide, by decide, by decide, by decide, by decide⟩,
    ⟨0x3FFFFF, 1, (spi rs), by decide, by decide, by decide, by decide, by decide⟩,
    ⟨(spi rs), by decide, by decide⟩,
    ⟨0x10000, ([1]), rs, by decide, by decide, by decide, by decide⟩,
    ⟨0xFFFF, ([1]), rs, by decide, by decide, by decide, by decide⟩⟩

/-- A state and operands for each clause of `HostEventRowsComplete`. -/
theorem witness_HostEventRowsComplete :
    (∃ (z : State) (s : State), hostUp s = true ∧ overSpi s = false ∧ z = closeSession ((List.finRange 16).foldl
      (fun y r => writeEqCfg (writeSqCfg y r (sqCfg y r &&& 0x7FFFFFFF)) r (eqCfg y r &&& 0x7FFFFFFF)) s)) ∧
    (∃ (p : Placed) (l : List Placed) (s : State), postingOn s = true ∧ s.host.arb = p :: l) ∧
    (∃ (r : Fin 16) (t : Nat) (s : State), s.host.evts[r].oldest = some t ∧ postingOn s = true ∧ eqOn s r = true ∧
      bit (eqCfg s r) 24 = true ∧ fld (eqCfg s r) 11 0 ≠ 0 ∧ s.host.evts[r].tail ≠ s.host.evts[r].irqTail ∧ t + 800 *
      fld (eqCfg s r) 11 0 ≤ s.time.tick) ∧
    (∃ (s : State), supOn s = true) ∧
    (∃ (s : State), alive s = true ∧ s.sys.mode ≠ .powerFail ∧ s.sys.mode ≠ .halt ∧ s.host.sessionOpen = true ∧
      s.host.watchdogMs.toNat ≠ 0 ∧ s.host.watchdogFrom + s.host.watchdogMs.toNat * msTicks s ≤ s.time.tick) ∧
    (∃ (s : State), alive s = true ∧ s.sys.mode ≠ .powerFail ∧ s.sup.halted = false ∧ s.sup.out = none) ∧
    (∃ (t : Nat) (c : SupCause) (s : State), s.sup.out = some (t, c) ∧ alive s = true ∧ s.sys.mode ≠ .powerFail ∧
      bit s.host.hostCtrl 4 = false) ∧
    (∃ (s : State), alive s = true ∧ s.sys.mode ≠ .powerFail ∧ s.sup.out.isSome = true ∧ s.sup.restart + 32000 <
      s.time.tick) ∧
    (∃ (s : State), hostUp s = true ∧ overSpi s = false) :=
  ⟨⟨_, rs, by decide, by decide, rfl⟩,
    ⟨pl0, ([]), (ho (fun h => { h with arb := [pl0] }) rs), by decide, rfl⟩,
    ⟨0, 0, (tk 800 (updEvt (setHreg rs (eqReg 0 0x08) 0x81500001) 0 (fun x =>
      { x with oldest := some 0, tail := 1 }))), by decide, by decide, by decide, by decide, by decide, by decide, by
      decide⟩,
    ⟨rs, by decide⟩,
    ⟨(tk 800000 (ho (fun h => { h with sessionOpen := true, watchdogMs := 1 }) rs)), by decide, by decide, by
      decide, by decide, by decide, by decide⟩,
    ⟨rs, by decide, by decide, by decide, by decide⟩,
    ⟨0, .divergence, ({ rs with sup := { rs.sup with out := some (0, .divergence) } }), by decide, by decide, by
      decide, by decide⟩,
    ⟨(tk 32001 { rs with sup := { rs.sup with out := some (0, .divergence) } }), by decide, by decide, by decide, by
      decide⟩,
    ⟨rs, by decide, by decide⟩⟩

/-- A state and operands for each clause of `ClockRowsComplete`. -/
theorem witness_ClockRowsComplete :
    (∃ (req : Requester) (v : Word) (s : State), Accepts s req (.chip 0x27) v) ∧
    (∃ (req : Requester) (s : State), reaches s req (.chip 0x24) = true ∧ capOf s req (.chip 0x24) = none) ∧
    (∃ (req : Requester) (v : Word) (s : State), Accepts s req (.chip 0x50) (v ||| 1)) ∧
    (∃ (req : Requester) (v : Word) (s : State), Accepts s req (.chip 0x21) (v ||| 1)) ∧
    (∃ (v : Word) (z : State), z.time.clk.standbyLock = false ∧ bit v 1 = true) ∧
    (∃ (v : Word) (z : State), z.time.clk.standbyLock = true ∧ bit v 1 = true) ∧
    (∃ (s : State), alive s = true ∧ s.time.clk.activeLock = true) ∧
    (∃ (s : State), alive s = true ∧ s.time.clk.standbyLock = false ∧ s.time.clk.refOk = true ∧ standbyEn s = true) ∧
    (∃ (s : State), alive s = true ∧ s.time.clk.standbyLock = true) ∧
    (∃ (s : State), alive s = true ∧ s.time.clk.refOk = true) ∧
    (∃ (s : State), alive s = true ∧ s.time.clk.refOk = false) ∧
    (∃ (s : State), s.sys.mode ≠ .retention ∧ s.time.clk.coreLost = false) :=
  ⟨⟨.host, 1, rs, accepts_now (by decide)⟩,
    ⟨.host, rs, by decide, by decide⟩,
    ⟨.host, 0, rs, accepts_now (by decide)⟩,
    ⟨.host, 0, rs, accepts_now (by decide)⟩,
    ⟨2, (ck (fun c => { c with standbyLock := false }) rs), by decide, by decide⟩,
    ⟨2, (ck (fun c => { c with standbyLock := true }) rs), by decide, by decide⟩,
    ⟨rs, by decide, by decide⟩,
    ⟨(ck (fun c => { c with standbyLock := false }) rs), by decide, by decide, by decide, by decide⟩,
    ⟨(ck (fun c => { c with standbyLock := true }) rs), by decide, by decide⟩,
    ⟨rs, by decide, by decide⟩,
    ⟨(ck (fun c => { c with refOk := false }) rs), by decide, by decide⟩,
    ⟨rs, by decide, by decide⟩⟩

/-- A state and operands for each clause of `CellRowsComplete`. -/
theorem witness_CellRowsComplete :
    (∃ (b : Ball) (l : Bool) (t : T16) (n : Fin 512) (s : State), clockOn s = true ∧ ballIn s b ≠ l ∧ due s
      (tickPart t) = true ∧ inputOf s b = some n ∧ cellsOn s = true) ∧
    (∃ (b : Ball) (l : Bool) (t : T16) (s : State), clockOn s = true ∧ ballIn s b ≠ l ∧ due s (tickPart t) = true ∧
      inputOf s b = none) ∧
    (∃ (b : Ball) (l : Bool) (t : T16) (n : Fin 512) (s : State), clockOn s = true ∧ ballIn s b ≠ l ∧ due s
      (tickPart t) = true ∧ inputOf s b = some n ∧ alive s = true ∧ cellsOn s = false) ∧
    (∃ (c : Fin 512) (rise : Bool) (t : T16) (x : XSrc) (s : State), capSrc s c = some x ∧ cellsOn s = true ∧ capOn
      s c = true ∧ due s (captureTick s x t) = true ∧ (if rise != regBit s (.cell c 0x0C) 11 then decide (regFld s
      (.cell c 0x0C) 10 9 = 1 ∨ regFld s (.cell c 0x0C) 10 9 = 3) else decide (regFld s (.cell c 0x0C) 10 9 = 2 ∨
      regFld s (.cell c 0x0C) 10 9 = 3)) = true ∧ regBit s (.cell c 0x09) 13 = false ∧ s.cells[c].fifo.length < 4) ∧
    (∃ (req : Requester) (c : Fin 512) (k : Capture) (l : List Capture) (s : State), reaches s req (.cell c 0x06) =
      true ∧ capOf s req (.cell c 0x06) = none ∧ s.cells[c].fifo = k :: l) ∧
    (∃ (req : Requester) (c : Fin 512) (v : Word) (s : State), Accepts s req (.cell c 0x01) (v ||| 1)) ∧
    (∃ (c : Fin 512) (v : Word) (z : State), cellEn z c = false ∧ bit v 0 = true ∧ fld v 9 8 = 0) ∧
    (∃ (req : Requester) (c : Fin 512) (v : Word) (s : State), Accepts s req (.cell c 0x01) (v &&& 0xFFFFFE)) ∧
    (∃ (c : Fin 512) (v : Word) (z : State), cellEn z c = true ∧ bit v 0 = false ∧ fld v 9 8 = 0) ∧
    (∃ (req : Requester) (c : Fin 512) (v : Word) (s : State), Accepts s req (.cell c 0x01) v) ∧
    (∃ (c : Fin 512) (v : Word) (z : State), cellEn z c = true ∧ bit v 0 = true) ∧
    (∃ (req : Requester) (c : Fin 512) (v : Word) (t : Time) (s : State), Accepts s req (.cell c 0x03) v ∧ cellHeld
      s c = false ∧ cellEn s c = true ∧ givesCompare s req c = true ∧ t = mkTime v (lowOf s req (.cell c 0x02)) ∧ -2 ≤
      (t - now s).toInt) ∧
    (∃ (req : Requester) (c : Fin 512) (v : Word) (s : State), Accepts s req (.cell c 0x05) v ∧ cellHeld s c = false
      ∧ cellEn s c = false) ∧
    (∃ (c : Fin 512) (u : CmpUnit) (t : Time) (z : State), cellEn z c = true ∧ compareDue z c u = false ∧ 3 ≤ (t -
      now z).toInt) ∧
    (∃ (c : Fin 512) (u : CmpUnit) (s : State), cellsOn s = true ∧ cellEn s c = true ∧ (cellMode s c = 1 ∨ cellMode
      s c = 7) ∧ (cmpOf s.cells[c] u).armed = true ∧ matchDue s (cmpOf s.cells[c] u).edge = true) ∧
    (∃ (c : Fin 512) (o : Occ) (s : State), cellsOn s = true ∧ cellEn s c = true ∧ cellMode s c = 6 ∧ nextStart
      s.cells[c].queue = some o ∧ matchDue s o.startAt = true) ∧
    (∃ (c : Fin 512) (o : Occ) (e : T16) (s : State), cellsOn s = true ∧ cellEn s c = true ∧ cellMode s c = 6 ∧
      nextEnd s.cells[c].queue = some o ∧ o.endAt = some e ∧ o.startOut = true ∧ matchDue s e = true) ∧
    (∃ (c : Fin 512) (ball : Bool) (l : Bool) (s : State), driven s c = some l ∧ cellsOn s = true ∧ readbackDue s c
      = true ∧ ball ≠ l ∧ s.cells[c].rbAt ≠ some (l, s.cells[c].drvAt)) ∧
    (∃ (c : Fin 512) (l : Bool) (s : State), driven s c = some l ∧ cellsOn s = true ∧ readbackDue s c = true) :=
  ⟨⟨(.tio 0), true, 0, 0, rs, by decide, by decide, by decide, by decide, by decide⟩,
    ⟨(.zio 0), true, 0, rs, by decide, by decide, by decide, by decide⟩,
    ⟨(.tio 0), true, 0, 0, (md .powerFail rs), by decide, by decide, by decide, by decide, by decide, by decide⟩,
    ⟨0, true, 0, (.tio 0), (tk 100 (regs [(.cell 0 0x00, 4), (.cell 0 0x01, 1), (.cell 0 0x0C, 0x600)] rs)), by
      decide, by decide, by decide, by decide, by decide, by decide, by decide⟩,
    ⟨.host, 0, (⟨0, true⟩), ([]), (ce (fun x => { x with fifo := [⟨0, true⟩] }) rs), by decide, by decide, by
      decide⟩,
    ⟨.host, 0, 0, rs, accepts_now (by decide)⟩,
    ⟨0, 1, rs, by decide, by decide, by decide⟩,
    ⟨.host, 0, 1, rs, accepts_now (by decide)⟩,
    ⟨0, 0, (regs [(.cell 0 0x01, 1)] rs), by decide, by decide, by decide⟩,
    ⟨.host, 0, 0x101, rs, accepts_now (by decide)⟩,
    ⟨0, 0x101, (regs [(.cell 0 0x01, 1)] rs), by decide, by decide⟩,
    ⟨.host, 0, 1, _, (regs [(.cell 0 0x00, 1), (.cell 0 0x01, 1)] rs), accepts_now (by decide), by decide, by
      decide, by decide, rfl, by decide⟩,
    ⟨.host, 511, 0, rs, accepts_now (by decide), by decide, by decide⟩,
    ⟨0, .a, 100, (regs [(.cell 0 0x01, 1)] rs), by decide, by decide, by decide⟩,
    ⟨0, .a, (ce (fun x => { x with cmpA := { x.cmpA with armed := true } }) (regs [(.cell 0 0x00, 7), (.cell 0 0x01,
      1)] rs)), by decide, by decide, by decide, by decide, by decide⟩,
    ⟨0, occ0, (ce (fun x => { x with queue := [occ0] }) (regs [(.cell 0 0x00, 6), (.cell 0 0x01, 1)] rs)), by
      decide, by decide, by decide, by decide, by decide⟩,
    ⟨0, occ1, 0, (ce (fun x => { x with queue := [occ1] }) (regs [(.cell 0 0x00, 6), (.cell 0 0x01, 1)] rs)), by
      decide, by decide, by decide, by decide, by decide, by decide, by decide⟩,
    ⟨0, true, false, (tk 10000 (ce (fun x => { x with drv := some false, drvAt := some 0 })
      { rs with sec := { rs.sec with jtag := .extest } })), by decide, by decide, by decide, by decide, by decide⟩,
    ⟨0, false, (tk 10000 (ce (fun x => { x with drv := some false, drvAt := some 0 })
      { rs with sec := { rs.sec with jtag := .extest } })), by decide, by decide, by decide⟩⟩

/-- A state and operands for each clause of `DomainRowsComplete`. -/
theorem witness_DomainRowsComplete :
    (∃ (k : Fin 16) (rise : Bool) (t : T16) (d : Fin 16) (s : State), domOfTrk s k = some d ∧ domsOn s = true ∧ due
      s (tickPart t) = true ∧ (if rise then decide (fld (trkCfg s d) 9 8 = 1 ∨ fld (trkCfg s d) 9 8 = 3) else decide
      (fld (trkCfg s d) 9 8 = 2 ∨ fld (trkCfg s d) 9 8 = 3)) = true) ∧
    (∃ (d : Fin 16) (e : Intake) (s : State), s.doms[d].intake = [] ∧ takeDue s d e = true) ∧
    (∃ (d : Fin 16) (e : Intake) (s : State), s.doms[d].intake = [] ∧ takeDue s d e = false) ∧
    (∃ (d : Fin 16) (t : Time) (s : State), (catchUp s d t).doms[d].st ≠ .lost ∧ isGapEdge (catchUp s d t) d t =
      false ∧ noisy (catchUp s d t) d t = false) ∧
    (∃ (d : Fin 16) (t : Time) (s : State), gapToothDue s d = none ∧ (∀ y, standDue s d = some y → before y t =
      false) ∧ (∀ m, missDue s d = some m → before m t = false)) ∧
    (∃ (d : Fin 16) (z : State) (m : Time) (s : State), z = flushIntake s d ∧ missDue z d = some m ∧ (∀ y, standDue
      z d = some y → after y m = true) ∧ domsOn s = true ∧ due s m = true) ∧
    (∃ (d : Fin 16) (m : Time) (s : State), s.doms[d].intake = [] ∧ missDue s d = some m ∧ (∀ y, standDue s d = some
      y → after y m = true) ∧ domsOn s = true ∧ takeDue s d (.miss m) = true ∧ due s m = true) ∧
    (∃ (d : Fin 16) (g : Time) (s : State), gapToothDue (flushIntake s d) d = some g ∧ domsOn s = true ∧ due s g =
      true) ∧
    (∃ (d : Fin 16) (g : Time) (s : State), s.doms[d].intake = [] ∧ gapToothDue s d = some g ∧ domsOn s = true ∧
      takeDue s d (.gap g) = true ∧ due s g = true) ∧
    (∃ (d : Fin 16) (y : Time) (s : State), standDue (flushIntake s d) d = some y ∧ domsOn s = true ∧ due s y =
      true) ∧
    (∃ (d : Fin 16) (y : Time) (s : State), s.doms[d].intake = [] ∧ standDue s d = some y ∧ domsOn s = true ∧ due s
      y = true) ∧
    (∃ (d : Fin 16) (t : Tooth) (l : List Tooth) (s : State), s.doms[d].flight = t :: l ∧ domsOn s = true ∧ due s
      t.upd = true ∧ t.kind ≠ .change) ∧
    (∃ (d : Fin 16) (t : Time) (s : State), s.doms[d].vgStop = some t ∧ domsOn s = true ∧ due s t = true ∧ counting
      s.doms[d].st = true) ∧
    (∃ (d : Fin 16) (t : Time) (z : State) (s : State), s.doms[d].vgNext = some t ∧ domsOn s = true ∧ due s t = true
      ∧ domEn s d = true ∧ domKind s d = 3 ∧ s.doms[d].vgStarted = true ∧ (reg s (.dom d 0x16)).toNat = 0 ∧ z =
      deliver s d ⟨.generated, t, plus t 3, absOf s (t - 5#48), word (s.doms[d].vgInterval / prescOf s d), none,
      false, false, false, none, none, none, none, false⟩ ∧ (work z (.dom d 0x14)).toNat ≠ 0) ∧
    (∃ (d : Fin 16) (t : Time) (s : State), s.doms[d].vgNext = some t ∧ domsOn s = true ∧ due s t = true ∧ domEn s d
      = true ∧ domKind s d = 3 ∧ s.doms[d].st ≠ .lost) ∧
    (∃ (req : Requester) (d : Fin 16) (v : Word) (s : State), Accepts s req (.dom d 0x00) v ∧ (bit v 0 = false ∨
      domEn (lateView s) d = true ∨ trkTaken (lateView s) d = false)) ∧
    (∃ (v : Word), bit v 0 = true ∧ bit v 1 = false) ∧
    (∃ (v : Word), bit v 0 = false) ∧
    (∃ (req : Requester) (d : Fin 16) (v : Word) (s : State), Accepts s req (.dom d 0x00) (v ||| 2) ∧ domEn
      (lateView s) d = true) ∧
    (∃ (d : Fin 16) (v : Word) (z : State), bit v 0 = true ∧ bit v 1 = true ∧ domEn z d = true) ∧
    (∃ (req : Requester) (d : Fin 16) (v : Word) (s : State), Accepts s req (.dom d 0x0D) (v ||| 0x1000) ∧ fld (v
      ||| 0x1000) 11 0 < teethOf s d) ∧
    (∃ (req : Requester) (d : Fin 16) (v : Word) (s : State), Accepts s req (.dom d 0x15) v) ∧
    (∃ (d : Fin 16) (v : Word) (z : State), bit v 0 = true ∧ regBit z (.dom d 0x15) 0 = false) ∧
    (∃ (d : Fin 16) (v : Word) (z : State), bit v 0 = false ∧ regBit z (.dom d 0x15) 0 = true) ∧
    (∃ (req : Requester) (d : Fin 16) (v : Word) (s : State), Accepts s req (.dom d 0x0B) v ∧ v ≠ 0) ∧
    (∃ (v : Word), v ≠ 0) ∧
    (∃ (req : Requester) (d : Fin 16) (s : State), reaches s req (.dom d 0x1A) = true ∧ capOf s req (.dom d 0x1A) =
      none) ∧
    (∃ (r : Fin 4) (n : Fin 64) (d : Fin 16) (s : State), d = Fin.ofNat 16 (fld (sqWord s r n 0) 19 16) ∧ adcOn s =
      true ∧ regBit s (.seqr r 0x0) 0 = true ∧ sqEn s r n = true ∧ fld (sqWord s r n 0) 22 20 = 1 ∧ armable s d = true
      ∧ s.seqs[r].target[n] = s.doms[d].leafCycle ∧ (sqWord s r n 1).toNat ≤ (leafAngle s d).toNat) :=
  ⟨⟨0, true, 0, 0, (tk 100 (setWork (regs [(.dom 0 0x00, 1), (.dom 0 0x05, 0x100)] rs) (.dom 0 0x05) 0x100)), by
      decide, by decide, by decide, by decide⟩,
    ⟨0, (.edge 0), (tk 1000 rs), by decide, by decide⟩,
    ⟨0, (.edge 1000), rs, by decide, by decide⟩,
    ⟨0, 0, (dm (fun x => { x with st := .syncing }) rs), by decide, by decide, by decide⟩,
    ⟨0, 0, rs, by decide, none_all (by decide), none_all (by decide)⟩,
    ⟨0, _, _, (tk 1000 (dm (fun x => { x with st := .synced, period := 10, gap := some ⟨0, 0, false⟩ }) (regs [(.dom
      0 0x01, 0x100)] rs))), rfl, someD (d := 0) (by decide), none_all (by decide), by decide, by decide⟩,
    ⟨0, _, (tk 1000 (dm (fun x => { x with st := .synced, period := 10, gap := some ⟨0, 0, false⟩ }) (regs [(.dom 0
      0x01, 0x100)] rs))), by decide, someD (d := 0) (by decide), none_all (by decide), by decide, by decide, by
      decide⟩,
    ⟨0, _, (tk 1000 (dm (fun x => { x with st := .synced, period := 10, gap := some ⟨0, 0, true⟩ }) (regs [(.dom 0
      0x03, 0x400)] rs))), someD (d := 0) (by decide), by decide, by decide⟩,
    ⟨0, _, (tk 1000 (dm (fun x => { x with st := .synced, period := 10, gap := some ⟨0, 0, true⟩ }) (regs [(.dom 0
      0x03, 0x400)] rs))), by decide, someD (d := 0) (by decide), by decide, by decide, by decide⟩,
    ⟨0, _, (tk 100000000000 (dm (fun x => { x with st := .synced, lastT := some 0 }) rs)), someD (d := 0) (by
      decide), by decide, by decide⟩,
    ⟨0, _, (tk 100000000000 (dm (fun x => { x with st := .synced, lastT := some 0 }) rs)), by decide, someD (d := 0)
      (by decide), by decide, by decide⟩,
    ⟨0, tooth0, ([]), (dm (fun x => { x with flight := [tooth0] }) rs), by decide, by decide, by decide, by decide⟩,
    ⟨0, 0, (dm (fun x => { x with st := .synced, vgStop := some 0 }) rs), by decide, by decide, by decide, by
      decide⟩,
    ⟨0, 0, _, (setWork (dm (fun x => { x with vgNext := some 0, vgStarted := true }) (regs [(.dom 0 0x00, 1), (.dom
      0 0x01, 0xC0), (.dom 0 0x14, 5)] rs)) (.dom 0 0x14) 5), by decide, by decide, by decide, by decide, by decide,
      by decide, by decide, rfl, by decide⟩,
    ⟨0, 0, (dm (fun x => { x with vgNext := some 0 }) (regs [(.dom 0 0x00, 1), (.dom 0 0x01, 0xC0)] rs)), by decide,
      by decide, by decide, by decide, by decide, by decide⟩,
    ⟨.host, 0, 1, rs, accepts_now (by decide), by decide⟩,
    ⟨1, by decide, by decide⟩,
    ⟨0, by decide⟩,
    ⟨.host, 0, 1, (regs [(.dom 0 0x00, 1)] rs), accepts_now (by decide), by decide⟩,
    ⟨0, 3, (regs [(.dom 0 0x00, 1)] rs), by decide, by decide, by decide⟩,
    ⟨.host, 0, 0, rs, accepts_now (by decide), by decide⟩,
    ⟨.host, 0, 1, rs, accepts_now (by decide)⟩,
    ⟨0, 1, rs, by decide, by decide⟩,
    ⟨0, 0, (regs [(.dom 0 0x15, 1)] rs), by decide, by decide⟩,
    ⟨.host, 0, 1, rs, accepts_now (by decide), by decide⟩,
    ⟨1, by decide⟩,
    ⟨.host, 0, rs, by decide, by decide⟩,
    ⟨0, 0, 0, (dm (fun x => { x with leafSt := .synced }) (regs [(.seqr 0 0x0, 1)]
      { rs with mem := { rs.mem with sqList := [(0, 0x900000)] } })), by decide, by decide, by decide, by decide, by
      decide, by decide, by decide, by decide⟩⟩

/-- A state and operands for each clause of `SequencerRowsComplete`. -/
theorem witness_SequencerRowsComplete :
    (∃ (b : Fin 32) (t : Nat) (z : State) (s : State), s.blks[b].timerNext = some t ∧ seqsOn s = true ∧ t ≤
      s.time.tick ∧ z = reload s (.block b 0x04) t) ∧
    (∃ (b : Fin 32) (src : Fin 20) (q : Request) (s : State), seqsOn s = true ∧ s.blks[b].run = none ∧
      s.blks[b].freeAt ≤ s.time.tick ∧ chooseSrc (dropAll s b) b = some src ∧ headOf (dropAll s b) b src = some q ∧
      eccBad s .controlStore b.val (0xC00 + q.entry.toNat) = false ∧ 0xC40 ≤ (routineAt (dropAll s b) b src q
      (entryWord (dropAll s b) b q)).pc) ∧
    (∃ (b : Fin 32) (r : Routine) (w : MicroWord) (data : Word) (z : State) (r1 : Routine) (s : State),
      s.blks[b].run = some r ∧ seqsOn s = true ∧ r.phase = .body ∧ r.waits = false ∧ r.readyAt ≤ s.time.tick ∧
      s.time.tick < r.firstAt + 256 ∧ trapped s b r.pc = r.pc ∧ eccBad s .controlStore b.val r.pc.toNat = false ∧
      cstoreAt s b r.pc.toNat = w ∧ fld w 105 100 ≠ 0 ∧ fld w 49 46 ≠ 7 ∧ data = aluResult (fld w 105 100)
      (microSource r w (fld w 99 95)) (microSource r w (fld w 94 90)) r.c ∧ fld w 127 124 < 6 ∧ wordFault r w none
      (wordEffects r w data).length = none ∧ wordViolation s b r w = none ∧ 0xC40 ≤ nextAddr r w (microCond s b r w) ∧
      loadOp s b r (wordRegs s b r w data) w = (z, r1)) ∧
    (∃ (b : Fin 32) (r : Routine) (w : MicroWord) (s : State), s.blks[b].run = some r ∧ seqsOn s = true ∧ r.phase =
      .body ∧ r.waits = false ∧ r.readyAt ≤ s.time.tick ∧ s.time.tick < r.firstAt + 256 ∧ trapped s b r.pc = r.pc ∧
      eccBad s .controlStore b.val r.pc.toNat = false ∧ cstoreAt s b r.pc.toNat = w ∧ microLegal w = true ∧ fld w 105
      100 ≠ 0 ∧ fld w 127 124 = 0 ∧ fld w 60 56 = 0 ∧ fld w 49 46 = 0 ∧ fld w 33 30 = 0 ∧ fld w 25 24 = 0 ∧ fld w 23
      20 = 0 ∧ r.buf.length ≤ 16 ∧ 0xC40 ≤ r.pc + 1 ∧ (∀ src : Fin 20, r.level < srcLevel s b src →
      s.blks[b].queues[src] = [])) ∧
    (∃ (b : Fin 32) (r : Routine) (s : State), s.blks[b].run = some r ∧ r.phase = .commitDue false ∧ seqsOn s = true
      ∧ r.readyAt ≤ s.time.tick) ∧
    (∃ (b : Fin 32) (r : Routine) (s : State), s.blks[b].run = some r ∧ r.phase = .commitDue true ∧ seqsOn s = true
      ∧ r.readyAt ≤ s.time.tick) ∧
    (∃ (b : Fin 32) (r : Routine) (s : State), s.blks[b].run = some r ∧ r.phase = .body ∧ seqsOn s = true ∧
      r.firstAt + 256 ≤ s.time.tick) ∧
    (∃ (b : Fin 32) (t : Nat) (s : State), s.blks[b].rebuildEnd = some t ∧ alive s = true ∧ t ≤ s.time.tick) ∧
    (∃ (req : Requester) (b : Fin 32) (v : Word) (s : State), Accepts s req (.block b 0x00) (v &&& 0xFFFFFE)) ∧
    (∃ (b : Fin 32) (v : Word) (z : State), bit v 0 = false ∧ bit v 1 = true ∧ regBit z (.block b 0x00) 1 = true) ∧
    (∃ (v : Word), bit v 0 = false ∧ bit v 1 = false) :=
  ⟨⟨0, 0, _, (bk (fun x => { x with timerNext := some 0 }) (regs [(.block 0 0x04, 5)] rs)), by decide, by decide,
      by decide, rfl⟩,
    ⟨0, 17, req0, (tk 1 (bk (fun x => { x with queues := x.queues.set 17 [req0] }) (regs [(.block 0 0x00, 1)]
      { rs with mem := { rs.mem with cstore := [(0xC00, 0x10000C40)] } }))), by decide, by decide, by decide, by
      decide, by decide, by decide, by decide⟩,
    ⟨0, (rout .body), w0, d0, _, _, sw, by decide, by decide, by decide, by decide, by decide, by decide, by decide,
      by decide, by decide, by decide, by decide, rfl, by decide, by decide, by decide, by decide, pe2 _⟩,
    ⟨0, (rout .body), w0, sw, by decide, by decide, by decide, by decide, by decide, by decide, by decide, by
      decide, by decide, by decide, by decide, by decide, by decide, by decide, by decide⟩,
    ⟨0, (rout (.commitDue false)), (bk (fun x => { x with run := some (rout (.commitDue false)) }) rs), by decide,
      by decide, by decide, by decide⟩,
    ⟨0, (rout (.commitDue true)), (bk (fun x => { x with run := some (rout (.commitDue true)) }) rs), by decide, by
      decide, by decide, by decide⟩,
    ⟨0, (rout .body), (tk 256 (bk (fun x => { x with run := some (rout .body) }) rs)), by decide, by decide, by
      decide, by decide⟩,
    ⟨0, 0, (bk (fun x => { x with rebuildEnd := some 0 }) rs), by decide, by decide, by decide⟩,
    ⟨.host, 0, 0, rs, accepts_now (by decide)⟩,
    ⟨0, 2, (regs [(.block 0 0x00, 3)] rs), by decide, by decide, by decide⟩,
    ⟨0, by decide, by decide⟩⟩

/-- A state and operands for each clause of `PwmRowsComplete`. -/
theorem witness_PwmRowsComplete :
    (∃ (k : Carrier) (p : Nat) (n : Nat) (z : State) (y : State) (s : State), (carrier s k).next = some p ∧
      carriersOn s = true ∧ (carrier s k).running = true ∧ p ≤ s.time.tick ∧ z = (if updlockAt s k (p - 1) then s else
      reloadCarrier s k p) ∧ n = (work z (carPeriod k)).toNat ∧ y = updCarrier z k (fun x =>
      { x with start := some p, next := some (p + n), ctrigs := (x.ctrigs ++ (List.finRange 4).filterMap (fun i => if (work z (carTrig k i.val)).toNat < n then some (p + (work z (carTrig k i.val)).toNat, i) else none)) })
      ∧ tripLive y k = false ∧ (carrier y k).trip = false ∧ (carrier y k).resumeWait = false) ∧
    (∃ (k : Carrier) (p : Nat) (n : Nat) (s : State), (carrier s k).next = some p ∧ carriersOn s = true ∧ (carrier s
      k).running = true ∧ p ≤ s.time.tick ∧ n = (work (if updlockAt s k (p - 1) then s else reloadCarrier s k p)
      (carPeriod k)).toNat) ∧
    (∃ (c : Fin 512) (e : Nat × Bool) (l : List (Nat × Bool)) (k : Carrier) (s : State), s.cells[c].pwmEdges = e ::
      l ∧ carrierOf s c = some k ∧ carriersOn s = true ∧ cellEn s c = true ∧ e.1 / 16 ≤ s.time.tick ∧ ((∃ r, k = .gang
      r) ∨ e.2 = s.cells[c].latch ∨ leastEdge s c ≤ e.1)) ∧
    (∃ (c : Fin 512) (e : Nat × Bool) (l : List (Nat × Bool)) (b : Fin 32) (s : State), s.cells[c].pwmEdges = e :: l
      ∧ carrierOf s c = some (.block b) ∧ carriersOn s = true ∧ cellEn s c = true ∧ e.1 / 16 ≤ s.time.tick ∧ e.2 ≠
      s.cells[c].latch ∧ e.1 < leastEdge s c) ∧
    (∃ (k : Carrier) (i : Fin 4) (e : Nat × Fin 4) (s : State), (carrier s k).ctrigs.find? (fun e => decide (e.2 = i
      ∧ e.1 ≤ s.time.tick)) = some e ∧ carriersOn s = true) ∧
    (∃ (k : Carrier) (w : Fin 64) (s : State), alive s = true ∧ regionOfComp w = carRegion k ∧ bit (reg s
      (carTripSel k)) (w.val % 16) = true ∧ s.comps[w].trip = true) ∧
    (∃ (k : Carrier) (s : State), alive s = true ∧ tripPinActive s k false = true) ∧
    (∃ (k : Carrier) (s : State), alive s = true ∧ tripPinActive s k true = true) ∧
    (∃ (k : Carrier) (s : State), alive s = true ∧ bit (reg s (carTripPin k)) 20 = true) ∧
    (∃ (k : Carrier) (s : State), alive s = true ∧ tripSoftware s k = true) ∧
    (∃ (req : Requester) (k : Carrier) (v : Word) (s : State), Accepts s req (carrierCtrl k) v) ∧
    (∃ (req : Requester) (k : Carrier) (v : Word) (s : State), Accepts s req (carrierCtrl k) (v ||| 8)) ∧
    (∃ (req : Requester) (k : Carrier) (v : Word) (s : State), Accepts s req (carrierCtrl k) (v ||| 0x10)) ∧
    (∃ (k : Carrier) (v : Word) (z : State), bit v 0 = true ∧ bit (reg z (carrierCtrl k)) 0 = false ∧ z.sys.mode ≠
      .halt) ∧
    (∃ (k : Carrier) (v : Word) (z : State), bit v 0 = false ∧ bit (reg z (carrierCtrl k)) 0 = true) ∧
    (∃ (k : Carrier) (v : Word) (z : State), (carrier z k).lockAt ≠ some z.time.tick ∧ bit v 0 = bit (reg z
      (carrierCtrl k)) 0) ∧
    (∃ (k : Carrier) (v : Word) (z : State), (bit v 3 = true ∨ bit v 4 = true) ∧ bit v 0 = bit (reg z (carrierCtrl
      k)) 0) ∧
    (∃ (k : Carrier) (z : State), (carrier z k).trip = true ∧ tripLive z k = false) ∧
    (∃ (k : Carrier) (z : State), (carrier z k).trip = true ∧ tripLive z k = true) :=
  ⟨⟨(.block 0), 10, _, _, _, (tk 100 (ca (.block 0) (fun x => { x with running := true, next := some 10 }) (regs
      [(.block 0 0x0C, 1), (.block 0 0x0E, 50)] rs))), by decide, by decide, by decide, by decide, rfl, rfl, rfl, by
      decide, by decide, by decide⟩,
    ⟨(.block 0), 10, _, (tk 100 (ca (.block 0) (fun x => { x with running := true, next := some 10 }) (regs [(.block
      0 0x0C, 1), (.block 0 0x0E, 50)] rs))), by decide, by decide, by decide, by decide, rfl⟩,
    ⟨0, ((16, true)), [], (.gang 0), (tk 100 (ce (fun x => { x with pwmEdges := [(16, true)] }) (regs [(.cell 0
      0x00, 3), (.cell 0 0x01, 1)] rs))), by decide, by decide, by decide, by decide, by decide, .inl ⟨0, rfl⟩⟩,
    ⟨0, ((1600, true)), [], 0, (tk 100 (ce (fun x => { x with pwmEdges := [(1600, true)], edgeAt := some 1580 })
      (regs [(.cell 0 0x00, 2), (.cell 0 0x01, 1)] rs))), by decide, by decide, by decide, by decide, by decide, by
      decide, by decide⟩,
    ⟨(.gang 1), 3, ((7, 3)), (tk 100 (ca (.gang 1) (fun x => { x with ctrigs := [(7, 3)] }) rs)), by decide, by
      decide⟩,
    ⟨(.block 0), 15, (updComp (regs [(.block 0 0x16, 0x8000)] rs) 15 (fun x => { x with trip := true })), by decide,
      by decide, by decide, by decide⟩,
    ⟨(.gang 3), (regs [(.gang 3 0x05, 0x050000)] rs), by decide, by decide⟩,
    ⟨(.block 0), (setReg rs (carTripPin (.block 0)) 0x0A0000), by decide, by decide⟩,
    ⟨(.block 31), (regs [(.block 31 0x17, 0x100000)] rs), by decide, by decide⟩,
    ⟨(.block 0), ({ rs with agenda := { rs.agenda with jobs := [(0, .trip (.block 0) false true)] } }), by decide,
      by decide⟩,
    ⟨.host, (.block 0), 1, rs, accepts_now (by decide)⟩,
    ⟨.host, (.block 0), 1, rs, accepts_now (by decide)⟩,
    ⟨.host, (.gang 0), 1, rs, accepts_now (by decide)⟩,
    ⟨(.block 0), 0x21, rs, by decide, by decide, by decide⟩,
    ⟨(.gang 0), 0, (regs [(.gang 0 0x00, 1)] rs), by decide, by decide⟩,
    ⟨(.gang 0), 4, rs, by decide, by decide⟩,
    ⟨(.block 0), 8, rs, by decide, by decide⟩,
    ⟨(.block 0), (ca (.block 0) (fun x => { x with trip := true }) rs), by decide, by decide⟩,
    ⟨(.block 0), (ca (.block 0) (fun x => { x with trip := true }) (setReg rs (carTripPin (.block 0)) 0x0A0000)), by
      decide, by decide⟩⟩

/-- A state and operands for each clause of `ChannelRowsComplete`. -/
theorem witness_ChannelRowsComplete :
    (∃ (c : Fin 64) (ab : BitVec 2) (new : BitVec 2) (t : T16) (s : State), chanMakes s c 0 = true ∧ due s (tickPart
      t) = true ∧ new = ab &&& BitVec.ofNat 2 (bitAt (chanHas s c 0) 1 + bitAt (chanHas s c 1) 0) ∧ chanCounts s c
      (tickPart t) = true ∧ (quadPlace new + 4 - quadPlace s.chans[c].ab) % 4 = 1) ∧
    (∃ (c : Fin 64) (ab : BitVec 2) (new : BitVec 2) (t : T16) (s : State), chanMakes s c 0 = true ∧ due s (tickPart
      t) = true ∧ new = ab &&& BitVec.ofNat 2 (bitAt (chanHas s c 0) 1 + bitAt (chanHas s c 1) 0) ∧ chanCounts s c
      (tickPart t) = true ∧ (quadPlace new + 4 - quadPlace s.chans[c].ab) % 4 = 3) ∧
    (∃ (c : Fin 64) (ab : BitVec 2) (new : BitVec 2) (t : T16) (s : State), chanMakes s c 0 = true ∧ due s (tickPart
      t) = true ∧ new = ab &&& BitVec.ofNat 2 (bitAt (chanHas s c 0) 1 + bitAt (chanHas s c 1) 0) ∧ chanCounts s c
      (tickPart t) = true ∧ (quadPlace new + 4 - quadPlace s.chans[c].ab) % 4 = 2) ∧
    (∃ (c : Fin 64) (s : State), regBit s (.chan c 0x01) 3 = false ∧ s.chans[c].stand = none) ∧
    (∃ (c : Fin 64) (t : T16) (s : State), chanMakes s c 1 = true ∧ chanHas s c 0 = true ∧ due s (tickPart t) = true
      ∧ chanCounts s c (tickPart t) = true) ∧
    (∃ (c : Fin 64) (t : T16) (s : State), chanMakes s c 2 = true ∧ chanHas s c 0 = true ∧ due s (tickPart t) = true
      ∧ chanCounts s c (tickPart t) = true ∧ s.chans[c].stand = none ∧ fld (reg s (.chan c 0x06)) 13 12 = 0) ∧
    (∃ (c : Fin 64) (a : BitVec 14) (b : BitVec 14) (t : Time) (z : State) (y : State) (s : State), chanMakes s c 3
      = true ∧ adcOn s = true ∧ due s (plus t 72) = true ∧ t.toNat % 80 = 0 ∧ chanCounts s c t = true ∧ (∀ p,
      s.chans[c].lastPulse = some p → after t (tickPart p) = true) ∧ z = deliverResult (deliverResult s (Fin.ofNat 32
      (8 * (regionOfChan c).val + 2 * regFld s (.chan c 0x07) 9 8)) t (resultWord false false ((regionOfAdc (Fin.ofNat
      32 (8 * (regionOfChan c).val + 2 * regFld s (.chan c 0x07) 9 8))).val * 24 + regFld s (.adc (Fin.ofNat 32 (8 *
      (regionOfChan c).val + 2 * regFld s (.chan c 0x07) 9 8)) 0x0) 4 0) a.toNat)) (Fin.ofNat 32 (8 * (regionOfChan
      c).val + 2 * regFld s (.chan c 0x07) 9 8 + 1)) t (resultWord false false ((regionOfAdc (Fin.ofNat 32 (8 *
      (regionOfChan c).val + 2 * regFld s (.chan c 0x07) 9 8 + 1))).val * 24 + regFld s (.adc (Fin.ofNat 32 (8 *
      (regionOfChan c).val + 2 * regFld s (.chan c 0x07) 9 8 + 1)) 0x0) 4 0) b.toNat) ∧ y = reload (if lateAt z (.chan
      c 0x08) s.time.tick then chanFlag z c 6 else z) (.chan c 0x08) s.time.tick) ∧
    (∃ (c : Fin 64) (t : Time) (s : State), chanMakes s c 3 = true ∧ adcOn s = true ∧ due s (plus t 72) = true ∧
      t.toNat % 80 = 0 ∧ chanCounts s c t = true ∧ (∀ p, s.chans[c].lastPulse = some p → after t (tickPart p) = true)) ∧
    (∃ (c : Fin 64) (p : Fin 32) (t0 : Nat) (t1 : Nat) (w0 : Word) (w1 : Word) (l : List (Nat × Word)) (s : State),
      chanOn s c = true ∧ chanMode s c = 4 ∧ s.chans[c].serWord0 = none ∧ p = Fin.ofNat 32 (8 * (regionOfChan c).val +
      regFld s (.chan c 0x0B) 2 0) ∧ s.pes[p].rx = (t0, w0) :: (t1, w1) :: l ∧ t0 < s.time.tick ∧ t1 < s.time.tick) ∧
    (∃ (c : Fin 64) (p : Fin 32) (t0 : Nat) (w0 : Word) (s : State), chanOn s c = true ∧ chanMode s c = 4 ∧
      s.chans[c].serWord0 = none ∧ p = Fin.ofNat 32 (8 * (regionOfChan c).val + regFld s (.chan c 0x0B) 2 0) ∧
      s.pes[p].rx = [(t0, w0)] ∧ t0 < s.time.tick) ∧
    (∃ (c : Fin 64) (e : CountEvt) (l : List CountEvt) (s : State), s.chans[c].flight = e :: l ∧ chanOn s c = true ∧
      due s e.upd = true) ∧
    (∃ (c : Fin 64) (t : T16) (s : State), chanOn s c = true ∧ (chanMode s c = 1 ∨ chanMode s c = 3 ∨ (chanMode s c
      = 0 ∧ regFld s (.chan c 0x03) 2 0 < 4)) ∧ chanHas s c 2 = true ∧ (t, regBit s (.chan c 0x03) 3) ∉
      s.chans[c].zLog ∧ due s (plus (tickPart t) (indexLead s c)) = true ∧ chanCounts s c (tickPart t) = true) ∧
    (∃ (c : Fin 64) (d : Time) (s : State), chanDeadline s c = some d ∧ chanOn s c = true ∧ due s d = true ∧ movesBy
      s c d = false ∧ s.chans[c].spd.standstill = false ∧ s.chans[c].stand = none) ∧
    (∃ (c : Fin 64) (d : Time) (s : State), s.chans[c].stand = some d ∧ standOpen s c d = false ∧ regBit s (.chan c
      0x01) 19 = false) ∧
    (∃ (c : Fin 64) (t : T16) (u : Time) (up : Bool) (l : List (T16 × Time × Bool)) (b : Bool) (k : Fin 512) (s :
      State), s.chans[c].emuQueue = (t, u, up) :: l ∧ b = (if up then decide (s.chans[c].emuA ≠ s.chans[c].emuB) else
      decide (s.chans[c].emuA = s.chans[c].emuB)) ∧ k = emuCell s c b ∧ chanOn s c = true ∧ regBit s (.chan c 0x00) 2
      = true ∧ unfired s k = false ∧ due s u = true ∧ takesChannel s k = true ∧ s.chans[c].emuLast = none ∧ after16
      (mk16 (laterOf (plus u 6) (plus (now s) 3)) 0) t = false) ∧
    (∃ (req : Requester) (c : Fin 64) (v : Word) (s : State), Accepts s req (.chan c 0x00) v ∧ bit v 0 = true ∧ bit
      (reg (lateView s) (.chan c 0x00)) 0 = false ∧ chanCheck (lateView s) c (bit v 1) (bit v 2) = .ok) ∧
    (∃ (s : State) (c : Fin 64), chanMode s c < 3) ∧
    (∃ (s : State) (c : Fin 64) (cmp : Bool) (emu : Bool), (∀ k, k ≠ c → chanEn s k = false) ∧ (cmp = true →
      cellReadyFor s (cmpCell s c) 1 2 = true) ∧ (emu = true → cellReadyFor s (emuCell s c false) 3 0 = true ∧
      cellReadyFor s (emuCell s c true) 3 0 = true) ∧ (cmp = true → emu = true → cmpCell s c ≠ emuCell s c false ∧
      cmpCell s c ≠ emuCell s c true)) ∧
    (∃ (c : Fin 64) (v : Word) (z : State), bit v 0 = true ∧ bit (reg z (.chan c 0x00)) 0 = false ∧ bit v 2 = false
      ∧ bit v 4 = false ∧ chanCheck z c (bit v 1) false = .ok) ∧
    (∃ (req : Requester) (c : Fin 64) (v : Word) (s : State), Accepts s req (.chan c 0x00) v ∧ bit v 0 = false) ∧
    (∃ (c : Fin 64) (v : Word) (z : State), bit v 0 = false ∧ bit (reg z (.chan c 0x00)) 0 = true ∧ bit v 2 = false
      ∧ bit v 4 = false) ∧
    (∃ (req : Requester) (c : Fin 64) (v : Word) (s : State), Accepts s req (.chan c 0x00) (v ||| 2) ∧ bit v 0 =
      true ∧ bit v 2 = false ∧ bit (reg (lateView s) (.chan c 0x00)) 0 = true ∧ (∀ k, k ≠ c → chanEn (lateView s) k =
      false) ∧ cellReadyFor (lateView s) (cmpCell (lateView s) c) 1 2 = true) ∧
    (∃ (c : Fin 64) (v : Word) (z : State), bit v 0 = true ∧ bit v 1 = true ∧ bit v 2 = false ∧ bit v 4 = false ∧
      bit (reg z (.chan c 0x00)) 0 = true ∧ bit (reg z (.chan c 0x00)) 1 = false ∧ chanCheck z c true false = .ok) ∧
    (∃ (req : Requester) (c : Fin 64) (v : Word) (s : State), Accepts s req (.chan c 0x00) (v ||| 4) ∧ bit v 0 =
      true ∧ bit v 1 = false ∧ bit (reg (lateView s) (.chan c 0x00)) 0 = true ∧ (∀ k, k ≠ c → chanEn (lateView s) k =
      false) ∧ cellReadyFor (lateView s) (emuCell (lateView s) c false) 3 0 = true ∧ cellReadyFor (lateView s)
      (emuCell (lateView s) c true) 3 0 = true) ∧
    (∃ (c : Fin 64) (v : Word) (z : State), bit v 0 = true ∧ bit v 1 = false ∧ bit v 2 = true ∧ bit v 4 = false ∧
      bit (reg z (.chan c 0x00)) 0 = true ∧ bit (reg z (.chan c 0x00)) 2 = false ∧ chanCheck z c false true = .ok) ∧
    (∃ (req : Requester) (c : Fin 64) (v : Word) (s : State), Accepts s req (.chan c 0x00) (v ||| 0x10) ∧ bit v 0 =
      bit (reg (lateView s) (.chan c 0x00)) 0 ∧ bit v 1 = false ∧ bit v 2 = false) ∧
    (∃ (c : Fin 64) (v : Word) (z : State), bit v 0 = bit (reg z (.chan c 0x00)) 0 ∧ bit v 1 = false ∧ bit v 2 =
      false ∧ bit v 4 = true) ∧
    (∃ (req : Requester) (c : Fin 64) (v : Word) (s : State), Accepts s req (.chan c 0x00) (v ||| 8) ∧ bit v 0 = bit
      (reg (lateView s) (.chan c 0x00)) 0 ∧ bit v 1 = false ∧ bit v 2 = false) ∧
    (∃ (c : Fin 64) (v : Word) (z : State), bit v 0 = bit (reg z (.chan c 0x00)) 0 ∧ bit v 1 = false ∧ bit v 2 =
      false ∧ bit v 3 = true ∧ bit v 4 = false) ∧
    (∃ (req : Requester) (c : Fin 64) (v : Word) (s : State), Accepts s req (.chan c 0x18) v) ∧
    (∃ (req : Requester) (c : Fin 64) (v : Word) (s : State), Accepts s req (.chan c 0x0F) v) ∧
    (∃ (req : Requester) (c : Fin 64) (v : Word) (s : State), Accepts s req (.chan c 0x0D) v ∧ v ≠ 0) ∧
    (∃ (v : Word), v ≠ 0) ∧
    (∃ (req : Requester) (c : Fin 64) (s : State), reaches s req (.chan c 0x17) = true ∧ capOf s req (.chan c 0x17)
      = none) ∧
    (∃ (req : Requester) (c : Fin 64) (s : State), reaches s req (.chan c 0x1D) = true ∧ capOf s req (.chan c 0x1D)
      = none) ∧
    (∃ (c : Fin 64) (t : T16) (s : State), (t, regBit s (.chan c 0x03) 3) ∈ s.chans[c].zLog) :=
  ⟨⟨0, 2, _, 0, (cn 0 (regs [(.chan 0 0x02, 0x020100)] rs)), by decide, by decide, rfl, by decide, by decide⟩,
    ⟨0, 1, _, 0, (cn 0 (regs [(.chan 0 0x02, 0x020100)] rs)), by decide, by decide, rfl, by decide, by decide⟩,
    ⟨0, 3, _, 0, (cn 0 (regs [(.chan 0 0x02, 0x020100)] rs)), by decide, by decide, rfl, by decide, by decide⟩,
    ⟨0, rs, by decide, by decide⟩,
    ⟨0, 0, (cn 1 (regs [(.chan 0 0x02, 0x020100)] rs)), by decide, by decide, by decide, by decide⟩,
    ⟨0, 0, (cn 2 (regs [(.chan 0 0x02, 0x020100)] rs)), by decide, by decide, by decide, by decide, by decide, by
      decide⟩,
    ⟨0, ((8192 : BitVec 14)), ((12288 : BitVec 14)), ((0 : Time)), _, _, (cn 3 (regs [(.chan 0 0x07, 0x000002)] (tk
      800 rs))), by decide, by decide, by decide, by decide, by decide, none_all (by decide), rfl, rfl⟩,
    ⟨0, 0, (cn 3 (regs [(.chan 0 0x07, 0x000002)] (tk 800 rs))), by decide, by decide, by decide, by decide, by
      decide, none_all (by decide)⟩,
    ⟨0, _, 0, 0, 1, 2, [], (tk 1 (pe (fun e => { e with rx := [(0, 1), (0, 2)] }) (cn 4 rs))), by decide, by decide,
      by decide, rfl, by decide, by decide, by decide⟩,
    ⟨0, _, 0, 1, (tk 1 (pe (fun e => { e with rx := [(0, 1)] }) (cn 4 rs))), by decide, by decide, by decide, rfl,
      by decide, by decide⟩,
    ⟨0, (⟨1, 0, 0, false, none, false⟩), ([]), (ch (fun x => { x with flight := [⟨1, 0, 0, false, none, false⟩] })
      (cn 0 rs)), by decide, by decide, by decide⟩,
    ⟨0, 0, (cn 1 (regs [(.chan 0 0x02, 0x050000)] (tk 1000 rs))), by decide, by decide, by decide, by decide, by
      decide, by decide⟩,
    ⟨0, 0, (ch (fun x => { x with lastCount := some 0 }) (regs [(.chan 0 0x0D, 0)] (cn 0 rs))), by decide, by
      decide, by decide, by decide, by decide, by decide⟩,
    ⟨0, 0, (ch (fun x => { x with stand := some 0 }) (cn 0 (tk 1000 rs))), by decide, by decide, by decide⟩,
    ⟨0, 1600, 0, true, [], _, _, (ch (fun x => { x with emuQueue := [(1600, 0, true)] }) (regs [(.chan 0 0x00, 5),
      (.cell 0 0x00, 1), (.cell 0 0x01, 1)] rs)), by decide, rfl, rfl, by decide, by decide, by decide, by decide, by
      decide, by decide, by decide⟩,
    ⟨.host, 0, 1, rs, accepts_now (by decide), by decide, by decide, by decide⟩,
    ⟨rs, 0, by decide⟩,
    ⟨(regs [(.cell 0 0x00, 1), (.cell 0 0x01, 0x91)] rs), 0, true, false, by decide, by decide, by decide, by
      decide⟩,
    ⟨0, 1, rs, by decide, by decide, by decide, by decide, by decide⟩,
    ⟨.host, 0, 0, rs, accepts_now (by decide), by decide⟩,
    ⟨0, 0, (cn 0 rs), by decide, by decide, by decide, by decide⟩,
    ⟨.host, 0, 1, (regs [(.cell 0 0x00, 1), (.cell 0 0x01, 0x91)] (cn 0 rs)), accepts_now (by decide), by decide, by
      decide, by decide, by decide, by decide⟩,
    ⟨0, 3, (regs [(.cell 0 0x00, 1), (.cell 0 0x01, 0x91)] (cn 0 rs)), by decide, by decide, by decide, by decide,
      by decide, by decide, by decide⟩,
    ⟨.host, 0, 1, (regs [(.cell 0 0x00, 1), (.cell 0 0x01, 0x31), (.cell 1 0x00, 1), (.cell 1 0x01, 0x31), (.chan 0
      0x16, 0x80)] (cn 0 rs)), accepts_now (by decide), by decide, by decide, by decide, by decide, by decide, by
      decide⟩,
    ⟨0, 5, (regs [(.cell 0 0x00, 1), (.cell 0 0x01, 0x31), (.cell 1 0x00, 1), (.cell 1 0x01, 0x31), (.chan 0 0x16,
      0x80)] (cn 0 rs)), by decide, by decide, by decide, by decide, by decide, by decide, by decide⟩,
    ⟨.host, 0, 1, (cn 0 rs), accepts_now (by decide), by decide, by decide, by decide⟩,
    ⟨0, 0x11, (cn 0 rs), by decide, by decide, by decide, by decide⟩,
    ⟨.host, 0, 0, rs, accepts_now (by decide), by decide, by decide, by decide⟩,
    ⟨0, 8, rs, by decide, by decide, by decide, by decide, by decide⟩,
    ⟨.host, 0, 5, rs, accepts_now (by decide)⟩,
    ⟨.host, 0, 5, rs, accepts_now (by decide)⟩,
    ⟨.host, 0, 5, rs, accepts_now (by decide), by decide⟩,
    ⟨1, by decide⟩,
    ⟨.host, 0, rs, by decide, by decide⟩,
    ⟨.host, 63, rs, by decide, by decide⟩,
    ⟨0, 0, (ch (fun x => { x with zLog := [(0, false)] }) rs), by decide⟩⟩

/-- A state and operands for each clause of `PewterWordsComplete`. -/
theorem witness_PewterWordsComplete :
    (∃ (p : Fin 32) (n : Nat) (w : PewterWord) (i : Bool) (z : State) (s : State), PeTakes s p 0 n w i z) ∧
    (∃ (p : Fin 32) (n : Nat) (w : PewterWord) (i : Bool) (z : State) (s : State), PeTakes s p 1 n w i z) ∧
    (∃ (p : Fin 32) (n : Nat) (w : PewterWord) (i : Bool) (z : State) (v : Word) (s : State), PeTakes s p 2 n w i z
      ∧ v = movFn (fld w 5 4) (movSource z p n (fld w 8 6)) ∧ fld w 11 9 ≠ 5) ∧
    (∃ (p : Fin 32) (n : Nat) (w : PewterWord) (i : Bool) (z : State) (v : Word) (s : State), PeTakes s p 2 n w i z
      ∧ v = movFn (fld w 5 4) (movSource z p n (fld w 8 6)) ∧ fld w 11 9 = 5) ∧
    (∃ (p : Fin 32) (n : Nat) (w : PewterWord) (i : Bool) (z : State) (s : State), PeTakes s p 3 n w i z ∧ fld w 11
      9 = 0) ∧
    (∃ (p : Fin 32) (n : Nat) (w : PewterWord) (i : Bool) (z : State) (s : State), PeTakes s p 3 n w i z ∧ fld w 11
      9 = 1) ∧
    (∃ (p : Fin 32) (n : Nat) (w : PewterWord) (i : Bool) (z : State) (s : State), PeTakes s p 3 n w i z ∧ fld w 11
      9 = 2) ∧
    (∃ (p : Fin 32) (n : Nat) (w : PewterWord) (i : Bool) (z : State) (b : Bool) (s : State), PeTakes s p 3 n w i z
      ∧ 3 ≤ fld w 11 9 ∧ b = (if fld w 11 9 = 3 then peIn z p (regFld z (.pewter p 0x01) 18 17) n else if fld w 11 9 =
      4 then !peIn z p (regFld z (.pewter p 0x01) 18 17) n else if fld w 11 9 = 5 then decide (outLimit z p ≤
      z.pes[p].osc) else if fld w 11 9 = 6 then decide (inLimit z p ≤ z.pes[p].isc) else if regBit z (.pewter p 0x02)
      18 then bit z.pes[p].osr 0 else bit z.pes[p].osr 23)) ∧
    (∃ (p : Fin 32) (n : Nat) (w : PewterWord) (i : Bool) (z : State) (f : Nat) (s : State), PeTakes s p 4 n w i z ∧
      f = z.pes[p].waitFrom.getD n ∧ ((fld w 11 10 = 0 ∧ peIn z p (fld w 7 4) n = bit w 9) ∨ (fld w 11 10 = 1 ∧ ∃ g ∈
      z.pes[p].seen[(Fin.ofNat 4 (fld w 7 4) : Fin 4)], g.rise = bit w 9 ∧ f ≤ g.at_ ∧ g.at_ ≤ n) ∨ (fld w 11 10 = 2 ∧
      ∃ t, z.doms[(Fin.ofNat 16 (fld w 7 4) : Fin 16)].updTick = some t ∧ f ≤ t ∧ t ≤ n))) ∧
    (∃ (p : Fin 32) (n : Nat) (w : PewterWord) (i : Bool) (z : State) (y : State) (x : State) (v : Word) (s :
      State), PeTakes s p 5 n w i z ∧ (z.pes[p].framePush = true → rxRoom z p = true) ∧ y = (if z.pes[p].framePush
      then framePushNow z p n else z) ∧ v = (if regBit y (.pewter p 0x02) 19 then (y.pes[p].isr >>> fld w 8 4) |||
      word (inSource y p n (fld w 11 9) % 2 ^ fld w 8 4 * 2 ^ (24 - fld w 8 4)) else (y.pes[p].isr <<< fld w 8 4) |||
      word (inSource y p n (fld w 11 9) % 2 ^ fld w 8 4)) ∧ x = updPe y p (fun x =>
      { x with isr := v, isc := min 24 (y.pes[p].isc + fld w 8 4) })) ∧
    (∃ (p : Fin 32) (n : Nat) (w : PewterWord) (i : Bool) (z : State) (y : State) (s : State), PeTakes s p 6 n w i z
      ∧ (z.pes[p].framePush = true → rxRoom z p = true) ∧ y = (if z.pes[p].framePush then framePushNow z p n else z) ∧
      (bit w 9 = false ∨ inLimit y p ≤ y.pes[p].isc) ∧ rxRoom y p = true) ∧
    (∃ (p : Fin 32) (n : Nat) (w : PewterWord) (i : Bool) (z : State) (y : State) (x : State) (v : Word) (c : Nat)
      (s : State), PeTakes s p 7 n w i z ∧ (z.pes[p].framePull = true → z.pes[p].tx ≠ []) ∧ y = (if z.pes[p].framePull
      then framePullNow z p else z) ∧ v = (if regBit y (.pewter p 0x02) 18 then y.pes[p].osr &&& word (2 ^ fld w 8 4 -
      1) else y.pes[p].osr >>> (24 - fld w 8 4)) ∧ c = min 24 (y.pes[p].osc + fld w 8 4) ∧ x = updPe y p (fun e =>
      { e with osr := (if regBit y (.pewter p 0x02) 18 then e.osr >>> fld w 8 4 else e.osr <<< fld w 8 4), osc := c, x := if fld w 11 9 = 1 then v else e.x, y := if fld w 11 9 = 2 then v else e.y, isr := if fld w 11 9 = 4 then v else e.isr, isc := if fld w 11 9 = 4 then fld w 8 4 else e.isc })) ∧
    (∃ (p : Fin 32) (n : Nat) (w : PewterWord) (i : Bool) (z : State) (y : State) (h : Word) (l : List Word) (s :
      State), PeTakes s p 8 n w i z ∧ (z.pes[p].framePull = true → z.pes[p].tx ≠ []) ∧ y = (if z.pes[p].framePull then
      framePullNow z p else z) ∧ (bit w 9 = false ∨ outLimit y p ≤ y.pes[p].osc) ∧ y.pes[p].tx = h :: l) ∧
    (∃ (p : Fin 32) (n : Nat) (w : PewterWord) (i : Bool) (z : State) (s : State), PeTakes s p 9 n w i z ∧ (bit w 11
      = false ∨ queueFull z p 19 = false)) :=
  ⟨⟨0, 0, 0x0000, false, (pw 0x0000 id), (pw 0x0000 id), ⟨by decide, by decide, by decide, by decide, by decide,
      rfl⟩⟩,
    ⟨0, 0, 0x1010, false, (pw 0x1010 id), (pw 0x1010 id), ⟨by decide, by decide, by decide, by decide, by decide,
      rfl⟩⟩,
    ⟨0, 0, 0x2200, false, (pw 0x2200 id), _, (pw 0x2200 id), ⟨by decide, by decide, by decide, by decide, by decide,
      rfl⟩, rfl, by decide⟩,
    ⟨0, 0, 0x2A00, false, (pw 0x2A00 id), _, (pw 0x2A00 id), ⟨by decide, by decide, by decide, by decide, by decide,
      rfl⟩, rfl, by decide⟩,
    ⟨0, 0, 0x3000, false, (pw 0x3000 id), (pw 0x3000 id), ⟨by decide, by decide, by decide, by decide, by decide,
      rfl⟩, by decide⟩,
    ⟨0, 0, 0x3200, false, (pw 0x3200 id), (pw 0x3200 id), ⟨by decide, by decide, by decide, by decide, by decide,
      rfl⟩, by decide⟩,
    ⟨0, 0, 0x3400, false, (pw 0x3400 id), (pw 0x3400 id), ⟨by decide, by decide, by decide, by decide, by decide,
      rfl⟩, by decide⟩,
    ⟨0, 0, 0x3600, false, (pw 0x3600 id), _, (pw 0x3600 id), ⟨by decide, by decide, by decide, by decide, by decide,
      rfl⟩, by decide, rfl⟩,
    ⟨0, 0, 0x4000, false, (pw 0x4000 id), _, (pw 0x4000 id), ⟨by decide, by decide, by decide, by decide, by decide,
      rfl⟩, rfl, .inl ⟨by decide, by decide⟩⟩,
    ⟨0, 0, 0x5010, false, (pw 0x5010 id), _, _, _, (pw 0x5010 id), ⟨by decide, by decide, by decide, by decide, by
      decide, rfl⟩, by decide, rfl, rfl, rfl⟩,
    ⟨0, 0, 0x6000, false, (pw 0x6000 id), _, (pw 0x6000 id), ⟨by decide, by decide, by decide, by decide, by decide,
      rfl⟩, by decide, rfl, by decide, by decide⟩,
    ⟨0, 0, 0x7010, false, (pw 0x7010 id), _, _, _, _, (pw 0x7010 id), ⟨by decide, by decide, by decide, by decide,
      by decide, rfl⟩, by decide, rfl, rfl, rfl, rfl⟩,
    ⟨0, 0, 0x8000, false, (pw 0x8000 (fun e => { e with tx := [7] })), _, 7, [], (pw 0x8000 (fun e =>
      { e with tx := [7] })), ⟨by decide, by decide, by decide, by decide, by decide, rfl⟩, by decide, rfl, by decide,
      by decide⟩,
    ⟨0, 0, 0x9000, false, (pw 0x9000 id), (pw 0x9000 id), ⟨by decide, by decide, by decide, by decide, by decide,
      rfl⟩, by decide⟩⟩

/-- A state and operands for each clause of `PewterRowsComplete`. -/
theorem witness_PewterRowsComplete :
    (∃ (p : Fin 32) (n : Nat) (s : State), peDue s p false = some n ∧ s.pes[p].hold ≠ 0) ∧
    (∃ (p : Fin 32) (n : Nat) (v : Byte) (s : State), peDue s p true = some n ∧ v = memGet (zeroMem 8) s.mem.lut
      (p.val * 256 + s.pes[p].lut.toNat * 16 + peInputs s p n)) ∧
    (∃ (req : Requester) (p : Fin 32) (v : Word) (s : State), Accepts s req (.pewter p 0x00) (v ||| 2)) ∧
    (∃ (v : Word), bit v 1 = true) ∧
    (∃ (req : Requester) (p : Fin 32) (v : Word) (s : State), Accepts s req (.pewter p 0x00) v) ∧
    (∃ (p : Fin 32) (v : Word) (z : State), bit v 0 = true ∧ bit v 1 = false ∧ peEn z p = false) ∧
    (∃ (v : Word), bit v 0 = false ∧ bit v 1 = false) ∧
    (∃ (req : Requester) (p : Fin 32) (v : Word) (s : State), Accepts s req (.pewter p 0x08) v ∧ s.pes[p].inj =
      none) ∧
    (∃ (p : Fin 32) (t : Nat) (w : PewterWord) (s : State), s.pes[p].inj = some (t, w) ∧ t + 1 = s.time.tick ∧ peEn
      s p = false ∧ pewtersOn s = true ∧ peLutMode s p = false ∧ s.pes[p].ir = none ∧ peLegal w = true) ∧
    (∃ (req : Requester) (p : Fin 32) (v : Word) (s : State), Accepts s req (.pewter p 0x10) v ∧ (lateView
      s).pes[p].tx.length + txOwed (lateView s) p < 4) ∧
    (∃ (p : Fin 32) (z : State), z.pes[p].tx.length + txOwed z p < 4) ∧
    (∃ (req : Requester) (p : Fin 32) (t : Nat) (h : Word) (l : List (Nat × Word)) (s : State), reaches s req
      (.pewter p 0x0F) = true ∧ capOf s req (.pewter p 0x0F) = none ∧ (serialChans s p).isEmpty = true ∧ rxPops s p =
      0 ∧ s.pes[p].rx = (t, h) :: l ∧ t < s.time.tick) ∧
    (∃ (req : Requester) (p : Fin 32) (v : Word) (s : State), Accepts s req (.pewter p 0x11) v) ∧
    (∃ (v : Word), bit v 23 = true) ∧
    (∃ (req : Requester) (p : Fin 32) (v : Word) (s : State), Accepts s req (.pewter p 0x12) v ∧ peEn s p = false ∧
      bit v 15 = true) ∧
    (∃ (p : Fin 32) (n : Nat) (w : PewterWord) (i : Bool) (s : State), peDue s p false = some n ∧ s.pes[p].hold = 0
      ∧ peWord s p n = some (w, i) ∧ peLegal w = false) :=
  ⟨⟨0, 0, (pw 0 (fun e => { e with hold := 3 })), by decide, by decide⟩,
    ⟨0, 0, _, (regs [(.pewter 0 0x01, 0x800000)] (pw 0 id)), by decide, rfl⟩,
    ⟨.host, 0, 1, rs, accepts_now (by decide)⟩,
    ⟨2, by decide⟩,
    ⟨.host, 0, 1, rs, accepts_now (by decide)⟩,
    ⟨0, 1, rs, by decide, by decide, by decide⟩,
    ⟨0, by decide, by decide⟩,
    ⟨.host, 0, 0, rs, accepts_now (by decide), by decide⟩,
    ⟨0, 0, 0, (tk 1 (pe (fun e => { e with inj := some (0, 0) }) rs)), by decide, by decide, by decide, by decide,
      by decide, by decide, by decide⟩,
    ⟨.host, 0, 0, rs, accepts_now (by decide), by decide⟩,
    ⟨0, rs, by decide⟩,
    ⟨.host, 0, 0, 7, [], (tk 1 (pe (fun e => { e with rx := [(0, 7)] }) rs)), by decide, by decide, by decide, by
      decide, by decide, by decide⟩,
    ⟨.host, 0, 0x800000, rs, accepts_now (by decide)⟩,
    ⟨0x800000, by decide⟩,
    ⟨.host, 0, 0x8000, rs, accepts_now (by decide), by decide, by decide⟩,
    ⟨0, 0, 0xF000, false, (pw 0xF000 id), by decide, by decide, by decide, by decide⟩⟩

/-- A state and operands for each clause of `AnalogueRowsComplete`. -/
theorem witness_AnalogueRowsComplete :
    (∃ (req : Requester) (r : Fin 4) (v : Word) (s : State), Accepts s req (.seqr r 0x3) v ∧ sqEn (lateView s) r
      (Fin.ofNat 64 (fld v 5 0)) = true ∧ fld (sqWord (lateView s) r (Fin.ofNat 64 (fld v 5 0)) 0) 22 20 = 0) ∧
    (∃ (r : Fin 4) (v : Word) (z : State), sqEn z r (Fin.ofNat 64 (fld v 5 0)) = true ∧ fld (sqWord z r (Fin.ofNat
      64 (fld v 5 0)) 0) 22 20 = 0) ∧
    (∃ (req : Requester) (r : Fin 4) (v : Word) (a : Word) (e : Fin 64) (s : State), Accepts s req (.seqr r 0x2) v ∧
      a = selOf s req (.seqr r 0x1) ∧ e = Fin.ofNat 64 (fld a 7 2) ∧ fld a 1 0 ≠ 3 ∧ ((sqEn (lateView s) r e = false ∧
      (fld a 1 0 ≠ 0 ∨ bit v 23 = false ∨ sqEntryBad (lateView s) v (sqWord (lateView s) r e 1) (sqWord (lateView s) r
      e 2) = false)) ∨ (fld a 1 0 = 0 ∧ bit v 23 = false))) ∧
    (∃ (r : Fin 4) (a : Word) (e : Fin 64) (z : State), e = Fin.ofNat 64 (fld a 7 2) ∧ (fld a 1 0 = 1 ∨ fld a 1 0 =
      2) ∧ sqEn z r e = false) ∧
    (∃ (a : Word) (v : Word) (e : Fin 64), e = Fin.ofNat 64 (fld a 7 2) ∧ fld a 1 0 = 0 ∧ bit v 23 = false) ∧
    (∃ (r : Fin 4) (a : Word) (v : Word) (e : Fin 64) (z : State), e = Fin.ofNat 64 (fld a 7 2) ∧ fld a 1 0 = 0 ∧
      sqEn z r e = false ∧ bit v 23 = true ∧ sqEntryBad z v (sqWord z r e 1) (sqWord z r e 2) = false) ∧
    (∃ (req : Requester) (r : Fin 4) (v : Word) (s : State), Accepts s req (.seqr r 0x0) v) ∧
    (∃ (req : Requester) (a : Fin 32) (v : Word) (s : State), Accepts s req (.adc a 0x1) v) ∧
    (∃ (r : Fin 4) (t : Trigger) (z : State) (y : State) (s : State), adcOn s = true ∧ z = updSeq s r (fun q =>
      { q with pend := q.pend.filter (fun t => decide (s.time.tick < t.at_) || !(usable s r t.entry).isEmpty) }) ∧
      firstReady z r [] z.seqs[r].pend = some t ∧ y = (usable z r t.entry).foldl (fun x a => updAdc x a (fun v =>
      { v with freeAt := s.time.tick + 80, flight := v.flight ++ [⟨s.time.tick, now s, reg s (.adc a 0x0), some (t.entry, s.seqs[r].counts[t.entry], Fin.ofNat 16 (fld (sqWord s r t.entry 2) 15 12)), decide (t.at_ < s.time.tick), t.jump⟩] }))
      (updSeq z r (fun q => { q with pend := q.pend.erase t, lastEntry := t.entry, lastT := now s }))) ∧
    (∃ (r : Fin 4) (t : Trigger) (y : State) (s : State), adcOn s = true ∧ s.seqs[r].pend = [t] ∧ t.at_ ≤
      s.time.tick ∧ usable s r t.entry ≠ [] ∧ (∀ a ∈ usable s r t.entry, s.adcs[a].freeAt ≤ s.time.tick) ∧ y = (usable
      s r t.entry).foldl (fun x a => updAdc x a (fun v =>
      { v with freeAt := s.time.tick + 80, flight := v.flight ++ [⟨s.time.tick, now s, reg s (.adc a 0x0), some (t.entry, s.seqs[r].counts[t.entry], Fin.ofNat 16 (fld (sqWord s r t.entry 2) 15 12)), decide (t.at_ < s.time.tick), t.jump⟩] }))
      (updSeq s r (fun q => { q with pend := [], lastEntry := t.entry, lastT := now s }))) ∧
    (∃ (a : Fin 32) (vp : Int) (vn : Int) (x : Sample) (l : List Sample) (w : Word) (s : State), s.adcs[a].flight =
      x :: l ∧ adcOn s = true ∧ s.time.tick ≥ x.at_ + 72 ∧ x.src = none ∧ w = resultWord x.late x.jump ((regionOfAdc
      a).val * 24 + fld x.cfg 4 0) (adcCode (if fld x.cfg 12 8 = 0x1F then vp else vp - vn))) ∧
    (∃ (a : Fin 32) (vp : Int) (vn : Int) (x : Sample) (l : List Sample) (w : Word) (e : Fin 64) (n : BitVec 18) (g
      : Fin 16) (s : State), s.adcs[a].flight = x :: l ∧ adcOn s = true ∧ s.time.tick ≥ x.at_ + 72 ∧ x.src = some (e,
      n, g) ∧ w = resultWord x.late x.jump ((regionOfAdc a).val * 24 + fld x.cfg 4 0) (adcCode (if fld x.cfg 12 8 =
      0x1F then vp else vp - vn))) ∧
    (∃ (req : Requester) (a : Fin 32) (s : State), reaches s req (.adc a 0x2) = true ∧ capOf s req (.adc a 0x2) =
      none) ∧
    (∃ (w : Fin 64) (s : State), compReady s w = true) ∧
    (∃ (w : Fin 64) (uV : Int) (z : State) (cnt : Zone → Nat) (s : State), compReady s w = true ∧ regFld s (.comp w
      0x4) 7 4 ≠ 0 ∧ filterTick s w = true ∧ z = updComp (judge s w uV) w (fun c =>
      { c with samples := (rawZone c :: c.samples).take (regFld s (.comp w 0x4) 7 4) }) ∧ cnt = (fun k =>
      (z.comps[w].samples.filter (fun y => decide (y = k))).length)) ∧
    (∃ (w : Fin 64) (t : Nat) (s : State), s.comps[w].settleEnd = some t ∧ alive s = true ∧ t ≤ s.time.tick) ∧
    (∃ (req : Requester) (w : Fin 64) (v : Word) (s : State), Accepts s req (.comp w 0x0) v) ∧
    (∃ (w : Fin 64) (v : Word) (z : State), bit v 0 = true ∧ regBit z (.comp w 0x0) 0 = false) ∧
    (∃ (v : Word), bit v 0 = false) ∧
    (∃ (req : Requester) (w : Fin 64) (hi : Bool) (v : Word) (s : State), Accepts s req (.comp w (if hi then 0x3
      else 0x2)) v) ∧
    (∃ (w : Fin 64) (v : Word) (z : State), regFld z (.comp w 0x2) 9 0 ≤ fld v 9 0) ∧
    (∃ (w : Fin 64) (v : Word) (z : State), fld v 9 0 ≤ regFld z (.comp w 0x3) 9 0) :=
  ⟨⟨.host, 0, 0, (ent 0x800000 0 0 rs), accepts_now (by decide), by decide, by decide⟩,
    ⟨0, 0, (ent 0x800000 0 0 rs), by decide, by decide⟩,
    ⟨.host, 0, 0, 1, 0, (setSel rs .host (.seqr 0 1) 1), accepts_now (by decide), by decide, by decide, by decide,
      by decide⟩,
    ⟨0, 1, 0, rs, by decide, by decide, by decide⟩,
    ⟨0, 0, 0, by decide, by decide, by decide⟩,
    ⟨0, 0, 0x800000, 0, (ent 0 0 0x010000 rs), by decide, by decide, by decide, by decide, by decide⟩,
    ⟨.host, 0, 1, rs, accepts_now (by decide)⟩,
    ⟨.host, 0, 1, rs, accepts_now (by decide)⟩,
    ⟨0, (⟨0, 5, false⟩), _, _, (tk 10 (sq (fun q => { q with pend := [⟨0, 5, false⟩] }) (ent 0x800000 0 0x010000
      (regs [(.adc 0 0x1, 1)] rs)))), by decide, rfl, by decide, rfl⟩,
    ⟨0, (⟨0, 5, false⟩), _, (tk 10 (sq (fun q => { q with pend := [⟨0, 5, false⟩] }) (ent 0x800000 0 0x010000 (regs
      [(.adc 0 0x1, 1)] rs)))), by decide, by decide, by decide, by decide, by decide, rfl⟩,
    ⟨0, 900000, 0, (⟨0, 0, 0, none, false, false⟩), [], _, (tk 72 (ad (fun v =>
      { v with flight := [⟨0, 0, 0, none, false, false⟩] }) rs)), by decide, by decide, by decide, by decide, rfl⟩,
    ⟨0, 900000, 0, (⟨0, 0, 0, some (0, 0, 0), false, false⟩), [], _, 0, 0, 0, (tk 72 (ad (fun v =>
      { v with flight := [⟨0, 0, 0, some (0, 0, 0), false, false⟩] }) rs)), by decide, by decide, by decide, by
      decide, rfl⟩,
    ⟨.host, 0, rs, by decide, by decide⟩,
    ⟨0, (regs [(.comp 0 0x0, 1)] rs), by decide⟩,
    ⟨0, 0, _, _, (regs [(.comp 0 0x0, 1), (.comp 0 0x4, 0x10)] rs), by decide, by decide, by decide, rfl, rfl⟩,
    ⟨0, 0, (cp (fun c => { c with settleEnd := some 0 }) rs), by decide, by decide, by decide⟩,
    ⟨.host, 0, 1, rs, accepts_now (by decide)⟩,
    ⟨0, 1, rs, by decide, by decide⟩,
    ⟨0, by decide⟩,
    ⟨.host, 0, true, 1023, rs, accepts_now (by decide)⟩,
    ⟨0, 1023, rs, by decide⟩,
    ⟨0, 0, rs, by decide⟩⟩

/-- A state and operands for each clause of `LinkRowsComplete`. -/
theorem witness_LinkRowsComplete :
    (∃ (s : State), elcOn s = true ∧ s.elc.role = .master ∧ s.elc.frameNo ≠ frameNow s) ∧
    (∃ (p : Port) (bs : List Byte) (a : T16) (z : State) (y : State) (s : State), elcOn s = true ∧ portOn s p = true
      ∧ (portOf s p).locked = true ∧ (portOf s p).st = .up ∧ bs.length = 250 ∧ due s (plus (tickPart a) 794) = true ∧
      frameCrc bs = BitVec.ofNat 32 (beAt bs 246 4) ∧ ctrlFld bs 15 14 = 1 ∧ (ctrlBit bs 12 = true ∨ ctrlBit bs 13 =
      true ∨ p = .b) ∧ s.elc.role ≠ .master ∧ z = measureFrame (forwardFrame (updPort (updPort s p (fun x =>
      { x with crcRun := (false :: (portOf s p).crcRun).take 16, missRun := 0 })) p (fun x =>
      { x with offset := some (a - frameF (frameNoOf bs)).toInt, frameNo := some (frameNoOf bs) })) p bs a (plus
      (tickPart a) 794) false) p bs a ∧ accepts z (BitVec.ofNat 5 (ctrlFld bs 9 5)) = true ∧ (((false :: (portOf s
      p).crcRun).take 16).filter id).length < 8 ∧ y = closeFrame (useFrame (noteFrame z bs) p bs (plus (tickPart a)
      794)) (frameNoOf bs) (plus (tickPart a) 794)) ∧
    (∃ (p : Port) (bs : List Byte) (a : T16) (s : State), elcOn s = true ∧ portOn s p = true ∧ (portOf s p).locked =
      true ∧ (portOf s p).st = .up ∧ bs.length = 250 ∧ due s (plus (tickPart a) 794) = true ∧ frameCrc bs =
      BitVec.ofNat 32 (beAt bs 246 4) ∧ ctrlFld bs 15 14 = 1 ∧ (ctrlBit bs 12 = true ∨ ctrlBit bs 13 = true ∨ p = .b)
      ∧ s.elc.role = .master ∧ (nodeId s).toNat < ctrlFld bs 9 5 ∧ (((false :: (portOf s p).crcRun).take 16).filter
      id).length < 8) ∧
    (∃ (p : Port) (k : Nat) (o : Int) (z : State) (s : State), (portOf s p).frameNo = some k ∧ (portOf s p).offset =
      some o ∧ elcOn s = true ∧ portOn s p = true ∧ after (now s) (tickPart (frameF (k + 1) + BitVec.ofInt 52 (o +
      1024))) = true ∧ z = updPort (bump s (match p with | .a => .link 0x09 | .b => .link 0x0A) 11 0 1) p (fun y =>
      { y with frameNo := some (k + 1), missRun := y.missRun + 1, validRun := 0 })) ∧
    (∃ (p : Port) (s : State), elcOn s = true ∧ portOn s p = true ∧ (portOf s p).locked = true) ∧
    (∃ (p : Port) (s : State), elcOn s = true ∧ portOn s p = true ∧ (portOf s p).locked = false ∧ (portOf s
      p).crossed = false) ∧
    (∃ (s : State), elcOn s = true ∧ s.elc.heard = true ∧ s.elc.role = .backup ∧ due s (BitVec.ofNat 48 (800 *
      (s.elc.frameNo + 3))) = true) ∧
    (∃ (q : Nat) (s : State), s.elc.quietFrom = some q ∧ elcOn s = true ∧ isCandidate s = true ∧ s.elc.role ≠
      .master ∧ q + (16 + 4 * (nodeId s).toNat) * 800 ≤ s.time.tick ∧ (now s).toNat % 800 ≠ 0) ∧
    (∃ (req : Requester) (v : Word) (s : State), Accepts s req (.link 0x00) v) ∧
    (∃ (v : Word) (p : Port) (z : State), bit v 0 = true ∧ portOn z p = false ∧ portOn (setReg z (.link 0x00) (v &&&
      7)) p = true) ∧
    (∃ (v : Word), bit v 0 = false) ∧
    (∃ (req : Requester) (v : Word) (s : State), Accepts s req (.link 0x22) v) :=
  ⟨⟨(tk 800 (no (fun e => { e with role := .master, frameNo := 0 }) rs)), by decide, by decide, by decide⟩,
    ⟨.a, fr, 0, _, _, (tk 800 (po (fun x => { x with st := .up, locked := true }) rs)), by decide, by decide, by
      decide, by decide, by decide, by decide, fr_crc, by decide, by decide, by decide, rfl, by decide, by decide,
      rfl⟩,
    ⟨.a, fr1, 0, (tk 800 (po (fun x => { x with st := .up, locked := true }) (updElc rs (fun e =>
      { e with role := .master })))), by decide, by decide, by decide, by decide, by decide, by decide, fr1_crc, by
      decide, by decide, by decide, by decide, by decide⟩,
    ⟨.a, 0, 0, _, (tk 2000 (po (fun x => { x with frameNo := some 0, offset := some 0 }) rs)), by decide, by decide,
      by decide, by decide, by decide, rfl⟩,
    ⟨.a, (tk 800 (po (fun x => { x with st := .up, locked := true }) rs)), by decide, by decide, by decide⟩,
    ⟨.a, (po id rs), by decide, by decide, by decide, by decide⟩,
    ⟨(tk 2400 (no (fun e => { e with heard := true, role := .backup, frameNo := 0 }) rs)), by decide, by decide, by
      decide, by decide⟩,
    ⟨0, (tk 100001 (no (fun e => { e with quietFrom := some 0 }) (regs [(.link 0x01, 0x20)] rs))), by decide, by
      decide, by decide, by decide, by decide, by decide⟩,
    ⟨.host, 0, rs, accepts_now (by decide)⟩,
    ⟨3, .a, rs, by decide, by decide, by decide⟩,
    ⟨0, by decide⟩,
    ⟨.host, 5, rs, accepts_now (by decide)⟩⟩

/-- A state and operands for each clause of `FaultRowsComplete`. -/
theorem witness_FaultRowsComplete :
    (∃ (k : Byte) (s : State), classDefined k.toNat = true ∧ collectorOn s = true ∧ k.toNat ∉ [0x01, 0x02, 0x03,
      0x1C, 0x1D, 0x21, 0x2A]) ∧
    (∃ (s : State), collectorOn s = true) ∧
    (∃ (i : Fin 512) (r : Fin 4) (s : State), collectorOn s = true ∧ r = Fin.ofNat 4 i.val) ∧
    (∃ (i : Fin 512) (d : Word) (r : Fin 4) (s : State), collectorOn s = true ∧ fld d 23 20 = 2 ∧ r = Fin.ofNat 4
      i.val) ∧
    (∃ (x : Scope) (y : ScopeState) (s : State), s.flt.scopes.find? (fun y => decide (y.scope = x)) = some y ∧
      collectorOn s = true ∧ y.latched = false ∧ activeCond s x = false ∧ y.quietFrom + quietOf s x ≤ s.time.tick ∧
      exitCount s x < recoveryLimit s x) ∧
    (∃ (x : Scope) (y : ScopeState) (s : State), s.flt.scopes.find? (fun y => decide (y.scope = x)) = some y ∧
      collectorOn s = true ∧ y.latched = false ∧ activeCond s x = false ∧ y.quietFrom + quietOf s x ≤ s.time.tick ∧
      recoveryLimit s x ≤ exitCount s x) ∧
    (∃ (s : State), s.flt.pin = true ∧ s.flt.pinReleased = true ∧ s.flt.pinUntil ≤ s.time.tick) ∧
    (∃ (s : State), s.flt.safeReqLow = false) :=
  ⟨⟨0x10, rs, by decide, by decide, by decide⟩,
    ⟨rs, by decide⟩,
    ⟨5, _, rs, by decide, rfl⟩,
    ⟨5, 0x200000, _, rs, by decide, by decide, rfl⟩,
    ⟨(.cell 0), (ss (.cell 0)), (tk 100000000 (held (.cell 0) false rs)), by decide, by decide, by decide, by
      decide, by decide, by decide⟩,
    ⟨(.cell 0), (ss (.cell 0)), (tk 100000000 (held (.cell 0) false (regs [(.faults 0x06, 0)] rs))), by decide, by
      decide, by decide, by decide, by decide, by decide⟩,
    ⟨({ rs with flt := { rs.flt with pin := true, pinReleased := true, pinUntil := 0 } }), by decide, by decide, by
      decide⟩,
    ⟨rs, by decide⟩⟩

/-- A state and operands for each clause of `ModeRowsComplete`. -/
theorem witness_ModeRowsComplete :
    (∃ (s : State), s.sys.mode = .retention) ∧
    (∃ (n : Nat) (l : List (Nat × Byte)) (s : State), s.boot.steps = (n, 4) :: l ∧ s.sys.mode = .boot ∧ n ≤
      s.time.tick ∧ s.boot.find.bankIntact = false) ∧
    (∃ (i : ImageInfo) (s : State), s.boot.flow = .ready i ∧ s.sys.mode = .boot ∧ s.time.clk.coreLost = false) ∧
    (∃ (k : Byte) (s : State), s.sys.mode = .boot ∧ s.time.clk.coreLost = false ∧ (k = 1 ∨ k = 2 ∨ (s.boot.flow =
      .failed ∧ k = s.boot.result)) ∧ s.boot.flow ≠ .stopped) ∧
    (∃ (z : State) (s : State), s.sys.mode ≠ .retention ∧ z =
      (match s.life.writing with | some w => updLife s (fun l => { putSlot l w.n none with writing := none }) | none => s)) ∧
    (∃ (c : PowerCause) (z : State) (s : State), s.sys.mode ≠ .retention ∧ s.sys.mode ≠ .powerFail ∧
      s.time.clk.coreLost = false ∧ s.sys.mode ≠ .boot ∧ z = raiseIrq
      { s with sys := { s.sys with mode := .powerFail }, pins := { s.pins with pfwN := decide (c ≠ .pfwN) } } 4) ∧
    (∃ (s : State), s.sys.mode = .powerFail ∧ s.life.writing = none ∧ s.pins.pwrOk = true ∧ (List.finRange 24).any
      (monBeyond s) = false) ∧
    (∃ (s : State), s.sys.mode ≠ .retention ∧ s.time.clk.coreLost = false ∧ debugAllowed s = true ∧ haltable
      s.sys.mode = true) ∧
    (∃ (n : Nat) (s : State), s.sys.mode = .halt ∧ debugAllowed s = true ∧ n = s.time.tick - s.sys.haltTick) :=
  ⟨⟨(md .retention rs), by decide⟩,
    ⟨0, [], (md .boot { rs with boot := { rs.boot with steps := [(0, 4)], find := bf false } }), by decide, by
      decide, by decide, by decide⟩,
    ⟨img, (md .boot { rs with boot := { rs.boot with flow := .ready img } }), by decide, by decide, by decide⟩,
    ⟨1, (md .boot { rs with boot := { rs.boot with flow := .waiting } }), by decide, by decide, by decide, by
      decide⟩,
    ⟨_, (lw rs), by decide, rfl⟩,
    ⟨.pfwN, _, (md .run rs), by decide, by decide, by decide, by decide, rfl⟩,
    ⟨pfail, by decide, by decide, by decide, pfail_inside⟩,
    ⟨(dbg (md .run rs)), by decide, by decide, by decide, by decide⟩,
    ⟨60, (tk 100 (dbg (md .halt { rs with sys := { rs.sys with haltTick := 40 } }))), by decide, by decide, by
      decide⟩⟩

/-- A state and operands for each clause of `SecurityRowsComplete`. -/
theorem witness_SecurityRowsComplete :
    (∃ (s : State), s.sys.mode ≠ .retention ∧ s.time.clk.coreLost = false) ∧
    (∃ (s : State), (s.sys.mode = .boot ∨ s.sys.mode = .configure)) ∧
    (∃ (s : State), s.sys.mode ≠ .retention) ∧
    (∃ (m : MemId) (n : Fin 32) (i : Nat) (s : State), alive s = true ∧ s.sys.mode ≠ .powerFail ∧ i = n.val %
      (memShape m).1 ∧ bankWaits s m i (scrubAt s m i) = false ∧ eccBad s m (if m = .ringMem then 0 else i) (scrubAt s
      m i) = false) ∧
    (∃ (m : MemId) (n : Fin 32) (i : Nat) (s : State), alive s = true ∧ s.sys.mode ≠ .powerFail ∧ i = n.val %
      (memShape m).1 ∧ bankWaits s m i (scrubAt s m i) = false) ∧
    (∃ (n : Fin 4) (s : State), tamperArmed s (.input n) = true) ∧
    (∃ (s : State), tamperArmed s .mesh = true) ∧
    (∃ (s : State), alive s = true ∧ s.sec.rebuild = true) ∧
    (∃ (s : State), alive s = true ∧ debugAllowed s = true) ∧
    (∃ (b : Fin 32) (a : Fin 4096) (s : State), alive s = true ∧ debugAllowed s = true ∧ eccBad s .controlStore
      b.val a.val = false) :=
  ⟨⟨rs, by decide, by decide⟩,
    ⟨rs, by decide⟩,
    ⟨rs, by decide⟩,
    ⟨.controlStore, 31, 31, rs, by decide, by decide, by decide, by decide, by decide⟩,
    ⟨.pewterStore, 9, 1, rs, by decide, by decide, by decide, by decide⟩,
    ⟨3, (regs [(.chip 0x43, 0x40)] rs), by decide⟩,
    ⟨(regs [(.chip 0x43, 0x100)] rs), by decide⟩,
    ⟨({ rs with sec := { rs.sec with rebuild := true } }), by decide, by decide⟩,
    ⟨(dbg rs), by decide, by decide⟩,
    ⟨0, 0, (dbg rs), by decide, by decide, by decide⟩⟩

/-- A state and operands for each clause of `LifeRowsComplete`. -/
theorem witness_LifeRowsComplete :
    (∃ (z : State) (y : State) (s : State), z =
      { s with life := { s.life with cal := (if s.life.setTick = some s.time.tick then s.life.cal else s.life.cal + 1), secTick := s.time.tick } }
      ∧ y = (if (z.life.cal).toNat % 32 = 0 then updLife z (fun l =>
      { l with trim := (shadowAt z (.life 0x07) s.time.tick).setWidth 9 }) else z) ∧ alive s = true) ∧
    (∃ (ok : Bool) (s : State), s.sys.mode ≠ .retention ∧ s.time.clk.coreLost = false ∧ s.life.writing.isSome = true
      ∧ s.life.writeTick < s.time.tick ∧ s.sec.job = none ∧ (endCommit ok s).sec.job = none) ∧
    (∃ (h : HistEntry) (l : List HistEntry) (s : State), alive s = true ∧ s.life.histQueue = h :: l) ∧
    (∃ (req : Requester) (v : Word) (s : State), Accepts s req (.life 0x0C) v) ∧
    (∃ (m : Fin 24) (s : State), monsOn s = true ∧ m.val < 8) ∧
    (∃ (m : Fin 24) (s : State), monsOn s = true ∧ 8 ≤ m.val ∧ m.val < 20) ∧
    (∃ (r : Fin 4) (v : Int) (z : State) (s : State), monsOn s = true ∧ z = monSample (Fin.ofNat 24 (20 + r.val)) v
      s ∧ calHeld z r = false) ∧
    (∃ (n : Fin 8) (vz : Nat) (i : Nat) (lim : Bool) (k : Nat) (z : State) (s : State), alive s = true ∧ k = (if lim
      then min 11 (s.excs[n].limRun + 1) else 0) ∧ z = (if 10 < k then orReg (updExc s n (fun x =>
      { x with ledger := (vz * i :: x.ledger).take 1000, limRun := k })) (.chip 0x99) (2 ^ n.val) else updExc s n (fun
      x => { x with ledger := (vz * i :: x.ledger).take 1000, limRun := k }))) ∧
    (∃ (req : Requester) (v : Word) (s : State), Accepts s req (.chip 0x98) v) ∧
    (∃ (req : Requester) (k : Fin 16) (v : Word) (s : State), Accepts s req (.chip (0x80 + k.val)) v ∧ partnerTaken
      s k (fld v 8 0) = false) ∧
    (∃ (z : State) (s : State), s.sys.mode = .retention ∧ z = [0x43, 0x44, 0x45, 0x46].foldl (fun y o => setReg y
      (.chip o) 0) s) :=
  ⟨⟨_, _, rs, rfl, rfl, by decide⟩,
    ⟨true, (lw { rs with time := { rs.time with tick := 1 } }), by decide, by decide, by decide, by decide, by
      decide, by decide⟩,
    ⟨he, ([]), ({ rs with life := { rs.life with histQueue := [he] } }), by decide, rfl⟩,
    ⟨.host, 0, rs, accepts_now (by decide)⟩,
    ⟨7, rs, by decide, by decide⟩,
    ⟨19, rs, by decide, by decide⟩,
    ⟨0, 0, _, rs, by decide, rfl, by decide⟩,
    ⟨0, 1, 1, true, _, _, rs, by decide, rfl, rfl⟩,
    ⟨.host, 0, rs, accepts_now (by decide)⟩,
    ⟨.host, 0, 0, rs, accepts_now (by decide), by decide⟩,
    ⟨_, (md .retention rs), by decide, rfl⟩⟩

/-- A state and operands for each clause of `LineTimeOrder`. -/
theorem witness_LineTimeOrder :
    (∃ (a : Time) (b : Time), ((a.toNat : Int) - b.toNat) % 2 ^ 48 = 2 ^ 47) ∧
    (∃ (s : State) (t : Time), ((t.toNat : Int) - (now s).toNat) % 2 ^ 48 = 2 ^ 47) :=
  ⟨⟨0x800000000000, 0, by decide⟩,
    ⟨rs, 0x800000000000, by decide⟩⟩

/-- A state and operands for each clause of `LineTimeReads`. -/
theorem witness_LineTimeReads :
    (∃ (s : State) (who : Requester), capOf s who (.chip 0x24) = none) ∧
    (∃ (s : State) (who : Requester) (w : Word), capOf s who (.chip 0x25) = some w) ∧
    (∃ (s : State) (who : Requester), capOf s who (.chip 0x25) = none) :=
  ⟨⟨rs, .host, by decide⟩,
    ⟨(setCap rs .host (.chip 0x25) 5), .host, 5, by decide⟩,
    ⟨rs, .host, by decide⟩⟩

/-- A state and operands for each clause of `SideFieldPrevails`. -/
theorem witness_SideFieldPrevails :
    (∃ (s : State) (z : State) (y : State) (p : Fin 32) (op : Nat) (n : Nat) (w : PewterWord) (i : Bool) (o : BitVec
      16) (target : Option (BitVec 6)), PeTakes s p op n w i z ∧ peTry z p n w = ⟨y, true, o, target⟩) ∧
    (∃ (s : State) (p : Fin 32) (o : BitVec 16), o ≠ s.pes[p].out) :=
  ⟨⟨(pw 0x0008 id), (pw 0x0008 id), (pw 0x0008 id), 0, 0, 0, 0x0008, false, 0, none, ⟨by decide, by decide, by
      decide, by decide, by decide, rfl⟩, rfl⟩,
    ⟨rs, 0, 1, by decide⟩⟩

/-- A state and operands for each clause of `RestartClears`. -/
theorem witness_RestartClears :
    (∃ (req : Requester) (p : Fin 32) (v : Word) (s : State), Accepts s req (.pewter p 0x00) (v ||| 2)) ∧
    (∃ (v : Word) (s : State), Memory.wf regReset s.par.reg = true ∧ bit v 0 = true ∧ bit v 1 = true) :=
  ⟨⟨.host, 0, 1, rs, accepts_now (by decide)⟩,
    ⟨3, rs, by decide, by decide, by decide⟩⟩

/-- A state and operands for each clause of `ThresholdsStayOrdered`. -/
theorem witness_ThresholdsStayOrdered :
    (∃ (req : Requester) (w : Fin 64) (hi : Bool) (v : Word) (s : State) (t : State), s.flt.reports = [] ∧ (∀ k :
      Fin 64, regFld s (.comp k 0x2) 9 0 ≤ regFld s (.comp k 0x3) 9 0) ∧ exec (.wcThrWrite req w hi v) s = .next t) ∧
    (∃ (req : Requester) (w : Fin 64) (hi : Bool) (low : Word) (v : Word) (s : State) (t : State), Memory.wf
      regReset s.par.reg = true ∧ (∀ k : Fin 64, regFld s (.comp k 0x2) 9 0 ≤ regFld s (.comp k 0x3) 9 0) ∧ Acts s req
      low (.comp w (if hi then 0x3 else 0x2)) v = t) :=
  ⟨⟨.host, 0, true, 1023, rs, _, by decide, by decide, rfl⟩,
    ⟨.host, 0, true, 0, 1023, rs, _, by decide, by decide, rfl⟩⟩

/-- A state and operands for each clause of `AliasWrites`. -/
theorem witness_AliasWrites :
    (∃ (e : Entry) (b : Fin 32) (w : Nat) (k : RamAlias) (s : State) (z : State), Takes s 0x11 e z ∧ w < 0x2000 ∧
      e.a0.toNat = paOf (.pram b w k)) ∧
    (∃ (b : Fin 32) (w : Nat) (z : State), w < 0x2000 ∧ eccBad z .paramRam b.val w = false ∧ Memory.wf pramReset
      z.mem.pram = true) :=
  ⟨⟨(cm (BitVec.ofNat 24 (paOf (.pram 0 5 .set))) 1), 0, 5, .set, (qs 0x11 (cm (BitVec.ofNat 24 (paOf (.pram 0 5
      .set))) 1) rs), (qz 0x11 (cm (BitVec.ofNat 24 (paOf (.pram 0 5 .set))) 1) rs), takes_now (by decide), by decide,
      by decide⟩,
    ⟨0, 5, rs, by decide, by decide, by decide⟩⟩

/-- A state and operands for each clause of `HostBytesStored`. -/
theorem witness_HostBytesStored :
    (∃ (off : BitVec 21) (bs : List Byte) (s : State), hostUp s = true ∧ overSpi s = false ∧ 0x10000 ≤ off.toNat ∧
      bs ≠ [] ∧ off.toNat + bs.length ≤ 0x200000 ∧ s.flt.reports = [] ∧ s.mem.ecc = [] ∧ Memory.wf (zeroMem 8)
      s.mem.ring = true) :=
  ⟨0x10000, ([1]), rs, by decide, by decide, by decide, by decide, by decide, by decide, by decide, by decide⟩

/-- A state and operands for each clause of `StoredRegistersFrame`. -/
theorem witness_StoredRegistersFrame :
    (∃ (req : Requester) (a : Fin 32) (v : Word) (s : State), Accepts s req (.adc a 0x1) v) ∧
    (∃ (z : State), Memory.wf regReset z.par.reg = true) ∧
    (∃ (v : Word) (z : State), Memory.wf regReset z.par.reg = true ∧ bit v 0 = true) ∧
    (∃ (w : Fin 64) (v : Word) (z : State), Memory.wf regReset z.par.reg = true ∧ regFld z (.comp w 0x2) 9 0 ≤ fld v
      9 0) ∧
    (∃ (req : Requester) (k : Fin 16) (v : Word) (s : State), s.flt.reports = [] ∧ Memory.wf regReset s.par.reg =
      true ∧ Accepts s req (.chip (0x80 + k.val)) v ∧ partnerTaken s k (fld v 8 0) = false) :=
  ⟨⟨.host, 0, 1, rs, accepts_now (by decide)⟩,
    ⟨rs, by decide⟩,
    ⟨1, rs, by decide, by decide⟩,
    ⟨0, 1023, rs, by decide, by decide⟩,
    ⟨.host, 0, 0, rs, by decide, by decide, accepts_now (by decide), by decide⟩⟩

/-- A state and operands for each clause of `CompletionFrame`. -/
theorem witness_CompletionFrame :
    (∃ (t : Status), logged t = false) :=
  ⟨.ok, by decide⟩

/-- A state and operands for each clause of `NotAParameter`. -/
theorem witness_NotAParameter :
    (∃ (pa : Nat), (locate pa = none ∨ ∃ l, locate pa = some l ∧ paramInfo l = none)) ∧
    (∃ (e : Entry) (s : State) (z : State), Takes s 0x10 e z ∧ (locate e.a0.toNat = none ∨ ∃ l, locate e.a0.toNat =
      some l ∧ paramInfo l = none)) ∧
    (∃ (e : Entry) (s : State) (z : State), Takes s 0x11 e z ∧ (locate e.a0.toNat = none ∨ ∃ l, locate e.a0.toNat =
      some l ∧ paramInfo l = none)) ∧
    (∃ (op : Byte), (op = 0x10 ∨ op = 0x11)) :=
  ⟨⟨0xFFFFFF, .inl (by decide)⟩,
    ⟨(cm 0xFFFFFF), (qs 0x10 (cm 0xFFFFFF) rs), (qz 0x10 (cm 0xFFFFFF) rs), takes_now (by decide), .inl (by decide)⟩,
    ⟨(cm 0xFFFFFF), (qs 0x11 (cm 0xFFFFFF) rs), (qz 0x11 (cm 0xFFFFFF) rs), takes_now (by decide), .inl (by decide)⟩,
    ⟨0x10, by decide⟩⟩

/-- A state and operands for each clause of `StaticLocked`. -/
theorem witness_StaticLocked :
    (∃ (s : State) (pa : Nat) (l : PLoc) (i : PInfo), locate pa = some l ∧ paramInfo l = some i ∧ i.cls = .s ∧
      staticOpen s l = false) ∧
    (∃ (e : Entry) (s : State) (z : State) (l : PLoc) (i : PInfo), Takes s 0x11 e z ∧ locate e.a0.toNat = some l ∧
      paramInfo l = some i ∧ i.cls = .s ∧ staticOpen z l = false) :=
  ⟨⟨(regs [(.adc 0 0x1, 1)] (md .run rs)), (paOf (.adc 0 0x0)), (.adc 0 0x0), ((paramInfo (.adc 0 0x0)).getD ⟨.s,
      0, 0, 0, 0, 0⟩), by decide, someD (by decide), by decide, by decide⟩,
    ⟨(cm (BitVec.ofNat 24 (paOf (.adc 0 0x0)))), (qs 0x11 (cm (BitVec.ofNat 24 (paOf (.adc 0 0x0)))) (regs [(.adc 0
      0x1, 1)] (md .run rs))), (qz 0x11 (cm (BitVec.ofNat 24 (paOf (.adc 0 0x0)))) (regs [(.adc 0 0x1, 1)] (md .run
      rs))), (.adc 0 0x0), ((paramInfo (.adc 0 0x0)).getD ⟨.s, 0, 0, 0, 0, 0⟩), takes_now (by decide), by decide,
      someD (by decide), by decide, by decide⟩⟩

/-- A state and operands for each clause of `LowWordsWait`. -/
theorem witness_LowWordsWait :
    (∃ (s : State) (c : Fin 512) (o : Nat), (o = 0x02 ∨ o = 0x04) ∧ cellEn s c = false) ∧
    (∃ (s : State) (c : Fin 512), cellHeld s c = false ∧ cellEn s c = false) :=
  ⟨⟨rs, 0, 0x04, by decide, by decide⟩,
    ⟨rs, 0, by decide, by decide⟩⟩

/-- A state and operands for each clause of `RecordsInOrder`. -/
theorem witness_RecordsInOrder :
    (∃ (l : List Placed), l.Pairwise (fun a b => a.tick < b.tick ∨ (a.tick = b.tick ∧ a.tier ≤ b.tier))) :=
  ⟨([⟨1, 4, 22, ⟨0x01, 0, 0, 0, 0⟩⟩, ⟨1, 5, 22, ⟨0x01, 0, 0, 0, 0⟩⟩]), by decide⟩

/-- A state and operands for each clause of `AcknowledgeFault`. -/
theorem witness_AcknowledgeFault :
    (∃ (e : Entry) (s : State) (z : State), Takes s 0x61 e z) :=
  ⟨(cm 0x800000), (qs 0x61 (cm 0x800000) (rs)), (qz 0x61 (cm 0x800000) (rs)), takes_now (by decide)⟩

/-- A state and operands for each clause of `WipeChangesNoOutput`. -/
theorem witness_WipeChangesNoOutput :
    (∃ (s : State) (cause : Nat), cause < 16 ∧ Memory.wf regReset s.par.reg = true) :=
  ⟨rs, 15, by decide, by decide⟩

/-- A state and operands for each clause of `FaultPinAsserted`. -/
theorem witness_FaultPinAsserted :
    (∃ (s : State) (lvl : Nat), regFld s (.faults 0x00) 18 16 ≤ lvl) ∧
    (∃ (s : State) (lvl : Nat), lvl < regFld s (.faults 0x00) 18 16) ∧
    (∃ (s : State), (s.sys.mode = .boot ∨ s.sys.mode = .powerFail)) :=
  ⟨⟨rs, 7, by decide⟩,
    ⟨(regs [(.faults 0x00, 0x070000)] rs), 1, by decide⟩,
    ⟨(md .boot rs), by decide⟩⟩

/-- A state and operands for each clause of `ModeTransition`. -/
theorem witness_ModeTransition :
    (∃ (s : State), s.sys.mode ≠ .retention ∧ s.sys.mode ≠ .powerFail ∧ s.time.clk.coreLost = false) :=
  ⟨rs, by decide, by decide, by decide⟩

/-- A state and operands for each clause of `TickAdvancesTime`. -/
theorem witness_TickAdvancesTime :
    (∃ (s : State), clockRuns s = false) ∧
    (∃ (s : State) (p : Time), clockRuns s = true ∧ s.time.preset = some p) ∧
    (∃ (s : State), clockRuns s = true ∧ s.time.preset = none) ∧
    (∃ (s : State), clockRuns s = true ∧ s.time.preset = none ∧ s.time.rate = 0 ∧ -100000000 < s.time.phase ∧
      s.time.phase < 100000000) :=
  ⟨⟨(md .retention rs), by decide⟩,
    ⟨({ rs with time := { rs.time with preset := some 7 } }), 7, by decide, by decide⟩,
    ⟨rs, by decide, by decide⟩,
    ⟨rs, by decide, by decide, by decide, by decide, by decide⟩⟩

/-- A state and operands for each clause of `ParameterAccessCompletes`. -/
theorem witness_ParameterAccessCompletes :
    (∃ (e : Entry) (l : PLoc) (i : PInfo) (s : State) (z : State), Takes s 0x10 e z ∧ locate e.a0.toNat = some l ∧
      paramInfo l = some i ∧ readBad z l = none ∧ capOf z .host l = none ∧ i.rc = 0) ∧
    (∃ (e : Entry) (l : PLoc) (i : PInfo) (v : Word) (s : State) (z : State), Takes s 0x10 e z ∧ locate e.a0.toNat =
      some l ∧ paramInfo l = some i ∧ readBad z l = none ∧ capOf z .host l = some v) ∧
    (∃ (e : Entry) (r : Fin 4) (k : Fin 8) (s : State) (z : State), Takes s 0x10 e z ∧ e.a0.toNat = paOf (.region r
      (0x28 + k.val)) ∧ capOf z .host (.region r (0x28 + k.val)) = none ∧ freshKept z (.region r (0x28 + k.val)) = []) ∧
    (∃ (e : Entry) (b : Fin 32) (w : Nat) (s : State) (z : State), Takes s 0x12 e z ∧ w < 0x2000 ∧ e.a0.toNat = paOf
      (.pram b w .direct) ∧ eccBad z .paramRam b.val w = false ∧ capOf z .host (.pram b w .direct) = none) ∧
    (∃ (e : Entry) (ps : List (Fin 32 × Nat × Word)) (s : State) (z : State), Takes s 0x13 e z ∧ fld e.a0 1 0 ≠ 0 ∧
      [(e.a1.toNat, e.a2), (e.a3.toNat, e.a4), (e.a5.toNat, e.a6)].take (fld e.a0 1 0) = ps.map (fun p => (paOf (.pram
      p.1 p.2.1 .direct), p.2.2)) ∧ (∀ p ∈ ps, p.2.1 < 0x2000)) ∧
    (∃ (e : Entry) (b : Fin 32) (w : Nat) (s : State) (z : State), Takes s 0x14 e z ∧ 1 ≤ e.a1.toNat ∧ e.a1.toNat ≤
      4 ∧ w + e.a1.toNat ≤ 0x2000 ∧ e.a0.toNat = paOf (.pram b w .direct) ∧ (∀ k, k < e.a1.toNat → eccBad z .paramRam
      b.val (w + k) = false ∧ capOf z .host (.pram b (w + k) .direct) = none)) ∧
    (∃ (e : Entry) (b : Fin 32) (w : Nat) (s : State) (z : State), Takes s 0x14 e z ∧ 4 < e.a1.toNat ∧ e.a1.toNat ≤
      4096 ∧ w + 4 ≤ 0x2000 ∧ e.a0.toNat = paOf (.pram b w .direct) ∧ (∀ k, k < 4 → eccBad z .paramRam b.val (w + k) =
      false ∧ capOf z .host (.pram b (w + k) .direct) = none)) ∧
    (∃ (e : Entry) (buf : Buf) (b : Fin 32) (w : Nat) (s : State) (z : State), Takes s 0x15 e z ∧ 1 ≤ e.a1.toNat ∧
      e.a1.toNat ≤ 4 ∧ w + e.a1.toNat ≤ 0x2000 ∧ e.a0.toNat = paOf (.pram b w .direct) ∧ BufArrives e buf ∧ (∀ k, k <
      e.a1.toNat → (bufBytes z e 2 (4 * e.a1.toNat) buf)[4 * k + 3]? = some 0)) :=
  ⟨⟨(cm 0x24), (.chip 0x24), _, (qs 0x10 (cm 0x24) rs), (qz 0x10 (cm 0x24) rs), takes_now (by decide), by decide,
      someD (d := ⟨.s, 0, 0, 0, 0, 0⟩) (by decide), by decide, by decide, by decide⟩,
    ⟨(cm 0x25), (.chip 0x25), _, 7, (qs 0x10 (cm 0x25) (setCap rs .host (.chip 0x25) 7)), (qz 0x10 (cm 0x25) (setCap
      rs .host (.chip 0x25) 7)), takes_now (by decide), by decide, someD (d := ⟨.s, 0, 0, 0, 0, 0⟩) (by decide), by
      decide, by decide⟩,
    ⟨(cm (BitVec.ofNat 24 (paOf (.region 3 0x2F)))), 3, 7, (qs 0x10 (cm (BitVec.ofNat 24 (paOf (.region 3 0x2F))))
      rs), (qz 0x10 (cm (BitVec.ofNat 24 (paOf (.region 3 0x2F)))) rs), takes_now (by decide), by decide, by decide,
      by decide⟩,
    ⟨(cm 0x101FFF 0xFF 0xAB), 0, 0x1FFF, (qs 0x12 (cm 0x101FFF 0xFF 0xAB) rs), (qz 0x12 (cm 0x101FFF 0xFF 0xAB) rs),
      takes_now (by decide), by decide, by decide, by decide, by decide⟩,
    ⟨(cm 2 0x100003 5 0x101FFF 6), [(0, 3, 5), (0, 0x1FFF, 6)], (qs 0x13 (cm 2 0x100003 5 0x101FFF 6) rs), (qz 0x13
      (cm 2 0x100003 5 0x101FFF 6) rs), takes_now (by decide), by decide, by decide, by decide⟩,
    ⟨(cm 0x101FFC 4), 0, 0x1FFC, (qs 0x14 (cm 0x101FFC 4) rs), (qz 0x14 (cm 0x101FFC 4) rs), takes_now (by decide),
      by decide, by decide, by decide, by decide, by decide⟩,
    ⟨(cm 0x100000 5), 0, 0, (qs 0x14 (cm 0x100000 5) rs), (qz 0x14 (cm 0x100000 5) rs), takes_now (by decide), by
      decide, by decide, by decide, by decide, by decide⟩,
    ⟨(cm 0x101FFF 1), (.data [1, 0, 0, 0]), 0, 0x1FFF, (qs 0x15 (cm 0x101FFF 1) rs), (qz 0x15 (cm 0x101FFF 1) rs),
      takes_now (by decide), by decide, by decide, by decide, by decide, .inr ⟨_, rfl⟩, by decide⟩⟩

/-- A state and operands for each clause of `TimedEdgeWaits`. -/
theorem witness_TimedEdgeWaits :
    (∃ (e : Entry) (c : Fin 512) (a : EdgeAct) (s : State) (z : State), Takes s 0x20 e z ∧ c = Fin.ofNat 512 (fld
      e.a0 8 0) ∧ armsOk z = true ∧ cellHeld z c = false ∧ cellEn z c = true ∧ cellMode z c = 1 ∧ (fld e.a0 23 22 = 0
      ∧ a = .set ∨ fld e.a0 23 22 = 1 ∧ a = .clear ∨ fld e.a0 23 22 = 2 ∧ a = .toggle) ∧ z.cells[c].cmpA.armed = false
      ∧ z.agenda.late = [] ∧ -2 ≤ (mkTime e.a2 e.a1 - now z).toInt) :=
  ⟨(cm 0), 0, .set, (qs 0x20 (cm 0) (regs [(.cell 0 0x00, 1), (.cell 0 0x01, 1)] (md .run rs))), (qz 0x20 (cm 0)
      (regs [(.cell 0 0x00, 1), (.cell 0 0x01, 1)] (md .run rs))), takes_now (by decide), by decide, by decide, by
      decide, by decide, by decide, by decide, by decide, by decide, by decide⟩

/-- A state and operands for each clause of `CommittedWritesAct`. -/
theorem witness_CommittedWritesAct :
    (∃ (s : State), s.pending = [] ∧ clockOn s = true) ∧
    (∃ (s : State) (x : Late), s.agenda.late = [x] ∧ 1 ≤ x.rank ∧ x.rank ≤ 5 ∧ s.time.tick < x.tick) ∧
    (∃ (s : State) (x : Late), s.agenda.late = [x] ∧ 1 ≤ x.rank ∧ x.rank ≤ 5 ∧ x.tick ≤ s.time.tick ∧ portCell x.op
      = none) ∧
    (∃ (s : State) (x : Late) (c : Fin 512), s.agenda.late = [x] ∧ 1 ≤ x.rank ∧ x.rank ≤ 5 ∧ x.tick ≤ s.time.tick ∧
      portCell x.op = some c ∧ portShut s c x = false) ∧
    (∃ (s : State) (x : Late) (c : Fin 512), s.agenda.late = [x] ∧ 1 ≤ x.rank ∧ x.rank ≤ 5 ∧ portCell x.op = some c
      ∧ portShut s c x = true) ∧
    (∃ (s : State) (z : State) (x : Late) (y : Late) (c : Fin 512), (s.agenda.late = [x, y] ∨ s.agenda.late = [y,
      x]) ∧ 1 ≤ x.rank ∧ x.rank < y.rank ∧ y.rank ≤ 5 ∧ x.tick ≤ s.time.tick ∧ portCell x.op = some c ∧ portCell y.op
      = some c ∧ portShut s c x = false ∧ z = lateEffect (updCell { s with agenda := { s.agenda with late := [] } } c
      (fun k => { k with grantTick := some (s.time.tick, x.rank) })) x) :=
  ⟨⟨rs, by decide, by decide⟩,
    ⟨(ag [{ lt0 with tick := 5 }] rs), { lt0 with tick := 5 }, by decide, by decide, by decide, by decide⟩,
    ⟨(ag [lt0] rs), lt0, by decide, by decide, by decide, by decide, by decide⟩,
    ⟨(ag [lc0] rs), lc0, 0, by decide, by decide, by decide, by decide, by decide, by decide⟩,
    ⟨(tk 1 (ce (fun x => { x with grantTick := some (0, 4), matchTick := some 0 }) (ag [lc0] rs))), lc0, 0, by
      decide, by decide, by decide, by decide, by decide⟩,
    ⟨(ag [{ lc0 with rank := 2 }, lc0] rs), _, { lc0 with rank := 2 }, lc0, 0, by decide, by decide, by decide, by
      decide, by decide, by decide, by decide, by decide, rfl⟩⟩

/-- A state and operands for each clause of `RegionRamStores`. -/
theorem witness_RegionRamStores :
    (∃ (s : State) (r : Fin 4) (k : Fin 8) (w : Fin 65536) (who : Fin 9) (v : Word) (n : Nat), s.agenda.banks = [⟨r,
      w, who, some v, n⟩] ∧ k.val = w.val % 8 ∧ n ≤ s.time.tick ∧ Memory.wf (zeroMem 24) s.mem.rram = true) ∧
    (∃ (w : Nat), w < 0x10000) :=
  ⟨⟨({ rs with agenda := { rs.agenda with banks := [⟨0, 9, 8, some 7, 0⟩] } }), 0, 1, 9, 8, 7, 0, by decide, by
      decide, by decide, by decide⟩,
    ⟨65535, by decide⟩⟩

/-- A state and operands for each clause of `FlagsOfTheTickSurvive`. -/
theorem witness_FlagsOfTheTickSurvive :
    (∃ (s : State) (i : PInfo) (bits : Nat) (j : Nat), Memory.wf regReset s.par.reg = true ∧ i.cls ≠ .h ∧ i.rw = 0 ∧
      (word bits).getLsbD j = true) ∧
    (∃ (s : State) (l : PLoc) (i : PInfo) (v : Word) (j : Nat), Memory.wf regReset s.par.reg = true ∧ i.cls ≠ .h ∧
      i.rw = 0 ∧ freshKept s l = [] ∧ v.getLsbD j = true ∧ i.w1c.getLsbD j = true) ∧
    (∃ (s : State) (l : PLoc) (rc : Word) (x : Fresh), rc ≠ 0 ∧ freshKept s l = [x]) ∧
    (∃ (s : State) (l : PLoc) (rc : Word), rc ≠ 0 ∧ freshKept s l = []) :=
  ⟨⟨rs, ⟨.s, 0, 0, 0, 0, 0⟩, 1, 0, by decide, by decide, by decide, by decide⟩,
    ⟨rs, (.chip 0x22), ⟨.s, 0, 0, 1, 0, 0⟩, 1, 0, by decide, by decide, by decide, by decide, by decide, by decide⟩,
    ⟨({ rs with par := { rs.par with fresh := [⟨paOf (.chip 0x22), 0, 0, 1⟩] } }), (.chip 0x22), 1, ⟨paOf (.chip
      0x22), 0, 0, 1⟩, by decide, by decide⟩,
    ⟨rs, (.chip 0x22), 1, by decide, by decide⟩⟩

end Sys2Proof.Tests
end

section
/-!
SUPPORT. What 00_scope.md's conventions come to in the model: the order of line time, late writes and their grants, flags of
the present tick, refused accesses and their completions, words held for requesters.
-/
namespace Sys2Proof.Machine

/-! ### The order of line time (00_scope.md R5) -/

theorem toNat_sub_eq_emod (a b : Time) : ((a - b).toNat : Int) = ((a.toNat : Int) - b.toNat) % 2 ^ 48 := by
  have ha := a.isLt
  have hb := b.isLt
  rw [BitVec.toNat_sub]
  omega

/-- R5: the model's order is the spec's range of the difference. -/
theorem after_iff (a b : Time) : after a b = true ↔
    1 ≤ ((a.toNat : Int) - b.toNat) % 2 ^ 48 ∧ ((a.toNat : Int) - b.toNat) % 2 ^ 48 ≤ 2 ^ 47 - 1 := by
  have h := toNat_sub_eq_emod a b
  simp only [after, Bool.and_eq_true, decide_eq_true_eq]
  omega

/-- R5: half a turn of line time ahead is not after. -/
theorem after_eq_false_of_half (a b : Time) (h : ((a.toNat : Int) - b.toNat) % 2 ^ 48 = 2 ^ 47) : after a b = false := by
  rw [Bool.eq_false_iff, ne_eq, after_iff]
  omega

/-! ### Late writes (00_scope.md R9, 01_architecture_and_timebase.md R17) -/

/-- The state with no write waiting, from which the end of a tick applies those that did. -/
abbrev noLate (s : State) : State := { s with agenda := { s.agenda with late := [] } }

theorem lateOrder_single (x : Late) (h1 : 1 ≤ x.rank) (h5 : x.rank ≤ 5) : lateOrder [x] = [x] := by
  interval_cases h : x.rank <;> simp [lateOrder, h]

/-- R17: of two writes the one of the higher precedence comes first, whichever committed first. -/
theorem lateOrder_pair (l : List Late) (x y : Late) (hl : l = [x, y] ∨ l = [y, x]) (h1 : 1 ≤ x.rank)
    (hxy : x.rank < y.rank) (h5 : y.rank ≤ 5) : lateOrder l = [x, y] := by
  have key : ∀ r, l.filter (fun z => decide (z.rank = r)) = if r = x.rank then [x] else if r = y.rank then [y] else [] := by
    intro r
    rcases hl with rfl | rfl <;> simp only [List.filter_cons, List.filter_nil, decide_eq_true_eq] <;> grind
  have hx5 : x.rank ≤ 5 := by omega
  simp only [lateOrder, key]
  interval_cases hx : x.rank <;> interval_cases hy : y.rank <;> rfl

theorem lateStep_of_ready (a : State × List Late) (x : Late) (h : lateReady a.1 a.2 x = true) :
    lateStep a x = (grantLate a.1 x, a.2 ++ [x]) := if_pos h

theorem lateStep_of_not_ready (a : State × List Late) (x : Late) (h : lateReady a.1 a.2 x = false) :
    lateStep a x = ({ a.1 with agenda := { a.1.agenda with late := a.1.agenda.late ++ [x] } }, a.2) :=
  if_neg (Bool.eq_false_iff.mp h)

/-- R9: a write whose tick has not come is not ready. -/
theorem lateReady_of_early (s : State) (done : List Late) (x : Late) (h : s.time.tick < x.tick) :
    lateReady s done x = false := by
  simp [lateReady, h]

/-- R9: the first write of a tick that needs no update port waits for its tick alone. -/
theorem lateReady_first_portless (s : State) (x : Late) (h : portCell x.op = none) :
    lateReady s [] x = decide (x.tick ≤ s.time.tick) := by
  have hb : bankTaken [] x = false := by
    unfold bankTaken; split <;> simp
  simp [lateReady, h, hb]

/-- R17: the first write of a tick that needs a cell's update port waits for its tick and for the port to be open. -/
theorem lateReady_first_port (s : State) (x : Late) (c : Fin 512) (h : portCell x.op = some c) :
    lateReady s [] x = (decide (x.tick ≤ s.time.tick) && !portShut s c x) := by
  simp [lateReady, h]

/-- R17: after a grant of a cell's update port in a tick, a write of another rank to the cell is not ready. -/
theorem lateReady_after_other_rank (s : State) (x y : Late) (c : Fin 512) (hx : portCell x.op = some c)
    (hy : portCell y.op = some c) (hr : x.rank ≠ y.rank) : lateReady s [x] y = false := by
  simp [lateReady, hx, hy, sameGrant, hr]

theorem grantLate_portless (s : State) (x : Late) (h : portCell x.op = none) : grantLate s x = lateEffect s x := by
  simp [grantLate, h]

theorem grantLate_port (s : State) (x : Late) (c : Fin 512) (h : portCell x.op = some c) :
    grantLate s x = lateEffect (updCell s c (fun k => { k with grantTick := some (s.time.tick, x.rank) })) x := by
  simp [grantLate, h]

theorem applyLate_of_order (s : State) (l : List Late) (h : s.agenda.late ≠ []) (hl : lateOrder s.agenda.late = l) :
    applyLate s = (l.foldl lateStep (noLate s, [])).1 := by
  simp [applyLate, h, hl]

/-- R9: one waiting write is granted where it is ready. -/
theorem applyLate_single_ready (s : State) (x : Late) (hl : s.agenda.late = [x]) (h1 : 1 ≤ x.rank) (h5 : x.rank ≤ 5)
    (hr : lateReady (noLate s) [] x = true) : applyLate s = grantLate (noLate s) x := by
  rw [applyLate_of_order s [x] (by simp [hl]) (by rw [hl, lateOrder_single x h1 h5]), List.foldl_cons,
    lateStep_of_ready _ _ hr]
  rfl

/-- R9: one waiting write that is not ready waits on, and nothing else changes. -/
theorem applyLate_single_waits (s : State) (x : Late) (hl : s.agenda.late = [x]) (h1 : 1 ≤ x.rank) (h5 : x.rank ≤ 5)
    (hr : lateReady (noLate s) [] x = false) : applyLate s = s := by
  rw [applyLate_of_order s [x] (by simp [hl]) (by rw [hl, lateOrder_single x h1 h5]), List.foldl_cons,
    lateStep_of_not_ready _ _ hr, List.foldl_nil]
  simp only [List.nil_append, ← hl]

/-- R17: of two writes to one cell the one of the higher precedence takes the port, and the other waits on. -/
theorem applyLate_pair (s : State) (x y : Late) (c : Fin 512) (hl : s.agenda.late = [x, y] ∨ s.agenda.late = [y, x])
    (h1 : 1 ≤ x.rank) (hxy : x.rank < y.rank) (h5 : y.rank ≤ 5) (hx : portCell x.op = some c) (hy : portCell y.op = some c)
    (hr : lateReady (noLate s) [] x = true) :
    applyLate s = { grantLate (noLate s) x with agenda := { (grantLate (noLate s) x).agenda with
      late := (grantLate (noLate s) x).agenda.late ++ [y] } } := by
  have hne : s.agenda.late ≠ [] := by rcases hl with h | h <;> simp [h]
  have hy' : lateReady (grantLate (noLate s) x) [x] y = false := lateReady_after_other_rank _ x y c hx hy (by omega)
  rw [applyLate_of_order s [x, y] hne (lateOrder_pair _ x y hl h1 hxy h5), List.foldl_cons, lateStep_of_ready _ _ hr,
    List.foldl_cons, List.nil_append, lateStep_of_not_ready _ _ hy', List.foldl_nil]

theorem step_of_empty (s : State) (hp : s.pending = []) (hc : clockOn s = true) :
    step s = .next (startTick (advance (endTick s))) := by
  simp [step, tick, hp, hc]

/-! ### Flags of the present tick (00_scope.md R13, R15) -/

theorem setReg_wf (s : State) (l : PLoc) (v : Word) (h : Memory.wf regReset s.par.reg = true) :
    Memory.wf regReset (setReg s l v).par.reg = true := memPut_wf regReset _ _ _ h

theorem reg_setReg (s : State) (l : PLoc) (v : Word) (h : Memory.wf regReset s.par.reg = true) :
    reg (setReg s l v) l = v := memGet_put_same regReset _ _ _ h

/-- R15: the bits that the device has set in a parameter in the present tick. -/
def keptBits (s : State) (l : PLoc) : Word := (freshKept s l).foldl (fun a x => a ||| x.add) 0

theorem foldl_or_add_getLsbD (xs : List Fresh) (w : Word) (j : Nat) :
    (xs.foldl (fun a x => a ||| x.add) w).getLsbD j = (w.getLsbD j || xs.any (fun x => x.add.getLsbD j)) := by
  induction xs generalizing w with
  | nil => simp
  | cons x t ih => simp [ih, Bool.or_assoc]

theorem keptBits_getLsbD (s : State) (l : PLoc) (j : Nat) :
    (keptBits s l).getLsbD j = (freshKept s l).any (fun x => x.add.getLsbD j) := by
  simp [keptBits, foldl_or_add_getLsbD]

/-- R15: a setting is noted in its own place and tick. -/
theorem exists_mem_freshNote (xs : List Fresh) (pa n : Nat) (old : Word) (f : Word → Word) :
    ∃ x ∈ freshNote xs pa n old f, x.pa = pa ∧ x.tick = n ∧ ∃ a, x.add = f a := by
  induction xs with
  | nil => exact ⟨_, List.mem_singleton_self _, rfl, rfl, 0, rfl⟩
  | cons y t ih =>
    unfold freshNote
    split
    · next h => exact ⟨_, List.mem_cons_self, h.1, h.2, y.add, rfl⟩
    · obtain ⟨x, hx, hpa⟩ := ih
      exact ⟨x, List.mem_cons_of_mem _ hx, hpa⟩

/-- R15: a flag set in the present tick is among the bits kept. -/
theorem keptBits_orReg (s : State) (l : PLoc) (bits j : Nat) (hj : (word bits).getLsbD j = true) :
    (keptBits (orReg s l bits) l).getLsbD j = true := by
  obtain ⟨x, hx, hpa, hn, a, ha⟩ :=
    exists_mem_freshNote s.par.fresh (paOf l) s.time.tick (reg s l) (fun a => a ||| word bits)
  have hk : x ∈ freshKept (orReg s l bits) l :=
    List.mem_filter.mpr ⟨hx, decide_eq_true ⟨hpa, Nat.le_of_eq hn.symm⟩⟩
  rw [keptBits_getLsbD]
  exact List.any_eq_true.mpr ⟨x, hk, by simp [ha, hj]⟩

theorem reg_orReg (s : State) (l : PLoc) (bits : Nat) (hw : Memory.wf regReset s.par.reg = true) :
    reg (orReg s l bits) l = reg s l ||| word bits := reg_setReg _ l _ hw

theorem and_not_zero_or_and_zero (a v : Word) : (a &&& ~~~(0 : Word)) ||| (v &&& 0) = a := by
  rw [show ~~~(0 : Word) = BitVec.allOnes 24 from rfl, BitVec.and_allOnes]
  simp

/-- R13, R15: what a write leaves in a parameter without RW bits that is not of class H. -/
theorem reg_storeBits (s : State) (l : PLoc) (i : PInfo) (v : Word) (hw : Memory.wf regReset s.par.reg = true)
    (hc : i.cls ≠ .h) (hrw : i.rw = 0) :
    reg (storeBits s l i v) l = reg s l &&& ~~~(v &&& i.w1c &&& ~~~keptBits s l) := by
  have hs : storeBits s l i v = setReg s l (reg s l &&& ~~~(v &&& i.w1c &&& ~~~keptBits s l)) := by
    unfold storeBits
    cases h : i.cls with
    | h => exact absurd h hc
    | s | l => simp only [hrw, and_not_zero_or_and_zero]; rfl
  rw [hs, reg_setReg s l _ hw]

/-! ### Completions of refused accesses (10_mailbox_interface.md R290, R298) -/

/-- R290: of a completion nothing but what notes it moves once its violation is logged: the arbiter, counts and latencies,
doorbells, the ring and its status slot. -/
theorem complete_frame (s : State) (op : Nat) (e : Entry) (t : Status) (b : Word) :
    ∃ fresh arb count lat bells subs bus hregs ring ecc, complete s op e t b = { logCommand s op e t b with
      par := { (logCommand s op e t b).par with fresh := fresh }
      host := { (logCommand s op e t b).host with
        arb := arb, cmdCount := count, cmdLatMax := lat, bells := bells, subs := subs, bus := bus, hregs := hregs }
      mem := { (logCommand s op e t b).mem with ring := ring, ecc := ecc } } := by
  unfold complete
  dsimp only
  generalize logCommand s op e t b = z
  rw [settleRing_frame]
  generalize (settleRing _ _).host.subs = subs, (settleRing _ _).host.hregs = hregs
  generalize hy : updSub _ e.ring _ = y
  obtain ⟨at', due', hw⟩ := writeSqSlot_frame y e.ring
  generalize (writeSqSlot y e.ring).host.bus = bus, (writeSqSlot y e.ring).mem.ring = ring, (writeSqSlot y e.ring).mem.ecc = ecc at hw
  rw [hw, ← hy]
  split <;> exact ⟨_, _, _, _, _, subs, bus, hregs, ring, ecc, rfl⟩

/-- R298: a refused command that names a parameter enters its violation. -/
theorem logCommand_eq_violation (s : State) (op : Nat) (e : Entry) (t : Status) (b : Word) (a : Nat) (ht : logged t = true)
    (ha : violAddr op e b = some a) : logCommand s op e t b = violation s a 2 3 3 0 t.code e.seq.toNat := by
  simp [logCommand, ht, ha]

/-- R298: what the violation log and the interrupt flags hold after a refused READ_PARAM or WRITE_PARAM completes. -/
theorem complete_refused (s : State) (op : Nat) (e : Entry) (t : Status) (b : Word) (hop : op = 0x10 ∨ op = 0x11)
    (ht : logged t = true) :
    (complete s op e t b).host.vlog.getLast? =
        some ⟨e.a0.setWidth 32, BitVec.ofNat 32 (2 * 2 ^ 28 + 3 * 2 ^ 24 + 3 * 2 ^ 21 + t.code * 2 ^ 8 + e.seq.toNat % 256), now s⟩ ∧
      bit (complete s op e t b).host.irqStat 2 = true ∧
      (complete s op e t b).par = { s.par with fresh := (complete s op e t b).par.fresh } := by
  have ha : violAddr op e b = some e.a0.toNat := by rcases hop with rfl | rfl <;> rfl
  have hlog := violation_last s e.a0.toNat 2 3 3 0 t.code e.seq.toNat
  obtain ⟨_, _, _, _, _, _, _, _, _, _, hc⟩ := complete_frame s op e t b
  rw [hc, logCommand_eq_violation s op e t b _ ht ha]
  refine ⟨?_, ?_, ?_⟩
  · simpa using hlog
  · dsimp only
    rw [violation_frame]
    simp [bit]
  · dsimp only
    rw [violation_frame]

/-- R12: an address outside every area or in a reserved slot. -/
def NoParameter (pa : Nat) : Prop := locate pa = none ∨ ∃ l, locate pa = some l ∧ paramInfo l = none

theorem writeParam_noParameter (s : State) (who : Requester) (pa : Nat) (v : Word) (h : NoParameter pa) :
    writeParam s who pa v = (s, .addrInvalid) := by
  unfold writeParam
  rcases h with h | ⟨l, h, hi⟩
  · rw [h]
  · simp only [h, hi]

theorem readParam_noParameter (s : State) (who : Requester) (pa : Nat) (h : NoParameter pa) :
    readParam s who pa = (0, s, .addrInvalid) := by
  unfold readParam
  rcases h with h | ⟨l, h, hi⟩
  · rw [h]
  · simp only [h, hi]

/-- R10: a class S parameter outside its conditions refuses every write. -/
theorem writeParam_staticLocked (s : State) (who : Requester) (pa : Nat) (l : PLoc) (i : PInfo) (v : Word)
    (hl : locate pa = some l) (hi : paramInfo l = some i) (hc : i.cls = .s) (ho : staticOpen s l = false) :
    writeParam s who pa v = (s, .staticLocked) := by
  have hr : writeRefused s l i v = some .staticLocked := by simp [writeRefused, hc, ho]
  unfold writeParam
  simp only [hl, hi, hr]

/-- R293: WRITE_PARAM whose write is refused with the state as it was. -/
theorem exec_writeParam_refused (e : Entry) (s z : State) (t : Status) (h : Takes s 0x11 e z)
    (hw : writeParam z .host e.a0.toNat e.a1 = (z, t)) : exec (.writeParam e) s = .next (Completes z 0x11 e t 0) :=
  cmdRun_ends (.writeParam e) 0x11 e (cmdWriteParam e) s z z t 0 h (by rw [cmdWriteParam, hw]; rfl)

/-- R293: READ_PARAM of an address that is no parameter. -/
theorem exec_readParam_noParameter (e : Entry) (s z : State) (h : Takes s 0x10 e z) (hp : NoParameter e.a0.toNat) :
    exec (.readParam e) s = .next (Completes z 0x10 e .addrInvalid 0) :=
  cmdRun_ends (.readParam e) 0x10 e (cmdReadParam e) s z z .addrInvalid 0 h
    (by rw [cmdReadParam, readParam_noParameter z .host _ hp]; rfl)

/-! ### Words held for requesters (00_scope.md R6) -/

theorem heldGet_heldPut_same (hs : List Held) (who : Requester) (pa : Nat) (v : Word) :
    heldGet (heldPut hs who pa v) who pa = some v := by
  simp [heldGet, heldPut]

/-- R6: a word held anew leaves the words of other requesters and places. -/
theorem heldGet_heldPut_other (hs : List Held) (who other : Requester) (pa qa : Nat) (v : Word)
    (h : other ≠ who ∨ qa ≠ pa) : heldGet (heldPut hs who pa v) other qa = heldGet hs other qa := by
  have hne : ¬(who = other ∧ pa = qa) := by grind
  have hp : ∀ x : Held, x.who = other ∧ x.pa = qa → ¬(x.who = who ∧ x.pa = pa) := by grind
  unfold heldGet heldPut
  rw [List.find?_cons_of_neg (by simpa using hne), List.find?_filter]
  congr 2
  funext x
  grind

theorem lowOf_setLow_same (s : State) (who : Requester) (l : PLoc) (v : Word) : lowOf (setLow s who l v) who l = v := by
  simp [lowOf, setLow, heldGet_heldPut_same]

theorem lowOf_setLow_other (s : State) (who other : Requester) (l m : PLoc) (v : Word)
    (h : other ≠ who ∨ paOf m ≠ paOf l) : lowOf (setLow s who l v) other m = lowOf s other m := by
  simp [lowOf, setLow, heldGet_heldPut_other _ _ _ _ _ _ h]

/-- R6, R85: the high word of a compare of a disabled cell commits the pair, which arms nothing. -/
theorem writeCmpHi_disabled (s : State) (who : Requester) (c : Fin 512) (u : CmpUnit) (low v : Word)
    (hh : cellHeld s c = false) (he : cellEn s c = false) : ∃ w : CmpOwner, writeCmpHi s who c u low v =
      (addLate s (rankOf who) who (.compare c u (mkTime v low) (cmpTrim s who c u) none w false), .ok) := by
  simp only [writeCmpHi, hh, he, Bool.not_false, if_true, Bool.false_eq_true, if_false]
  exact ⟨_, rfl⟩

theorem cmpOf_setCmp (x : Cell) (u : CmpUnit) (v : Compare) : cmpOf (setCmp x u v) u = v := by
  cases u <;> rfl

/-- R85: a compare that arms nothing stores its pair. -/
theorem applyCompare_value (s : State) (c : Fin 512) (u : CmpUnit) (t : Time) (trim : BitVec 4) (act : Option EdgeAct)
    (w : CmpOwner) : (cmpOf (applyCompare s c u t trim act w false).cells[c] u).value = t := by
  simp [applyCompare, updCell, cmpOf_setCmp]

/-! ### The reset state (00_scope.md R14) -/

/-- R41: ACTIVE_LOCK of PLL_STAT shows the active PLL's lock. -/
theorem pllStat_activeLock (s : State) : bit (pllStat s) 1 = s.time.clk.activeLock := by
  have hm : bit (0xFF0010 : Word) 1 = false := by decide
  have hw : ∀ h y a p : Bool, bit (word (bitAt h 3 + bitAt y 2 + bitAt a 1 + bitAt p 0)) 1 = a := by decide
  unfold bit at hm hw
  simp only [bit, pllStat, BitVec.getLsbD_or, BitVec.getLsbD_and, hw, hm, Bool.and_false, Bool.or_false]

theorem reset_unarmed (c : Fin 512) : State.reset.cells[c].cmpA.armed = false ∧ State.reset.cells[c].cmpB.armed = false := by
  simp [State.reset, cellReset, compareReset]

end Sys2Proof.Machine
end

section
/-!
PROOFS. The obligations of 00_scope.md.
-/
namespace Sys2Proof.Machine

/-- Settles O56: the order of late writes puts the higher precedence first, and what is ready decides who acts. -/
theorem committedWritesAct : Obligations.CommittedWritesAct := by
  unfold Obligations.CommittedWritesAct
  refine ⟨step_of_empty, ?_, ?_, ?_, ?_, ?_⟩
  · intro s x hl h1 h5 ht
    exact applyLate_single_waits s x hl h1 h5 (lateReady_of_early _ _ _ ht)
  · intro s x hl h1 h5 ht hp
    rw [applyLate_single_ready s x hl h1 h5 (by simp [lateReady_first_portless, hp, ht]), grantLate_portless _ _ hp]
  · intro s x c hl h1 h5 ht hp ho
    have ho' : portShut (noLate s) c x = false := ho
    rw [applyLate_single_ready s x hl h1 h5 (by simp [lateReady_first_port, hp, ht, ho']), grantLate_port _ _ _ hp]
  · intro s x c hl h1 h5 hp hs
    have hs' : portShut (noLate s) c x = true := hs
    exact applyLate_single_waits s x hl h1 h5 (by simp [lateReady_first_port _ _ _ hp, hs'])
  · intro s z x y c hl h1 hxy h5 ht hx hy ho hz
    have ho' : portShut (noLate s) c x = false := ho
    rw [applyLate_pair s x y c hl h1 hxy h5 hx hy (by simp [lateReady_first_port, hx, ht, ho']), grantLate_port _ _ _ hx, hz]

/-- Settles O58: a flag set in the tick is among the bits that a write of 1 keeps, and a read-to-clear field answers what was
noted of it before the tick. -/
theorem flagsOfTheTickSurvive : Obligations.FlagsOfTheTickSurvive := by
  unfold Obligations.FlagsOfTheTickSurvive
  refine ⟨?_, ?_, ?_, ?_⟩
  · intro s l i v bits j hw hc hrw hj
    have hlt : j < 24 := BitVec.lt_of_getLsbD hj
    rw [reg_storeBits (orReg s l bits) l i v (setReg_wf _ l _ hw) hc hrw, reg_orReg s l bits hw]
    simp [hj, keptBits_orReg s l bits j hj, hlt]
  · intro s l i v j hw hc hrw hf hv hb
    have hk : (keptBits s l).getLsbD j = false := by simp [keptBits_getLsbD, hf]
    rw [reg_storeBits s l i v hw hc hrw]
    simp [hv, hb, hk]
  · intro s l rc v x hrc hf
    rw [readClear, if_neg hrc, hf]
    rfl
  · intro s l rc v hrc hf
    rw [readClear, if_neg hrc, hf]

/-- Settles O34: the difference of two bit vectors is the difference of their numbers modulo 2^48. -/
theorem lineTimeOrder : Obligations.LineTimeOrder := by
  unfold Obligations.LineTimeOrder
  refine ⟨after_iff, fun a b h => ⟨after_eq_false_of_half a b h, after_eq_false_of_half b a (by omega)⟩, fun s t h => ?_⟩
  simp [due, after_eq_false_of_half t (now s) h]

/-- Settles O44: every access ends at the lookup of its address, and the completion logs it. -/
theorem notAParameter : Obligations.NotAParameter := by
  unfold Obligations.NotAParameter
  refine ⟨?_, ?_, ?_, ?_⟩
  · intro s who pa v h
    rw [writeParam_noParameter s who pa v h, readParam_noParameter s who pa h]
    exact ⟨rfl, rfl⟩
  · exact fun e s z h hp => exec_readParam_noParameter e s z h hp
  · exact fun e s z h hp => exec_writeParam_refused e s z _ h (writeParam_noParameter z .host _ _ hp)
  · intro z op e hop
    obtain ⟨hlog, hirq, -⟩ :=
      complete_refused z op.toNat e .addrInvalid 0 (by rcases hop with rfl | rfl <;> decide) rfl
    exact ⟨hlog, hirq⟩

/-- Settles O45: the class check comes before the value and the unit, and the completion logs the refusal. -/
theorem staticLocked : Obligations.StaticLocked := by
  unfold Obligations.StaticLocked
  refine ⟨writeParam_staticLocked, ?_, ?_⟩
  · exact fun e s z l i h hl hi hc ho =>
      exec_writeParam_refused e s z _ h (writeParam_staticLocked z .host _ l i e.a1 hl hi hc ho)
  · intro z e
    obtain ⟨hlog, -, hpar⟩ := complete_refused z 0x11 e .staticLocked 0 (.inr rfl) rfl
    exact ⟨hlog, hpar⟩

/-- Settles O46: a low word is held as it is written, and the high word takes what its requester holds. -/
theorem lowWordsWait : Obligations.LowWordsWait := by
  unfold Obligations.LowWordsWait
  refine ⟨?_, fun _ _ _ _ _ => rfl, ?_, fun _ _ _ => ⟨rfl, rfl, rfl⟩, ?_, ?_, fun _ _ _ _ _ => rfl⟩
  · rintro s who c o i low v (rfl | rfl) he <;> simp [writePlace, writeCell, he]
  · exact fun s who l v =>
      ⟨lowOf_setLow_same s who l v, fun other m h => lowOf_setLow_other s who other l m v h, rfl⟩
  · exact fun s who c i low v hh he => ⟨writeCmpHi_disabled s who c .a low v hh he, writeCmpHi_disabled s who c .b low v hh he⟩
  · exact fun z _ _ _ c u t trim act w => applyCompare_value z c u t trim act w

/-- Settles O52: the parameter store of the reset state lists nothing, so every parameter reads its table's value. -/
theorem resetValues : Obligations.ResetValues := by
  unfold Obligations.ResetValues
  exact ⟨fun _ => rfl, reset_memories, rfl, rfl, reset_unarmed, rfl, pllStat_activeLock State.reset⟩

end Sys2Proof.Machine
end

section
/-!
SUPPORT. What 01_architecture_and_timebase.md comes to in the model: rows that are parameter accesses, words captured for
requesters, records in order, line time from tick to tick, banks of region RAM, words of block parameter RAM, and the rows of
the clocks and of timer cells.
-/
namespace Sys2Proof.Machine

/-! ### Rows that are parameter accesses (R9, R13) -/

/-- R9: a row whose class L write its unit takes commits, and the write waits for the end of its tick. -/
theorem run_rowWrite_waits (req : Requester) (l : PLoc) (i : PInfo) (v : Word) (s : State) (h : l.inArea)
    (ha : Accepts s req l v) (hi : paramInfo l = some i) (hl : atOnce l i = false)
    (hd : (writePlace (lateView s) req (lowFor s req l) l i v).2 = .ok) :
    run (rowWrite req l v) s = .next (settle (Committed s req l v)) := by
  obtain ⟨hr, j, hj, hn⟩ := ha
  obtain rfl : i = j := Option.some.inj (hi.symm.trans hj)
  rw [run, rowWrite_waits req l i v s h hr hi hn hl hd]

/-- R9: a row whose write acts in its commit tick. -/
theorem run_rowWrite_now (req : Requester) (l : PLoc) (i : PInfo) (v : Word) (s t : State) (h : l.inArea)
    (ha : Accepts s req l v) (hi : paramInfo l = some i) (hl : atOnce l i = true)
    (hw : writePlace s req (lowFor s req l) l i v = (t, .ok)) :
    run (rowWrite req l v) s = .next (settle t) := by
  obtain ⟨hr, j, hj, hn⟩ := ha
  obtain rfl : i = j := Option.some.inj (hi.symm.trans hj)
  rw [run, rowWrite_send s t req l i v h hr hi hn ((sendWrite_now s req l i v hl).trans hw)]

/-- A row that is a parameter read without a captured word and without a field that a read clears. -/
theorem run_rowRead (req : Requester) (l : PLoc) (i : PInfo) (s : State) (h : l.inArea) (hr : reaches s req l = true)
    (hc : capOf s req l = none) (hi : paramInfo l = some i) (hb : readBad s l = none) (h0 : i.rc = 0) :
    run (rowRead req l) s = .next (settle (readPlace s req l).2) := by
  rw [run, rowRead_ok s req l i h hr hi hb hc h0]

/-- R9: a class L write acts as its unit says, and keeps the words and selectors that requesters hold. -/
theorem acts_eq (z y : State) (req : Requester) (low : Word) (l : PLoc) (i : PInfo) (v : Word) (t : Status)
    (hi : paramInfo l = some i) (hw : writePlace z req low l i v = (y, t)) :
    Acts z req low l v = { y with par := { y.par with lows := z.par.lows, sels := z.par.sels } } := by
  simp only [Acts, lateEffect, hi, hw]

/-- R9: a class L write whose unit leaves what requesters hold. -/
theorem acts_of_writePlace (z y : State) (req : Requester) (low : Word) (l : PLoc) (i : PInfo) (v : Word) (t : Status)
    (hi : paramInfo l = some i) (hw : writePlace z req low l i v = (y, t)) (hl : y.par.lows = z.par.lows)
    (hs : y.par.sels = z.par.sels) : Acts z req low l v = y := by
  rw [acts_eq z y req low l i v t hi hw, ← hl, ← hs]

/-! ### Words captured for requesters (R32) -/

theorem capOf_setCap_same (s : State) (who : Requester) (l : PLoc) (v : Word) : capOf (setCap s who l v) who l = some v := by
  simp [capOf, setCap, heldGet_heldPut_same]

theorem capOf_setCap_other (s : State) (who other : Requester) (l m : PLoc) (v : Word)
    (h : other ≠ who ∨ paOf m ≠ paOf l) : capOf (setCap s who l v) other m = capOf s other m := by
  simp [capOf, setCap, heldGet_heldPut_other _ _ _ _ _ _ h]

theorem capOf_dropCap_same (s : State) (who : Requester) (l : PLoc) : capOf (dropCap s who l) who l = none := by
  have h : (dropCap s who l).par.caps.find? (fun h => decide (h.who = who ∧ h.pa = paOf l)) = none := by
    refine List.find?_eq_none.mpr fun x hx => ?_
    obtain ⟨-, hx⟩ := List.mem_filter.mp hx
    simpa [or_iff_not_imp_left] using hx
  simp only [capOf, heldGet, h]

theorem loWord_eq (t : Time) : loWord t = word (t.toNat % 2 ^ 24) := by
  apply BitVec.eq_of_toNat_eq
  simp [loWord, word]

theorem hiWord_eq (t : Time) : hiWord t = word (t.toNat / 2 ^ 24) := by
  apply BitVec.eq_of_toNat_eq
  simp [hiWord, word, Nat.shiftRight_eq_div_pow]

/-- R32: a read of a parameter of which the requester holds a captured word takes that word. -/
theorem readParam_captured (s : State) (who : Requester) (l : PLoc) (i : PInfo) (w : Word) (h : l.inArea)
    (hi : paramInfo l = some i) (hb : readBad s l = none) (hc : capOf s who l = some w) :
    readParam s who (paOf l) = (w, dropCap s who l, .ok) := by
  simp only [readParam, locate_paOf l h, hi, hb, hc]

/-- A read of a parameter without a captured word or a field that a read clears. -/
theorem readParam_place (s : State) (who : Requester) (l : PLoc) (i : PInfo) (h : l.inArea)
    (hi : paramInfo l = some i) (hb : readBad s l = none) (hc : capOf s who l = none) (h0 : i.rc = 0) :
    readParam s who (paOf l) = ((readPlace s who l).1, (readPlace s who l).2, .ok) := by
  simp only [readParam, locate_paOf l h, hi, hb, hc, h0, readClear, if_true]

/-! ### Records in order (R19) -/

/-- R19: the order in which waiting records rise: by commit tick, and within a tick by tier. -/
abbrev Rises (a b : Placed) : Prop := a.tick < b.tick ∨ (a.tick = b.tick ∧ a.tier ≤ b.tier)

theorem rises_of_placedBefore (q p : Placed) (h : placedBefore q p = true) : Rises q p := by
  unfold placedBefore at h
  split at h
  · exact .inl (of_decide_eq_true h)
  · next ht =>
    refine .inr ⟨not_not.mp ht, ?_⟩
    split at h
    · exact Nat.le_of_lt (of_decide_eq_true h)
    · next hr => exact Nat.le_of_eq (not_not.mp hr)

theorem rises_of_not_placedBefore (q p : Placed) (h : placedBefore q p = false) : Rises p q := by
  unfold placedBefore at h
  split at h
  · have := of_decide_eq_false h
    exact .inl (by omega)
  · next ht =>
    refine .inr ⟨(not_not.mp ht).symm, ?_⟩
    split at h
    · have := of_decide_eq_false h
      omega
    · next hr => exact Nat.le_of_eq (not_not.mp hr).symm

theorem Rises.trans {a b c : Placed} (h : Rises a b) (k : Rises b c) : Rises a c := by
  unfold Rises at *
  omega

theorem mem_of_mem_placeRec (l : List Placed) (p q : Placed) (h : q ∈ placeRec l p) : q = p ∨ q ∈ l := by
  obtain ⟨x, y, hl, hp⟩ := placeRec_split l p
  rw [hp] at h
  rw [hl]
  grind

/-- R19: a new record keeps the order of those that wait. -/
theorem placeRec_rises (l : List Placed) (p : Placed) (h : l.Pairwise Rises) : (placeRec l p).Pairwise Rises := by
  induction l with
  | nil => exact List.pairwise_singleton _ _
  | cons q t ih =>
    obtain ⟨hq, ht⟩ := List.pairwise_cons.mp h
    unfold placeRec
    split
    · next hb =>
      refine List.pairwise_cons.mpr ⟨fun z hz => ?_, ih ht⟩
      rcases mem_of_mem_placeRec t p z hz with rfl | hm
      · exact rises_of_placedBefore q z hb
      · exact hq z hm
    · next hb =>
      have hpq : Rises p q := rises_of_not_placedBefore q p (Bool.eq_false_iff.mpr hb)
      refine List.pairwise_cons.mpr ⟨fun z hz => ?_, h⟩
      rcases List.mem_cons.mp hz with rfl | hz
      · exact hpq
      · exact hpq.trans (hq z hz)

/-! ### Line time from tick to tick (R28 to R31) -/

theorem passEdges_time (s : State) (old : Time) : (passEdges s old).time = s.time := by
  unfold passEdges
  split <;> rfl

theorem elcTimeStep_time (s : State) : (elcTimeStep s).time = s.time := by
  unfold elcTimeStep
  split <;> rfl

/-- R28: without its clock line time holds. -/
theorem advanceLine_stopped (s : State) (h : clockRuns s = false) : advanceLine s = s := by
  simp [advanceLine, h]

/-- R31: a waiting preset is the line time of the next tick, and waits no more. -/
theorem advanceLine_preset_time (s : State) (p : Time) (h : clockRuns s = true) (hp : s.time.preset = some p) :
    (advanceLine s).time = { (timeStep (rmtFlush s)).time with lt := p, preset := none } := by
  simp [advanceLine, h, hp, passEdges_time, elcTimeStep_time]

/-- R29: with no preset line time moves on under the discipline of the link. -/
theorem advanceLine_disciplined_time (s : State) (h : clockRuns s = true) (hp : s.time.preset = none) :
    (advanceLine s).time = disciplined s.time := by
  simp [advanceLine, h, hp, passEdges_time]

/-- R29: the phase accumulator holds the count for one tick, or advances it by one or by two. -/
theorem disciplined_lt (x : Timebase) :
    (disciplined x).lt = x.lt ∨ (disciplined x).lt = x.lt + 1 ∨ (disciplined x).lt = x.lt + 2 := by
  unfold disciplined
  dsimp only
  split
  · exact .inr (.inr rfl)
  · split
    · exact .inl rfl
    · exact .inr (.inl rfl)

/-- R29: a rate of zero never wraps the phase accumulator. -/
theorem disciplined_lt_of_no_rate (x : Timebase) (hr : x.rate = 0) (hlo : -100000000 < x.phase)
    (hhi : x.phase < 100000000) : (disciplined x).lt = x.lt + 1 := by
  unfold disciplined
  dsimp only
  rw [if_neg (by omega), if_neg (by omega)]

/-! ### Banks of region RAM (R18, R45) -/

theorem rramIndex_ne (q r : Fin 4) (u w : Nat) (hu : u < 0x10000) (hw : w < 0x10000) (h : q ≠ r ∨ u ≠ w) :
    q.val * 65536 + u ≠ r.val * 65536 + w := by
  rw [ne_eq, Fin.ext_iff] at h
  omega

theorem rramAt_setRramRaw_same (s : State) (r : Fin 4) (w : Nat) (v : Word) (h : Memory.wf (zeroMem 24) s.mem.rram = true) :
    rramAt (setRramRaw s r w v) r w = v := memGet_put_same (zeroMem 24) _ _ _ h

theorem rramAt_setRramRaw_other (s : State) (r q : Fin 4) (w u : Nat) (v : Word)
    (hm : Memory.wf (zeroMem 24) s.mem.rram = true) (hu : u < 0x10000) (hw : w < 0x10000) (h : q ≠ r ∨ u ≠ w) :
    rramAt (setRramRaw s r w v) q u = rramAt s q u :=
  memGet_put_other (zeroMem 24) _ _ _ _ (rramIndex_ne q r u w hu hw h) hm

theorem rramAt_clearEcc (s : State) (m : MemId) (i a : Nat) (r : Fin 4) (w : Nat) :
    rramAt (clearEcc s m i a) r w = rramAt s r w := rfl

/-- R48: the counts of waits are registers alone. -/
theorem noteWait_mem (s : State) (r : Fin 4) (k : Fin 8) (n : Nat) (busy : Bool) : (noteWait s r k n busy).mem = s.mem := by
  unfold noteWait
  dsimp only
  split <;> split <;> rfl

theorem noteWait_agenda (s : State) (r : Fin 4) (k : Fin 8) (n : Nat) (busy : Bool) :
    (noteWait s r k n busy).agenda = s.agenda := by
  unfold noteWait
  dsimp only
  split <;> split <;> rfl

/-- R18: the round of a bank reaches every requester. -/
theorem mem_bankRound (who last : Fin 9) : who ∈ (List.range 9).map (fun i => Fin.ofNat 9 (last.val + 1 + i)) := by
  revert who last
  decide

/-- R18: one who asks alone is served, whoever was served last. -/
theorem bankPick_single (q : BankReq) (last : Fin 9) : bankPick [q] last = some q := by
  cases h : bankPick [q] last with
  | none => simpa using List.findSome?_eq_none_iff.mp h q.who (mem_bankRound q.who last)
  | some p =>
    obtain ⟨w, -, hw⟩ := List.exists_of_findSome?_eq_some h
    rw [List.mem_singleton.mp (List.mem_of_find?_eq_some hw)]

theorem bankAccess_store (s : State) (r : Fin 4) (w : Fin 65536) (who : Fin 9) (v : Word) (n : Nat) :
    bankAccess s ⟨r, w, who, some v, n⟩ = clearEcc (setRramRaw s r w.val v) .regionRam r.val w.val := rfl

/-- R18: a bank serves a store that alone waits: the word is stored, and nothing waits for the banks. -/
theorem serveBank_store (s : State) (r : Fin 4) (k : Fin 8) (w : Fin 65536) (who : Fin 9) (v : Word) (n : Nat)
    (hb : s.agenda.banks = [⟨r, w, who, some v, n⟩]) (hk : k.val = w.val % 8) (hn : n ≤ s.time.tick) :
    ∃ z : State, z.mem = s.mem ∧ z.agenda.banks = [] ∧
      serveBank s r k = clearEcc (setRramRaw z r w.val v) .regionRam r.val w.val := by
  have hbank : bankOf ⟨r, w, who, some v, n⟩ = k := Fin.ext hk.symm
  simp only [serveBank, hb, hbank, hn, List.filter_cons, List.filter_nil, and_self, decide_true, Option.isSome_some,
    Bool.true_or, Bool.and_self, if_true, bankPick_single, bankAccess_store]
  refine ⟨_, ?_, ?_, rfl⟩
  · rw [noteWait_mem]
  · rw [noteWait_agenda]
    exact List.erase_cons_head ..

theorem portRram_askBank (s : State) (r : Fin 4) (w : Nat) (v : Word) (hw : w < 0x10000) :
    portRram (askBank s r w 8 (some v)) r w = v := by
  have hw' : (Fin.ofNat 65536 w).val = w := Nat.mod_eq_of_lt hw
  simp only [portRram, askBank, List.filter_append, List.filter_cons, hw', Option.isSome_some, and_self, decide_true,
    Bool.and_self, if_true, List.filter_nil, List.getLast?_concat, Option.getD_some]

/-! ### Words of block parameter RAM (R44, R351) -/

theorem pramIndex_ne (c b : Fin 32) (u w : Nat) (hu : u < 0x2000) (hw : w < 0x2000) (h : c ≠ b ∨ u ≠ w) :
    c.val * 8192 + u ≠ b.val * 8192 + w := by
  rw [ne_eq, Fin.ext_iff] at h
  omega

/-- A store of a parameter-RAM word: the memory with its check bits, and for an imaged group the notes of its tick. -/
theorem storePram_frame (s : State) (b : Fin 32) (w : Nat) (v : Word) : ∃ hlog ecc, storePram s b w v = { s with
    par := { s.par with hlog := hlog }
    mem := { s.mem with pram := memPut pramReset s.mem.pram (b.val * 8192 + w) v, ecc := ecc } } := by
  unfold storePram
  dsimp only
  split <;> exact ⟨_, _, rfl⟩

theorem writePramWord_eq_storePram (s : State) (b : Fin 32) (w : Nat) (k : RamAlias) (v : Word)
    (h : eccBad s .paramRam b.val w = false) : writePramWord s b w k v = storePram s b w (ramWord k (pramAt s b w) v) := by
  cases k with
  | direct => rfl
  | set | clear => simp [writePramWord, h]

theorem writePlace_pram (s : State) (req : Requester) (low v : Word) (b : Fin 32) (w : Nat) (k : RamAlias) (i : PInfo)
    (h : eccBad s .paramRam b.val w = false) :
    writePlace s req low (.pram b w k) i v = (storePram s b w (ramWord k (pramAt s b w) v), .ok) := by
  rw [← writePramWord_eq_storePram s b w k v h]
  rfl

/-- R9: a write of a parameter-RAM word, as the end of its tick carries it out. -/
theorem acts_pram (z : State) (req : Requester) (low v : Word) (b : Fin 32) (w : Nat) (k : RamAlias)
    (h : eccBad z .paramRam b.val w = false) : ∃ hlog ecc, Acts z req low (.pram b w k) v = { z with
      par := { z.par with hlog := hlog }
      mem := { z.mem with pram := memPut pramReset z.mem.pram (b.val * 8192 + w) (ramWord k (pramAt z b w) v), ecc := ecc } } := by
  obtain ⟨hlog, ecc, hs⟩ := storePram_frame z b w (ramWord k (pramAt z b w) v)
  refine ⟨hlog, ecc, ?_⟩
  rw [acts_eq z _ req low (.pram b w k) _ v .ok rfl (writePlace_pram z req low v b w k _ h), hs]

theorem sendWrite_pram (s : State) (who : Requester) (b : Fin 32) (w : Nat) (k : RamAlias) (i : PInfo) (v : Word)
    (hi : paramInfo (.pram b w k) = some i) : sendWrite s who (.pram b w k) i v = (Committed s who (.pram b w k) v, .ok) := by
  obtain rfl := Option.some.inj hi
  exact sendWrite_late s who (.pram b w k) _ v rfl rfl

/-- R44, R293: WRITE_PARAM to a word of parameter RAM, through any of its windows. -/
theorem exec_writeParam_pram (e : Entry) (b : Fin 32) (w : Nat) (k : RamAlias) (s z : State) (h : Takes s 0x11 e z)
    (hw : w < 0x2000) (ha : e.a0.toNat = paOf (.pram b w k)) :
    exec (.writeParam e) s = .next (Completes (Committed z .host (.pram b w k) e.a1) 0x11 e .ok 0) := by
  refine cmdRun_ends (.writeParam e) 0x11 e (cmdWriteParam e) s z _ .ok 0 h ?_
  rw [cmdWriteParam, ha, writeParam_send z .host (.pram b w k) _ e.a1 hw rfl rfl, sendWrite_pram z .host b w k _ e.a1 rfl]
  rfl

/-! ### PLLs, the reference and the core clock (R24 to R27) -/

theorem bit_or_one_zero (v : Word) : bit (v ||| 1) 0 = true := by simp [bit]

theorem bit_or_one_one (v : Word) : bit (v ||| 1) 1 = bit v 1 := by simp [bit]

theorem inTick_congr (s : State) (n : Nat) (f g : State → State) (h : ∀ y : State, y.time.clk = s.time.clk → f y = g y) :
    inTick s n f = inTick s n g := by
  have hy := h { s with time := { s.time with tick := s.time.tick + n, lt := s.time.lt + BitVec.ofNat 48 n } } rfl
  simp only [inTick, hy]

/-- R24: without a locked standby PLL a requested switchover is refused. -/
theorem inTick_requestSwitch_unlocked (s : State) (n : Nat) (h : s.time.clk.standbyLock = false) :
    inTick s n requestSwitch = inTick s n (fun y => orReg y (.chip 0x22) 0x10) :=
  inTick_congr s n _ _ fun y hy => by simp [requestSwitch, hy, h]

theorem inTick_requestSwitch_locked (s : State) (n : Nat) (h : s.time.clk.standbyLock = true) :
    inTick s n requestSwitch = inTick s n switchover :=
  inTick_congr s n _ _ fun y hy => by simp [requestSwitch, hy, h]

/-- R24, R41: PLL_CTRL with SWITCH and STANDBY_EN. -/
theorem writePllCtrl_switch (z : State) (v : Word) (h : bit v 1 = true) :
    writePllCtrl z (v ||| 1) = (setReg (inTick z 1 requestSwitch) (.chip 0x21) ((v ||| 1) &&& 2), .ok) := by
  simp only [writePllCtrl, bit_or_one_zero, bit_or_one_one, h, if_true]

theorem doActiveLockLoss_locked (s : State) (ha : alive s = true) (hl : s.time.clk.activeLock = true) :
    doActiveLockLoss s = switchover (updClk s (fun c => { c with activeLock := false })) := by
  simp [doActiveLockLoss, ha, hl]

theorem doStandbyLock_gain (s : State) (ha : alive s = true) (hl : s.time.clk.standbyLock = false)
    (hr : s.time.clk.refOk = true) (he : standbyEn s = true) :
    doStandbyLock true s = secondSwitchover (updClk s (fun c => { c with standbyLock := true })) := by
  simp [doStandbyLock, ha, hl, hr, he]

theorem doStandbyLock_loss (s : State) (ha : alive s = true) (hl : s.time.clk.standbyLock = true) :
    doStandbyLock false s = report (updClk s (fun c => { c with standbyLock := false })) 0x06 .chip 2 false := by
  simp [doStandbyLock, ha, hl]

theorem doReferenceLost_present (s : State) (ha : alive s = true) (hr : s.time.clk.refOk = true) :
    doReferenceLost s = report (bump (updClk s (fun c => { c with refOk := false, holdover := true, standbyLock := false }))
      (.chip 0x23) 23 8 1) 0x06 .chip 3 false := by
  simp [doReferenceLost, ha, hr]

theorem doReferenceReturn_absent (s : State) (ha : alive s = true) (hr : s.time.clk.refOk = false) :
    doReferenceReturn s = report (updClk s (fun c => { c with refOk := true, holdover := false })) 0x06 .chip 4 false := by
  simp [doReferenceReturn, ha, hr]

theorem doCoreClockLost_running (s : State) (hm : s.sys.mode ≠ .retention) (hc : s.time.clk.coreLost = false) :
    doCoreClockLost s = { updClk s (fun c => { c with coreLost := true }) with
      boot := { s.boot with clkLost := some (now s) } } := by
  simp [doCoreClockLost, hm, hc, updClk]

/-! ### Edges of inputs and captures (R92, R93) -/

theorem alive_of_cellsOn (s : State) (h : cellsOn s = true) : alive s = true := (Bool.and_eq_true_iff.mp h).1

/-- R93: an edge that reaches no cell's input gives the ball its level. -/
theorem doInputEdge_unused (b : Ball) (l : Bool) (t : T16) (s : State) (hc : clockOn s = true) (hl : ballIn s b ≠ l)
    (hd : due s (tickPart t) = true) (hi : inputOf s b = none) : doInputEdge b l t s = setBall s b l := by
  simp [doInputEdge, hc, hl, hd, hi]

/-- R93: an edge of a cell's input, as far as the engines and the cells work. -/
theorem doInputEdge_used (b : Ball) (l : Bool) (t : T16) (n : Fin 512) (s : State) (hc : clockOn s = true)
    (hl : ballIn s b ≠ l) (hd : due s (tickPart t) = true) (hi : inputOf s b = some n) (ha : alive s = true) :
    doInputEdge b l t s = if cellsOn s then measureAll (pewterSee (setBall s b l) n l t) n l t
      else pewterSee (setBall s b l) n l t := by
  simp [doInputEdge, hc, hl, hd, hi, ha]

/-- R92: a selected edge enters the FIFO of a cell that makes no records of captures and has room. -/
theorem doCapture_enters (s : State) (c : Fin 512) (rise : Bool) (t : T16) (x : XSrc) (hx : capSrc s c = some x)
    (hc : cellsOn s = true) (hon : capOn s c = true) (hd : due s (captureTick s x t) = true)
    (hsel : (if rise != regBit s (.cell c 0x0C) 11
      then decide (regFld s (.cell c 0x0C) 10 9 = 1 ∨ regFld s (.cell c 0x0C) 10 9 = 3)
      else decide (regFld s (.cell c 0x0C) 10 9 = 2 ∨ regFld s (.cell c 0x0C) 10 9 = 3)) = true)
    (hrec : regBit s (.cell c 0x09) 13 = false) (hroom : s.cells[c].fifo.length < 4) :
    doCapture s c rise t = cellRequest (updCell (wearKind s c 4) c (fun k =>
      { k with fifo := k.fifo ++ [⟨t, rise != regBit s (.cell c 0x0C) 11⟩] })) c 1 (absOf s (captureTick s x t)) := by
  have hfull : ¬4 ≤ s.cells[c].fifo.length := by omega
  simp only [doCapture, hx, hc, hon, hsel, hd, hrec, hfull, Bool.and_self, Bool.not_true, Bool.false_eq_true, if_false]

/-- R92: a read of CAP_LO takes the oldest capture out and keeps it for its requester. -/
theorem readCapLo_cons (s : State) (who : Requester) (c : Fin 512) (k : Capture) (l : List Capture)
    (h : s.cells[c].fifo = k :: l) : (readCapLo s who c).2 = updCell s c (fun x =>
      { x with fifo := l, popped := (who, k) :: x.popped.filter (fun p => !decide (p.1 = who)) }) := by
  simp only [readCapLo, h]

/-! ### CELL_CTRL (R82, R85) -/

/-- R81, R312: CELL_CTRL stored with its image word. -/
abbrev ctrlStored (z : State) (c : Fin 512) (v : Word) : State :=
  imageCell (setReg z (.cell c 0x01) (v &&& 0x0000FB)) c 1 (v &&& 0x0000FB)

theorem forceLatch_zero (s : State) (c : Fin 512) : forceLatch s c 0 = s := by
  simp [forceLatch]

theorem writeCellCtrl_enables (z : State) (c : Fin 512) (v : Word) (he : cellEn z c = false) (hv : bit v 0 = true)
    (hf : fld v 9 8 = 0) : writeCellCtrl z c v = (cellEnable (ctrlStored z c v) c, .ok) := by
  simp only [writeCellCtrl, he, hv, hf, forceLatch_zero, Bool.not_false, Bool.and_self, if_true]

theorem writeCellCtrl_disables (z : State) (c : Fin 512) (v : Word) (he : cellEn z c = true) (hv : bit v 0 = false)
    (hf : fld v 9 8 = 0) : writeCellCtrl z c v = (cellDisable (ctrlStored z c v) c, .ok) := by
  simp only [writeCellCtrl, he, hv, hf, forceLatch_zero, Bool.not_false, Bool.and_self, Bool.false_and, Bool.false_eq_true,
    if_false, if_true]

/-- R82: a write that leaves a cell enabled stores CELL_CTRL and forces the latch where FORCE says. -/
theorem writeCellCtrl_forces (z : State) (c : Fin 512) (v : Word) (he : cellEn z c = true) (hv : bit v 0 = true) :
    writeCellCtrl z c v = (forceLatch (ctrlStored z c v) c (fld v 9 8), .ok) := by
  simp only [writeCellCtrl, he, hv, Bool.not_true, Bool.and_false, Bool.false_and, Bool.false_eq_true, if_false]

/-- R9: a row that writes CELL_CTRL. -/
theorem run_cellCtrl (req : Requester) (c : Fin 512) (v : Word) (s : State) (h : Accepts s req (.cell c 0x01) v) :
    run (rowWrite req (.cell c 0x01) v) s = .next (settle (Committed s req (.cell c 0x01) v)) :=
  run_rowWrite_waits req (.cell c 0x01) _ v s (show _ < 0x20 by decide) h rfl rfl rfl

/-! ### Compares (R85, R86, R101) -/

/-- R86: a value no more than two ticks before the present one is not refused as past. -/
theorem pastRefused_of_near (s : State) (c : Fin 512) (t : Time) (h : -2 ≤ (t - now s).toInt) :
    pastRefused s c t = false := by
  have he : (compareEdge (now s) t 0).isNone = false := by
    unfold compareEdge
    dsimp only
    rw [if_pos h]
    split <;> rfl
  rw [pastRefused, he, Bool.false_and]

/-- R85: who a compare belongs to that a requester writes. -/
def writeOwner (req : Requester) : CmpOwner :=
  match req with
  | .block _ => .routine
  | _ => .param

/-- R85, R86: on an enabled cell that gives its compares, a pair that is not past commits and arms. -/
theorem writeCmpHi_arms (s : State) (req : Requester) (c : Fin 512) (u : CmpUnit) (low v : Word)
    (hh : cellHeld s c = false) (he : cellEn s c = true) (hg : givesCompare s req c = true)
    (hn : -2 ≤ (mkTime v low - now s).toInt) : writeCmpHi s req c u low v =
      (addLate s (rankOf req) req (.compare c u (mkTime v low) (cmpTrim s req c u) none (writeOwner req) true), .ok) := by
  simp only [writeCmpHi, hh, he, hg, pastRefused_of_near s c _ hn, Bool.not_true, Bool.false_eq_true, if_false]
  rfl

/-- R85: on a disabled cell the pair commits and arms nothing. -/
theorem writeCmpHi_stores (s : State) (req : Requester) (c : Fin 512) (u : CmpUnit) (low v : Word)
    (hh : cellHeld s c = false) (he : cellEn s c = false) : writeCmpHi s req c u low v =
      (addLate s (rankOf req) req (.compare c u (mkTime v low) (cmpTrim s req c u) none (writeOwner req) false), .ok) := by
  simp only [writeCmpHi, hh, he, Bool.not_false, Bool.false_eq_true, if_false, if_true]
  rfl

/-- R86, R88: a compare committed three ticks or more ahead, with no match to carry out first, arms at its own instant. -/
theorem applyCompare_arms (z : State) (c : Fin 512) (u : CmpUnit) (t : Time) (trim : BitVec 4) (act : Option EdgeAct)
    (w : CmpOwner) (he : cellEn z c = true) (hd : compareDue z c u = false) (ht : 3 ≤ (t - now z).toInt) :
    applyCompare z c u t trim act w true =
      loadCompare (disarm z c u 0x02) c u t trim (mk16 t trim) act w false := by
  have hm : latchMatch z c u = z := by simp [latchMatch, hd]
  have hedge : compareEdge (now z) t trim = some (mk16 t trim) := if_pos ht
  simp only [applyCompare, he, commitCompare, hm, hedge, Bool.and_self, if_true]

theorem applyCompare_stores (z : State) (c : Fin 512) (u : CmpUnit) (t : Time) (trim : BitVec 4) (act : Option EdgeAct)
    (w : CmpOwner) : applyCompare z c u t trim act w false =
      updCell z c (fun x => setCmp x u { cmpOf x u with value := t, trim := trim }) := by
  simp only [applyCompare, Bool.false_and, Bool.false_eq_true, if_false]

/-- R86: an armed compare of COMPARE or MICROCODE mode whose match has come. -/
theorem doCompareMatch_compare (s : State) (c : Fin 512) (u : CmpUnit) (hc : cellsOn s = true) (he : cellEn s c = true)
    (hm : cellMode s c = 1 ∨ cellMode s c = 7) (ha : (cmpOf s.cells[c] u).armed = true)
    (hd : matchDue s (cmpOf s.cells[c] u).edge = true) : doCompareMatch s c u = edgesOut (matchCompare s c u) := by
  have h6 : cellMode s c ≠ 6 := by omega
  have hdue : compareDue s c u = true := by
    simp only [compareDue, hc, he, hm, ha, hd, decide_true, Bool.and_self]
  simp only [doCompareMatch, hc, he, h6, hdue, Bool.and_self, Bool.not_true, Bool.false_eq_true, if_false, if_true]

/-- R101: the next start of an angle queue whose match has come. -/
theorem doCompareMatch_start (s : State) (c : Fin 512) (o : Occ) (hc : cellsOn s = true) (he : cellEn s c = true)
    (hm : cellMode s c = 6) (ho : nextStart s.cells[c].queue = some o) (hd : matchDue s o.startAt = true) :
    doCompareMatch s c .a = edgesOut (fireStart s c o) := by
  simp only [doCompareMatch, hc, he, hm, ho, hd, Bool.and_self, Bool.not_true, Bool.false_eq_true, if_false, if_true]

/-- R101: the next end of an angle queue whose match has come. -/
theorem doCompareMatch_end (s : State) (c : Fin 512) (o : Occ) (e : T16) (hc : cellsOn s = true) (he : cellEn s c = true)
    (hm : cellMode s c = 6) (ho : nextEnd s.cells[c].queue = some o) (hend : o.endAt = some e) (hs : o.startOut = true)
    (hd : matchDue s e = true) : doCompareMatch s c .b = edgesOut (fireEnd s c o e) := by
  simp only [doCompareMatch, hc, he, hm, ho, hend, hs, hd, Bool.and_self, Bool.not_true, Bool.false_eq_true, if_false, if_true]

/-! ### Readback (R91) -/

/-- R91: a difference not yet noted of the level driven is flagged and reported. -/
theorem doReadback_differs (s : State) (c : Fin 512) (ball l : Bool) (hl : driven s c = some l) (hc : cellsOn s = true)
    (hd : readbackDue s c = true) (hb : ball ≠ l) (hn : s.cells[c].rbAt ≠ some (l, s.cells[c].drvAt)) :
    doReadback c ball s = report (orReg (updCell s c (fun x => { x with rbAt := some (l, x.drvAt) })) (.cell c 0x08) 0x040000)
      0x10 (.cell c) (bitAt ball 1 + bitAt l 0) false := by
  simp only [doReadback, hl, hc, hd, hb, hn, Bool.and_self, Bool.not_true, Bool.false_eq_true, if_false]

theorem doReadback_agrees (s : State) (c : Fin 512) (l : Bool) (hl : driven s c = some l) (hc : cellsOn s = true)
    (hd : readbackDue s c = true) : doReadback c l s = updCell s c (fun x => { x with rbAt := none }) := by
  simp only [doReadback, hl, hc, hd, Bool.and_self, Bool.not_true, Bool.false_eq_true, if_false, if_true]

end Sys2Proof.Machine
end

section
/-!
PROOFS. The obligations of 01_architecture_and_timebase.md.
-/
namespace Sys2Proof.Machine

/-- Settles O35: each read comes to its place, which captures, takes the captured word, or shows the present line time. -/
theorem lineTimeReads : Obligations.LineTimeReads := by
  unfold Obligations.LineTimeReads
  refine ⟨?_, ?_, ?_, ?_⟩
  · intro s who hc
    rw [readParam_place s who (.chip 0x24) _ (show _ < 0x100 by decide) rfl rfl hc rfl, ← loWord_eq, ← hiWord_eq]
    rfl
  · exact fun s who w => ⟨capOf_setCap_same s who _ w, fun other h => capOf_setCap_other s who other _ _ w (.inl h), rfl⟩
  · exact fun s who w hc =>
      ⟨readParam_captured s who (.chip 0x25) _ w (show _ < 0x100 by decide) rfl rfl hc, capOf_dropCap_same s who _⟩
  · intro s who hc
    rw [readParam_place s who (.chip 0x25) _ (show _ < 0x100 by decide) rfl rfl hc rfl, ← hiWord_eq]
    rfl

/-- Settles O40: all windows write one word of one memory, which keeps its canonical form. -/
theorem aliasWrites : Obligations.AliasWrites := by
  unfold Obligations.AliasWrites
  refine ⟨exec_writeParam_pram, ?_⟩
  intro req b w k low v z hw he hm
  obtain ⟨hlog, ecc, hy⟩ := acts_pram z req low v b w k he
  refine ⟨_, hy, ?_, ?_, memPut_wf pramReset _ _ _ hm, rfl, SameUnits.refl _⟩
  · exact (memGet_put_same pramReset _ _ _ hm).trans (by cases k <;> rfl)
  · exact fun c u hu hne => memGet_put_other pramReset _ _ _ _ (pramIndex_ne c b u w hu hw hne) hm

/-- Settles O47, by induction on the records that wait. -/
theorem recordsInOrder : Obligations.RecordsInOrder := by
  unfold Obligations.RecordsInOrder
  exact fun l p h => ⟨placeRec_rises l p h, placeRec_split l p⟩

/-- Settles O57: the bank has one request, so it serves it, and a store is one word of one memory. -/
theorem regionRamStores : Obligations.RegionRamStores := by
  unfold Obligations.RegionRamStores
  refine ⟨?_, portRram_askBank⟩
  intro s r k w who v n hb hk hn hw
  obtain ⟨z, hmem, hbanks, hz⟩ := serveBank_store s r k w who v n hb hk hn
  rw [← hmem] at hw
  refine ⟨_, hz, hbanks, rramAt_setRramRaw_same z r w.val v hw, fun q u hu hne => ?_, memPut_wf (zeroMem 24) _ _ _ hw⟩
  rw [rramAt_clearEcc, rramAt_setRramRaw_other z r q w.val u v hw hu w.isLt hne]
  simp only [rramAt, hmem]

/-- Settles O53: line time is the preset or the discipline's count, and edges passed over do not move it. -/
theorem tickAdvancesTime : Obligations.TickAdvancesTime := by
  unfold Obligations.TickAdvancesTime
  refine ⟨advanceLine_stopped, ?_, ?_, ?_⟩
  · intro s p h hp
    have ht := advanceLine_preset_time s p h hp
    exact ⟨by rw [now, ht], by rw [ht]⟩
  · intro s h hp
    rw [now, now, advanceLine_disciplined_time s h hp]
    exact disciplined_lt s.time
  · intro s h hp hr hlo hhi
    rw [now, now, advanceLine_disciplined_time s h hp]
    exact disciplined_lt_of_no_rate s.time hr hlo hhi

/-- Settles O20: each row is its parameter access or its event under the conditions that let it happen. -/
theorem clockRowsComplete : Obligations.ClockRowsComplete := by
  unfold Obligations.ClockRowsComplete
  refine ⟨?_, ?_, ?_, ?_, ?_, ?_, ?_, ?_, ?_, ?_, ?_, ?_⟩
  · exact fun req v s ha => run_rowWrite_now req (.chip 0x27) _ v s _ (show _ < 0x100 by decide) ha rfl rfl rfl
  · exact fun req s hr hc => run_rowRead req (.chip 0x24) _ s (show _ < 0x100 by decide) hr hc rfl rfl rfl
  · intro req v s ha
    refine run_rowWrite_now req (.chip 0x50) _ (v ||| 1) s _ (show _ < 0x100 by decide) ha rfl rfl ?_
    show (if bit (v ||| 1) 0 then inTick s 1 (takeSnap req) else s, Status.ok) = _
    rw [bit_or_one_zero, if_pos rfl]
  · exact fun req v s ha =>
      run_rowWrite_waits req (.chip 0x21) _ (v ||| 1) s (show _ < 0x100 by decide) ha rfl rfl rfl
  · intro req low v z hl hb
    have hw := writePllCtrl_switch z v hb
    rw [inTick_requestSwitch_unlocked z 1 hl] at hw
    exact acts_of_writePlace z _ req low (.chip 0x21) _ _ .ok rfl hw rfl rfl
  · intro req low v z hl hb
    have hw := writePllCtrl_switch z v hb
    rw [inTick_requestSwitch_locked z 1 hl] at hw
    exact acts_of_writePlace z _ req low (.chip 0x21) _ _ .ok rfl hw rfl rfl
  · intro s ha hl
    show run doActiveLockLoss s = _
    rw [run, doActiveLockLoss_locked s ha hl]
    rfl
  · intro s ha hl hr he
    show run (doStandbyLock true) s = _
    rw [run, doStandbyLock_gain s ha hl hr he]
    rfl
  · intro s ha hl
    show run (doStandbyLock false) s = _
    rw [run, doStandbyLock_loss s ha hl]
    rfl
  · intro s ha hr
    show run doReferenceLost s = _
    rw [run, doReferenceLost_present s ha hr]
    rfl
  · intro s ha hr
    show run doReferenceReturn s = _
    rw [run, doReferenceReturn_absent s ha hr]
    rfl
  · intro s hm hc
    show run doCoreClockLost s = _
    rw [run, doCoreClockLost_running s hm hc]
    rfl

/-- Settles O21: each row is its parameter access, the write as it acts, or its event under the conditions that let it happen. -/
theorem cellRowsComplete : Obligations.CellRowsComplete := by
  unfold Obligations.CellRowsComplete
  refine ⟨?_, ?_, ?_, ?_, ?_, ?_, ?_, ?_, ?_, ?_, ?_, ?_, ?_, ?_, ?_, ?_, ?_, ?_, ?_, ?_⟩
  · intro b l t n s hc hl hd hi hon
    show run (doInputEdge b l t) s = _
    rw [run, doInputEdge_used b l t n s hc hl hd hi (alive_of_cellsOn s hon), if_pos hon]
  · intro b l t s hc hl hd hi
    show run (doInputEdge b l t) s = _
    rw [run, doInputEdge_unused b l t s hc hl hd hi]
  · intro b l t n s hc hl hd hi ha hoff
    show run (doInputEdge b l t) s = _
    rw [run, doInputEdge_used b l t n s hc hl hd hi ha, hoff, if_neg Bool.false_ne_true]
  · intro c rise t x s hx hc hon hd hsel hrec hroom
    show run (fun z => doCapture z c rise t) s = _
    rw [run, doCapture_enters s c rise t x hx hc hon hd hsel hrec hroom]
  · intro req c k l s hr hc hf
    show run (rowRead req (.cell c 0x06)) s = _
    rw [run_rowRead req (.cell c 0x06) _ s (show _ < 0x20 by decide) hr hc rfl rfl rfl]
    exact congrArg (fun y => Host.Outcome.next (settle y)) (readCapLo_cons s req c k l hf)
  · exact fun req c v s h => run_cellCtrl req c (v ||| 1) s h
  · exact fun req c low v z he hv hf =>
      acts_of_writePlace z _ req low (.cell c 0x01) _ v .ok rfl (writeCellCtrl_enables z c v he hv hf) rfl rfl
  · exact fun req c v s h => run_cellCtrl req c (v &&& 0xFFFFFE) s h
  · intro req c low v z he hv hf
    rw [acts_eq z _ req low (.cell c 0x01) _ v .ok rfl (writeCellCtrl_disables z c v he hv hf)]
  · exact fun req c v s h => run_cellCtrl req c v s h
  · intro req c low v z he hv
    rw [acts_eq z _ req low (.cell c 0x01) _ v .ok rfl (writeCellCtrl_forces z c v he hv)]
  · intro req c v t s ha hh he hg ht hn
    subst ht
    exact run_rowWrite_now req (.cell c 0x03) _ v s _ (show _ < 0x20 by decide) ha rfl rfl
      (writeCmpHi_arms s req c .a (lowOf s req (.cell c 0x02)) v hh he hg hn)
  · exact fun req c v s ha hh he => run_rowWrite_now req (.cell c 0x05) _ v s _ (show _ < 0x20 by decide) ha rfl rfl
      (writeCmpHi_stores s req c .b (lowOf s req (.cell c 0x04)) v hh he)
  · exact fun _ _ _ c u t trim act w z he hd ht => applyCompare_arms z c u t trim act w he hd ht
  · exact fun _ _ _ c u t trim act w z => applyCompare_stores z c u t trim act w
  · intro c u s hc he hm ha hd
    show run (fun z => doCompareMatch z c u) s = _
    rw [run, doCompareMatch_compare s c u hc he hm ha hd]
  · intro c o s hc he hm ho hd
    show run (fun z => doCompareMatch z c .a) s = _
    rw [run, doCompareMatch_start s c o hc he hm ho hd]
  · intro c o e s hc he hm ho hend hs hd
    show run (fun z => doCompareMatch z c .b) s = _
    rw [run, doCompareMatch_end s c o e hc he hm ho hend hs hd]
  · intro c ball l s hl hc hd hb hn
    show run (doReadback c ball) s = _
    rw [run, doReadback_differs s c ball l hl hc hd hb hn]
  · intro c l s hl hc hd
    show run (doReadback c l) s = _
    rw [run, doReadback_agrees s c l hl hc hd]

end Sys2Proof.Machine
end

section
/-!
SUPPORT. What 02_angle_domains.md comes to in the model: a domain after an update, writes of DOM_CTRL and what they leave of
a domain and its arm table, what a tracker has seen and its deadlines, teeth on their way to the leaves, the virtual generator,
and the other writes and reads of a domain.
-/
namespace Sys2Proof.Machine

/-! ### A domain after an update -/

theorem updDom_at (s : State) (d : Fin 16) (f : Dom → Dom) : (updDom s d f).doms[d] = f s.doms[d] := by simp [updDom]

theorem updDom_other (s : State) (d k : Fin 16) (f : Dom → Dom) (h : k ≠ d) : (updDom s d f).doms[k] = s.doms[k] := by
  have hv : d.val ≠ k.val := fun e => h (Fin.ext e.symm)
  simp [updDom, hv]

theorem updDom_updDom (s : State) (d : Fin 16) (f g : Dom → Dom) :
    updDom (updDom s d f) d g = updDom s d (fun x => g (f x)) := by
  simp [updDom]

theorem updDom_of_fixed (s : State) (d : Fin 16) (f : Dom → Dom) (h : f s.doms[d] = s.doms[d]) : updDom s d f = s := by
  have hs : s.doms.set d s.doms[d] = s.doms := by simp
  rw [updDom, h, hs]

/-- What an update of a domain leaves of the domains depends on the domains before it alone. -/
theorem updDom_doms_congr (s z : State) (d : Fin 16) (f : Dom → Dom) (h : z.doms = s.doms) :
    (updDom z d f).doms = (updDom s d f).doms := by
  simp only [updDom, h]

@[simp] theorem stateRecord_doms (s : State) (d : Fin 16) (tick : Nat) (ts : Time) (old new : SyncState) (cause : Nat)
    (ang : Word) : (stateRecord s d tick ts old new cause ang).doms = s.doms := by
  unfold stateRecord
  dsimp only
  split
  · simp
  · split <;> simp

@[simp] theorem forceEnds_doms (s : State) (d : Fin 16) (leaf : Time) : (forceEnds s d leaf).doms = s.doms := by
  rw [forceEnds, foldl_keep (·.doms)]
  intro z c
  rw [foldl_keep (·.doms)]
  exact fun _ _ => rfl

@[simp] theorem takeTrkCfg_doms (s : State) (d : Fin 16) : (takeTrkCfg s d).doms = s.doms := by
  unfold takeTrkCfg
  split <;> rfl

@[simp] theorem cancelPending_doms (s : State) (h : BitVec 12) (e : ArmEntry) (reason : Nat) :
    (cancelPending s h e reason).doms = s.doms := rfl

/-! ### A domain's arm table freed (R67, R94) -/

theorem handleDom_mkHandle (d : Fin 16) (k : BitVec 8) : handleDom (mkHandle d k) = d := by
  have hd := d.isLt
  have hk := k.isLt
  refine finOfNat_eq d _ ?_
  simp only [fld, mkHandle, BitVec.toNat_ofNat, Nat.shiftRight_eq_div_pow]
  omega

theorem handleSlot_mkHandle (d : Fin 16) (k : BitVec 8) : handleSlot (mkHandle d k) = k := by
  have hd := d.isLt
  have hk := k.isLt
  apply BitVec.eq_of_toNat_eq
  simp only [handleSlot, fld, mkHandle, BitVec.toNat_ofNat, Nat.shiftRight_eq_div_pow]
  omega

theorem armFind_ne_none (l : List (BitVec 8 × ArmEntry)) (p : BitVec 8 × ArmEntry) (h : p ∈ l) : armFind l p.1 ≠ none := by
  induction l with
  | nil => exact absurd h List.not_mem_nil
  | cons q t ih =>
    unfold armFind
    split
    · exact Option.some_ne_none _
    · next hq =>
      rcases List.mem_cons.mp h with rfl | ht
      · exact absurd rfl hq
      · exact ih ht

/-- R67: one entry of a disabled domain: a pending one is cancelled, and its slot is freed. -/
def freeHandle (x : State × Nat) (h : BitVec 12) : State × Nat :=
  match armGet x.1 h with
  | none => x
  | some e =>
    let pend := (occsOf x.1 h).isEmpty
    let s1 := if pend then cancelPending x.1 h e 0x04 else x.1
    (armFree (orphanOccs s1 (entCell e) h .orphan) h, if pend then x.2 + 1 else x.2)

theorem freeDomain_eq_foldl (s : State) (d : Fin 16) : freeDomain s d = (handlesOf s d).foldl freeHandle (s, 0) := rfl

theorem armFree_at (s : State) (h : BitVec 12) : (armFree s h).doms[handleDom h] =
    { s.doms[handleDom h] with arm := armRemove s.doms[handleDom h].arm (handleSlot h) } := updDom_at ..

theorem armFree_other (s : State) (h : BitVec 12) (k : Fin 16) (hk : k ≠ handleDom h) :
    (armFree s h).doms[k] = s.doms[k] := updDom_other _ _ _ _ hk

theorem freeHandle_none (x : State × Nat) (h : BitVec 12) (hg : armGet x.1 h = none) : freeHandle x h = x := by
  simp only [freeHandle, hg]

theorem freeHandle_some (x : State × Nat) (h : BitVec 12) (e : ArmEntry) (hg : armGet x.1 h = some e) :
    (freeHandle x h).1.doms = (armFree x.1 h).doms := by
  simp only [freeHandle, hg]
  refine updDom_doms_congr _ _ _ _ ?_
  rw [orphanOccs, updCell_doms]
  split <;> simp

/-- R67: what is left of a domain's table after an entry is freed was there before, in another slot. -/
theorem mem_arm_freeHandle (x : State × Nat) (h : BitVec 12) (d : Fin 16) (p : BitVec 8 × ArmEntry)
    (hp : p ∈ (freeHandle x h).1.doms[d].arm) : p ∈ x.1.doms[d].arm ∧ mkHandle d p.1 ≠ h := by
  cases hg : armGet x.1 h with
  | none =>
    rw [freeHandle_none x h hg] at hp
    refine ⟨hp, ?_⟩
    rintro rfl
    simp only [armGet, handleDom_mkHandle, handleSlot_mkHandle] at hg
    exact armFind_ne_none _ p hp hg
  | some e =>
    simp only [freeHandle_some x h e hg] at hp
    by_cases hd : d = handleDom h
    · subst hd
      rw [armFree_at] at hp
      obtain ⟨hm, hs⟩ := List.mem_filter.mp hp
      refine ⟨hm, fun hh => ?_⟩
      rw [← hh, handleSlot_mkHandle] at hs
      simp at hs
    · rw [armFree_other _ _ _ hd] at hp
      exact ⟨hp, fun hh => hd (hh ▸ handleDom_mkHandle d p.1).symm⟩

/-- R67, by induction on the handles freed: what is left of a table has none of them. -/
theorem mem_arm_foldl_freeHandle (hs : List (BitVec 12)) (x : State × Nat) (d : Fin 16) (p : BitVec 8 × ArmEntry)
    (hp : p ∈ (hs.foldl freeHandle x).1.doms[d].arm) : p ∈ x.1.doms[d].arm ∧ mkHandle d p.1 ∉ hs := by
  induction hs generalizing x with
  | nil => exact ⟨hp, List.not_mem_nil⟩
  | cons h t ih =>
    obtain ⟨hm, ht⟩ := ih (freeHandle x h) hp
    obtain ⟨hx, hh⟩ := mem_arm_freeHandle x h d p hm
    exact ⟨hx, List.not_mem_cons_of_ne_of_not_mem hh ht⟩

/-- R67: a disabled domain keeps no entry. -/
theorem freeDomain_arm (s : State) (d : Fin 16) : (freeDomain s d).1.doms[d].arm = [] := by
  refine List.eq_nil_iff_forall_not_mem.mpr fun p hp => ?_
  rw [freeDomain_eq_foldl] at hp
  obtain ⟨hm, hn⟩ := mem_arm_foldl_freeHandle _ _ d p hp
  exact hn (List.mem_map_of_mem hm)

/-- R67: freeing a domain's entries leaves of every domain whatever does not look at its arm table. -/
theorem freeDomain_keep {α : Type} (g : Dom → α) (hg : ∀ x l, g { x with arm := l } = g x) (s : State) (d k : Fin 16) :
    g (freeDomain s d).1.doms[k] = g s.doms[k] := by
  have step : ∀ (hs : List (BitVec 12)) (x : State × Nat), g (hs.foldl freeHandle x).1.doms[k] = g x.1.doms[k] := by
    intro hs
    induction hs with
    | nil => exact fun _ => rfl
    | cons h t ih =>
      intro x
      rw [List.foldl_cons, ih]
      cases hgt : armGet x.1 h with
      | none => rw [freeHandle_none x h hgt]
      | some e =>
        simp only [freeHandle_some x h e hgt]
        by_cases hk : k = handleDom h
        · subst hk
          rw [armFree_at]
          exact hg ..
        · rw [armFree_other _ _ _ hk]
  exact step _ _

/-! ### Writes of DOM_CTRL (R65, R66, R79) -/

theorem domEnable_enabled (s : State) (d : Fin 16) (h : domEn s d = true) : domEnable s d = (s, .ok) := by
  simp only [domEnable, h, if_true]

/-- R51: CONFLICT where the tracker serves another enabled domain. -/
theorem domEnable_conflict (s : State) (d : Fin 16) (h : domEn s d = false) (ht : trkTaken s d = true) :
    domEnable s d = (s, .conflict) := by
  simp only [domEnable, h, ht, Bool.false_eq_true, if_false, if_true]

/-- R51: enabling is taken of an enabled domain, and of any whose tracker is free. -/
theorem domEnable_ok (s : State) (d : Fin 16) (h : domEn s d = true ∨ trkTaken s d = false) : (domEnable s d).2 = .ok := by
  cases he : domEn s d with
  | true => rw [domEnable_enabled s d he]
  | false =>
    have ht : trkTaken s d = false := h.resolve_left (by simp [he])
    simp only [domEnable, he, ht, Bool.false_eq_true, if_false]

/-- R65: a host write's change of state is the state of the domain and of its leaves. -/
theorem hostChange_st (s : State) (d : Fin 16) (new : SyncState) (cause : Nat) :
    (hostChange s d new cause).doms[d].st = new ∧ (hostChange s d new cause).doms[d].leafSt = new := by
  rw [hostChange, updDom_at]
  exact ⟨rfl, rfl⟩

/-- R74: starting the generator leaves the domain's state. -/
theorem vgStart_st (s : State) (d : Fin 16) :
    (vgStart s d).doms[d].st = s.doms[d].st ∧ (vgStart s d).doms[d].leafSt = s.doms[d].leafSt := by
  unfold vgStart
  dsimp only
  split
  · exact ⟨rfl, rfl⟩
  · rw [updDom_at]
    exact ⟨rfl, rfl⟩

/-- R51, R65: the state of a domain once enabled. -/
theorem domEnable_st (s : State) (d : Fin 16) (h : domEn s d = false) (ht : trkTaken s d = false) :
    (domEnable s d).1.doms[d].st = (if domKind s d = 3 then .stopped else .syncing) ∧
      (domEnable s d).1.doms[d].leafSt = (domEnable s d).1.doms[d].st := by
  simp only [domEnable, h, ht, Bool.false_eq_true, if_false, decide_eq_true_eq]
  obtain ⟨hs, hl⟩ := hostChange_st (orReg s (.dom d 0x00) 1) d (if domKind s d = 3 then .stopped else .syncing) 0x01
  split <;> simp only [vgStart_st, updDom_at, clearSync, hs, hl, and_self]

/-- R65, R67: a domain once disabled is OFF, its leaves too, and its arm table is empty. -/
theorem domDisable_st (s : State) (d : Fin 16) (h : domEn s d = true) :
    (domDisable s d).1.doms[d].st = .off ∧ (domDisable s d).1.doms[d].leafSt = .off ∧
      (domDisable s d).1.doms[d].arm = [] := by
  obtain ⟨hs, hl⟩ := hostChange_st (clrReg s (.dom d 0x00) 1) d .off 0x0D
  simp only [domDisable, h, Bool.not_true, Bool.false_eq_true, if_false]
  refine ⟨?_, ?_, freeDomain_arm _ d⟩
  · rw [freeDomain_keep (·.st) fun _ _ => rfl]
    simp only [forceEnds_doms, takeTrkCfg_doms, updDom_at, dropPeriod, hs]
  · rw [freeDomain_keep (·.leafSt) fun _ _ => rfl]
    simp only [forceEnds_doms, takeTrkCfg_doms, updDom_at, dropPeriod, hl]

/-- R79: EN = 1 without RESYNC enables, where the tracker is free. -/
theorem writeDomCtrl_enable (s : State) (d : Fin 16) (v : Word) (h0 : bit v 0 = true) (h1 : bit v 1 = false) :
    (writeDomCtrl s d v).1 = (domEnable s d).1 := by
  simp only [writeDomCtrl, h0, h1, Bool.false_eq_true, if_false, if_true]
  split <;> rfl

theorem writeDomCtrl_disable (s : State) (d : Fin 16) (v : Word) (h0 : bit v 0 = false) :
    writeDomCtrl s d v = ((domDisable s d).1, .ok) := by
  simp only [writeDomCtrl, h0, Bool.false_eq_true, if_false]

/-- R79: EN and RESYNC of an enabled domain. -/
theorem writeDomCtrl_resync (s : State) (d : Fin 16) (v : Word) (h0 : bit v 0 = true) (h1 : bit v 1 = true)
    (he : domEn s d = true) : writeDomCtrl s d v = (domResync s d, .ok) := by
  simp only [writeDomCtrl, h0, h1, domEnable_enabled s d he, ne_eq, not_true_eq_false, if_false, if_true]

/-- R51, R79: what a write of DOM_CTRL answers. -/
theorem writeDomCtrl_ok (s : State) (d : Fin 16) (v : Word) (h : bit v 0 = false ∨ domEn s d = true ∨ trkTaken s d = false) :
    (writeDomCtrl s d v).2 = .ok := by
  cases h0 : bit v 0 with
  | false => rw [writeDomCtrl_disable s d v h0]
  | true =>
    have hok : (domEnable s d).2 = .ok := domEnable_ok s d (h.resolve_left (by simp [h0]))
    simp only [writeDomCtrl, h0, hok, ne_eq, not_true_eq_false, if_false, if_true]

/-- R9: of the domains a class L write does what its unit does. -/
theorem acts_doms (z y : State) (req : Requester) (low : Word) (l : PLoc) (i : PInfo) (v : Word) (t : Status)
    (hi : paramInfo l = some i) (hw : writePlace z req low l i v = (y, t)) : (Acts z req low l v).doms = y.doms := by
  rw [acts_eq z y req low l i v t hi hw]

theorem acts_domCtrl_doms (z : State) (req : Requester) (low : Word) (d : Fin 16) (v : Word) :
    (Acts z req low (.dom d 0x00) v).doms = (writeDomCtrl z d v).1.doms :=
  acts_doms z _ req low (.dom d 0x00) _ v (writeDomCtrl z d v).2 rfl rfl

/-! ### The commands on domains (R292, R293) -/

theorem cmdStartDomain_ok (e : Entry) (s : State) (h : domEn (lateView s) (domArg e) = true ∨
    trkTaken (lateView s) (domArg e) = false) :
    cmdStartDomain e s = ends (addLate s 4 .host (.write 0 (.dom (domArg e) 0x00) 1)) .ok := by
  simp only [cmdStartDomain, domEnable_ok _ _ h, ne_eq, not_true_eq_false, if_false]

theorem cmdStartDomain_conflict (e : Entry) (s : State) (h : domEn (lateView s) (domArg e) = false)
    (ht : trkTaken (lateView s) (domArg e) = true) : cmdStartDomain e s = ends s .conflict := by
  rw [cmdStartDomain, domEnable_conflict _ _ h ht]
  rfl

/-- R67: STOP_DOMAIN that leaves the entries to the disable. -/
theorem cmdStopDomain_frees (e : Entry) (s : State) (h : bit e.a0 8 = false) : cmdStopDomain e s =
    endsWith (addLate s 4 .host (.write 0 (.dom (domArg e) 0x00) 0)) .ok (word (domDisable (lateView s) (domArg e)).2) := by
  simp only [cmdStopDomain, h, Bool.false_eq_true, if_false, Nat.zero_add]

/-- R293: STOP_DOMAIN that cancels the domain's entries first. -/
theorem cmdStopDomain_cancels (e : Entry) (s : State) (h : bit e.a0 8 = true) : cmdStopDomain e s =
    endsWith (addLate (cancelEntries s (handlesOf s (domArg e)) (bit e.a0 9)).1 4 .host (.write 0 (.dom (domArg e) 0x00) 0)) .ok
      (word ((cancelEntries s (handlesOf s (domArg e)) (bit e.a0 9)).2 +
        (domDisable (lateView (cancelEntries s (handlesOf s (domArg e)) (bit e.a0 9)).1) (domArg e)).2)) := by
  simp only [cmdStopDomain, h, if_true]

/-! ### What a tracker has seen (R56, R78) -/

theorem flushIntake_of_nil (s : State) (d : Fin 16) (h : s.doms[d].intake = []) : flushIntake s d = s := by
  rw [flushIntake, h, List.foldl_nil]
  exact updDom_of_fixed s d _ (by rw [← h])

/-- R78: the tick of taking in is the tracker's, whatever its domain holds. -/
theorem takeDue_updDom (s : State) (d : Fin 16) (f : Dom → Dom) (e : Intake) :
    takeDue (updDom s d f) d e = takeDue s d e := rfl

/-- What is seen where nothing waits joins alone. -/
theorem seeIntake_of_nil (s : State) (d : Fin 16) (e : Intake) (h : s.doms[d].intake = []) :
    seeIntake s d e = takeIn (updDom s d (fun x => { x with intake := [e] })) d := by
  simp only [seeIntake, updDom, h, insertIntake]

/-- R78: what is seen where nothing waits, and is due, is taken at once. -/
theorem seeIntake_due (s : State) (d : Fin 16) (e : Intake) (h : s.doms[d].intake = []) (hd : takeDue s d e = true) :
    seeIntake s d e = takeEvent s d e := by
  have hs : updDom s d (fun x => { x with intake := [] }) = s := updDom_of_fixed s d _ (by rw [← h])
  rw [seeIntake_of_nil s d e h]
  simp only [takeIn, updDom_at, updDom_updDom, List.takeWhile_cons, List.dropWhile_cons, takeDue_updDom, hd, if_true,
    List.takeWhile_nil, List.dropWhile_nil, List.foldl_cons, List.foldl_nil, hs]

/-- R78: what is seen where nothing waits, before its tick, waits alone. -/
theorem seeIntake_waits (s : State) (d : Fin 16) (e : Intake) (h : s.doms[d].intake = []) (hd : takeDue s d e = false) :
    seeIntake s d e = updDom s d (fun x => { x with intake := [e] }) := by
  rw [seeIntake_of_nil s d e h]
  simp only [takeIn, updDom_at, updDom_updDom, List.takeWhile_cons, List.dropWhile_cons, takeDue_updDom, hd,
    Bool.false_eq_true, if_false, List.foldl_nil]

theorem doToothEdge_selected (k : Fin 16) (rise : Bool) (t : T16) (d : Fin 16) (s : State) (hk : domOfTrk s k = some d)
    (hon : domsOn s = true) (hd : due s (tickPart t) = true)
    (hsel : (if rise then decide (fld (trkCfg s d) 9 8 = 1 ∨ fld (trkCfg s d) 9 8 = 3)
      else decide (fld (trkCfg s d) 9 8 = 2 ∨ fld (trkCfg s d) 9 8 = 3)) = true) :
    doToothEdge k rise t s = seeIntake s d (.edge (tickPart t)) := by
  simp only [doToothEdge, hk, hon, hd, hsel, Bool.and_self, if_true]

/-- R53, R58: an edge that is neither a gap edge nor noise, of a domain that is not LOST, is accepted. -/
theorem takeEdge_accepts (s : State) (d : Fin 16) (t : Time) (hl : (catchUp s d t).doms[d].st ≠ .lost)
    (hg : isGapEdge (catchUp s d t) d t = false) (hn : noisy (catchUp s d t) d t = false) :
    takeEdge s d t = acceptEdge (countEdge (catchUp s d t) (trkOf s d) t false) d t := by
  simp only [takeEdge, hl, hg, hn, Bool.false_eq_true, if_false]

/-! ### Deadlines (R54 to R57, R68) -/

/-- R56: with no gap tooth due and no deadline before an instant, nothing passes before it. -/
theorem passOne_idle (s : State) (d : Fin 16) (t : Time) (hg : gapToothDue s d = none)
    (hs : ∀ y, standDue s d = some y → before y t = false) (hm : ∀ m, missDue s d = some m → before m t = false) :
    passOne s d t = s := by
  cases hst : standDue s d with
  | none =>
    cases hms : missDue s d with
    | none => simp only [passOne, hg, hst, hms]
    | some m => simp only [passOne, hg, hst, hms, hm m hms, Bool.false_eq_true, if_false]
  | some y =>
    have hy : before y t = false := hs y hst
    cases hms : missDue s d with
    | none => simp only [passOne, hg, hst, hms, hy, Bool.false_and, Bool.false_eq_true, if_false]
    | some m => simp only [passOne, hg, hst, hms, hy, hm m hms, Bool.false_and, Bool.false_eq_true, if_false]

theorem catchUp_idle (s : State) (d : Fin 16) (t : Time) (h : passOne s d t = s) : catchUp s d t = s := by
  have hfold : ∀ l : List Nat, l.foldl (fun z _ => passOne z d t) s = s := by
    intro l
    induction l with
    | nil => rfl
    | cons n t ih => rw [List.foldl_cons, h, ih]
  exact hfold _

/-- R54, R55: a miss deadline that is due, before any standstill deadline. -/
theorem doMissDeadline_due (s : State) (d : Fin 16) (m : Time) (hm : missDue (flushIntake s d) d = some m)
    (hs : ∀ y, standDue (flushIntake s d) d = some y → after y m = true) (hon : domsOn s = true) (hd : due s m = true) :
    doMissDeadline d s = if (flushIntake s d).doms[d].synthLast then passMiss (flushIntake s d) d m
      else seeIntake s d (.miss m) := by
  cases h : standDue (flushIntake s d) d with
  | none => simp only [doMissDeadline, hm, h, hon, hd, Bool.not_false, Bool.and_self, Bool.not_true, Bool.false_eq_true, if_false]
  | some y =>
    simp only [doMissDeadline, hm, h, hs y h, hon, hd, Bool.not_true, Bool.not_false, Bool.and_self, Bool.false_eq_true, if_false]

theorem doGapTooth_due (s : State) (d : Fin 16) (g : Time) (hg : gapToothDue (flushIntake s d) d = some g)
    (hon : domsOn s = true) (hd : due s g = true) : doGapTooth d s = seeIntake s d (.gap g) := by
  simp only [doGapTooth, hg, hon, hd, Bool.and_self, if_true]

theorem doStandstillDeadline_due (s : State) (d : Fin 16) (y : Time) (hy : standDue (flushIntake s d) d = some y)
    (hon : domsOn s = true) (hd : due s y = true) : doStandstillDeadline d s = stopDomain (flushIntake s d) d y := by
  simp only [doStandstillDeadline, hy, hon, hd, Bool.and_self, if_true]

/-! ### Teeth on their way to the leaves (R62) -/

theorem mem_insertTooth (l : List Tooth) (t : Tooth) : t ∈ insertTooth l t := by
  induction l with
  | nil => exact List.mem_singleton_self t
  | cons u r ih =>
    unfold insertTooth
    split
    · exact List.mem_cons_self
    · exact List.mem_cons_of_mem _ ih

theorem sendTooth_flight (s : State) (d : Fin 16) (t : Tooth) : t ∈ (sendTooth s d t).doms[d].flight := by
  rw [sendTooth, updDom_at]
  exact mem_insertTooth _ t

/-- R65: no tooth makes a domain LOST that is not, but one that misplaces a gap. -/
theorem nextState_ne_lost (s : State) (d : Fin 16) (cur : SyncState) (t : ToothIn) (hc : cur ≠ .lost) (hg : t.gapBad = false) :
    (nextState s d cur t).1 ≠ .lost := by
  cases cur with
  | lost => exact absurd rfl hc
  | off | stopped => simp [nextState]
  | syncing =>
    simp only [nextState]
    split_ifs <;> exact SyncState.noConfusion
  | synced | suspect =>
    simp only [nextState, hg, Bool.false_and, Bool.false_eq_true, if_false]
    split_ifs <;> exact SyncState.noConfusion

/-- R62, R74: a generated tooth of a domain that is not LOST goes on its way to the leaves. -/
theorem deliver_generated_flight (s : State) (d : Fin 16) (t : ToothIn) (hl : s.doms[d].st ≠ .lost) (hk : t.kind = .generated)
    (hg : t.gapBad = false) : ∃ f ∈ (deliver s d t).doms[d].flight, f.kind = .generated ∧ f.pin = t.pin ∧ f.upd = t.upd := by
  have hcur : (if t.resync then SyncState.syncing else if s.doms[d].st = .stopped then
      (if t.kind = .generated then SyncState.synced else s.doms[d].before) else s.doms[d].st) ≠ .lost := by
    rw [if_pos hk]
    split
    · exact SyncState.noConfusion
    · split
      · exact SyncState.noConfusion
      · exact hl
  have hst := nextState_ne_lost s d _ t hcur hg
  unfold deliver
  dsimp only
  rw [if_neg (by simpa using hst)]
  exact ⟨_, sendTooth_flight .., hk, rfl, rfl⟩

/-- R62: the oldest tooth on its way reaches the leaves in its update tick. -/
theorem doToothUpdate_tooth (s : State) (d : Fin 16) (t : Tooth) (l : List Tooth) (hf : s.doms[d].flight = t :: l)
    (hon : domsOn s = true) (hd : due s t.upd = true) (hk : t.kind ≠ .change) :
    doToothUpdate d s = deliverTooth (updDom s d (fun x => { x with flight := l })) d t := by
  simp only [doToothUpdate, hf, hon, hd, hk, Bool.and_self, Bool.not_true, Bool.false_eq_true, if_false]

/-! ### The virtual generator (R74) -/

/-- R74: the tooth that a generator sends with pin time `t` and a period. -/
abbrev vgTooth (s : State) (t : Time) (period : Word) : ToothIn :=
  ⟨.generated, t, plus t 3, absOf s (t - 5#48), period, none, false, false, false, none, none, none, none, false⟩

/-- R74: a tooth of a running generator that counts no teeth down starts the next interval with the working period. -/
theorem doVirtualTooth_steady (s z : State) (d : Fin 16) (t : Time) (hn : s.doms[d].vgNext = some t) (hon : domsOn s = true)
    (hd : due s t = true) (he : domEn s d = true) (hk : domKind s d = 3) (hs : s.doms[d].vgStarted = true)
    (hc : (reg s (.dom d 0x16)).toNat = 0) (hz : z = deliver s d (vgTooth s t (word (s.doms[d].vgInterval / prescOf s d))))
    (hp : (work z (.dom d 0x14)).toNat ≠ 0) :
    doVirtualTooth d s = updDom z d (fun x =>
      { x with vgNext := some (plus t ((work z (.dom d 0x14)).toNat * prescOf s d))
               vgInterval := (work z (.dom d 0x14)).toNat * prescOf s d, vgStarted := true }) := by
  subst hz
  simp only [doVirtualTooth, hn, hon, hd, he, hk, hs, hc, hp, decide_true, Bool.and_self, Bool.not_true, Bool.false_eq_true,
    if_false, if_true, Nat.zero_ne_one]

/-- R74: the period of a generator's tooth: that of the interval before it, and of the first tooth the working one. -/
abbrev vgPeriod (s : State) (d : Fin 16) : Word :=
  if !s.doms[d].vgStarted then work s (.dom d 0x14) else word (s.doms[d].vgInterval / prescOf s d)

/-- R74: whatever interval follows a generator's tooth, the tooth is delivered and the generator has started. -/
theorem doVirtualTooth_delivers (s : State) (d : Fin 16) (t : Time) (hn : s.doms[d].vgNext = some t) (hon : domsOn s = true)
    (hd : due s t = true) (he : domEn s d = true) (hk : domKind s d = 3) : ∃ (y : State) (f : Dom → Dom),
    doVirtualTooth d s = updDom y d f ∧ y.doms = (deliver s d (vgTooth s t (vgPeriod s d))).doms ∧
      ∀ x, (f x).vgStarted = true ∧ (f x).flight = x.flight := by
  simp only [doVirtualTooth, hn, hon, hd, he, hk, decide_true, Bool.and_self, Bool.not_true, Bool.false_eq_true, if_false]
  generalize deliver s d (vgTooth s t (vgPeriod s d)) = z
  split_ifs <;> exact ⟨_, _, rfl, rfl, fun _ => ⟨rfl, rfl⟩⟩

theorem doVirtualStop_counting (s : State) (d : Fin 16) (t : Time) (hn : s.doms[d].vgStop = some t) (hon : domsOn s = true)
    (hd : due s t = true) (hc : counting s.doms[d].st = true) :
    doVirtualStop d s = stopDomain (updDom s d (fun x => { x with vgStop := none })) d t := by
  simp only [doVirtualStop, hn, hon, hd, hc, Bool.and_self, Bool.not_true, Bool.false_eq_true, if_false, if_true]

theorem writeVgCtrl_ok (s : State) (d : Fin 16) (v : Word) : (writeVgCtrl s d v).2 = .ok := by
  unfold writeVgCtrl
  dsimp only
  split
  · rfl
  · split <;> rfl

theorem writeVgCtrl_starts (s : State) (d : Fin 16) (v : Word) (hv : bit v 0 = true) (hr : regBit s (.dom d 0x15) 0 = false) :
    writeVgCtrl s d v = (vgStart (setReg s (.dom d 0x15) (v &&& 1)) d, .ok) := by
  simp only [writeVgCtrl, hv, hr, Bool.not_false, Bool.and_self, if_true]

theorem writeVgCtrl_ends (s : State) (d : Fin 16) (v : Word) (hv : bit v 0 = false) (hr : regBit s (.dom d 0x15) 0 = true) :
    writeVgCtrl s d v = (vgEnd (setReg s (.dom d 0x15) (v &&& 1)) d, .ok) := by
  simp only [writeVgCtrl, hv, hr, Bool.not_false, Bool.and_self, Bool.false_and, Bool.false_eq_true, if_false, if_true]

/-- R74: ending the generator looks at the domains alone. -/
theorem vgEnd_doms_congr (s z : State) (d : Fin 16) (h : z.doms = s.doms) : (vgEnd z d).doms = (vgEnd s d).doms := by
  unfold vgEnd
  rw [h]
  cases s.doms[d].vgNext with
  | none => exact h
  | some n => exact updDom_doms_congr s z d _ h

/-! ### INDEX_SET and STANDSTILL_TIME (R68, R79) -/

theorem writeIndexSet_ok (s : State) (d : Fin 16) (v : Word) (h : fld v 11 0 < teethOf s d) :
    writeIndexSet s d v = (writeShadow s (.dom d 0x0D) (v &&& 0x1FFF), .ok) := if_neg (by omega)

theorem writeStandstill_ok (s : State) (d : Fin 16) (v : Word) (h : v ≠ 0) : writeStandstill s d v =
    (updDom (setReg s (.dom d 0x0B) v) d (fun x =>
      { x with standFloor := some (plus (now s) 1), standPast := false }), .ok) := if_neg h

/-! ### Compares with a live angle (R106) -/

/-- R106: an enabled entry whose angle the domain has reached in the target cycle triggers and aims at the next cycle. -/
theorem doLiveAngleCompare_reached (r : Fin 4) (n : Fin 64) (d : Fin 16) (s : State)
    (hd : d = Fin.ofNat 16 (fld (sqWord s r n 0) 19 16)) (hon : adcOn s = true) (hq : regBit s (.seqr r 0x0) 0 = true)
    (hen : sqEn s r n = true) (hk : fld (sqWord s r n 0) 22 20 = 1) (ha : armable s d = true)
    (ht : s.seqs[r].target[n] = s.doms[d].leafCycle) (hr : (sqWord s r n 1).toNat ≤ (leafAngle s d).toNat) :
    doLiveAngleCompare r n s = sqTrigger (updSeq s r (fun q => { q with target := q.target.set n (s.doms[d].leafCycle + 1) }))
      r n s.time.tick (decide (s.doms[d].jumpTick = some s.time.tick)) := by
  subst hd
  simp only [doLiveAngleCompare, hon, hq, hen, hk, ha, ht, hr, decide_true, Bool.and_self, Bool.or_true, if_true]

end Sys2Proof.Machine
end

section
/-!
PROOFS. The obligations of 02_angle_domains.md.
-/
namespace Sys2Proof.Machine

/-- Settles O9: each command is its check and the write it commits, and a write of EN sets the states of domain and leaves. -/
theorem domainCommandsComplete : Obligations.DomainCommandsComplete := by
  unfold Obligations.DomainCommandsComplete
  refine ⟨?_, ?_, ?_, ?_, ?_, ?_, ?_, ?_, ?_, ?_⟩
  · rintro e d s z h rfl hd
    exact cmdRun_ends _ 0x30 e (cmdStartDomain e) s z _ _ _ h (cmdStartDomain_ok e z hd)
  · rintro e d s z h rfl he ht
    exact cmdRun_ends _ 0x30 e (cmdStartDomain e) s z _ _ _ h (cmdStartDomain_conflict e z he ht)
  · rintro e d s z h rfl hb
    exact cmdRun_ends _ 0x31 e (cmdStopDomain e) s z _ _ _ h (cmdStopDomain_frees e z hb)
  · rintro e d y n s z h rfl hb rfl rfl
    exact cmdRun_ends _ 0x31 e (cmdStopDomain e) s z _ _ _ h (cmdStopDomain_cancels e z hb)
  · rintro e d s z h rfl hl
    exact cmdRun_ends _ 0x32 e (cmdResyncDomain e) s z _ _ _ h (if_pos hl)
  · rintro e d s z h rfl hl
    exact cmdRun_ends _ 0x32 e (cmdResyncDomain e) s z _ _ _ h (if_neg hl)
  · intro d y he ht
    refine ⟨_, rfl, ?_⟩
    rw [acts_domCtrl_doms, writeDomCtrl_enable y d 1 rfl rfl]
    exact domEnable_st y d he ht
  · intro d y he
    refine ⟨_, rfl, ?_⟩
    rw [acts_domCtrl_doms, writeDomCtrl_disable y d 0 rfl]
    exact domDisable_st y d he
  · rintro e d s z h rfl hk
    exact cmdRun_ends _ 0x33 e (cmdSetVirtualSpeed e) s z _ _ _ h (if_neg (not_not.mpr hk))
  · intro e s z h hk
    exact cmdRun_ends _ 0x33 e (cmdSetVirtualSpeed e) s z _ _ _ h (if_pos hk)

/-- Settles O22: each row is what its tracker, generator or sequencer does under the conditions that let it happen, its parameter
access, or its write as it acts. -/
theorem domainRowsComplete : Obligations.DomainRowsComplete := by
  unfold Obligations.DomainRowsComplete
  refine ⟨?_, fun d e s => seeIntake_due s d e, fun d e s => seeIntake_waits s d e, fun d t s => takeEdge_accepts s d t, ?_, ?_,
    ?_, ?_, ?_, ?_, ?_, ?_, ?_, ?_, ?_, ?_, ?_, ?_, ?_, ?_, ?_, ?_, ?_, ?_, ?_, ?_, ?_, ?_⟩
  · intro k rise t d s hk hon hd hsel
    show run (doToothEdge k rise t) s = _
    rw [run, doToothEdge_selected k rise t d s hk hon hd hsel]
  · exact fun d t s hg hs hm => catchUp_idle s d t (passOne_idle s d t hg hs hm)
  · rintro d z m s rfl hm hs hon hd
    show run (doMissDeadline d) s = _
    rw [run, doMissDeadline_due s d m hm hs hon hd]
  · intro d m s hi hm hs hon ht hd
    have hf := flushIntake_of_nil s d hi
    show run (doMissDeadline d) s = _
    rw [run, doMissDeadline_due s d m (hf.symm ▸ hm) (hf.symm ▸ hs) hon hd, hf, seeIntake_due s d _ hi ht, takeEvent, if_pos hm,
      ite_self]
  · intro d g s hg hon hd
    show run (doGapTooth d) s = _
    rw [run, doGapTooth_due s d g hg hon hd]
  · intro d g s hi hg hon ht hd
    have hf := flushIntake_of_nil s d hi
    show run (doGapTooth d) s = _
    rw [run, doGapTooth_due s d g (hf.symm ▸ hg) hon hd, seeIntake_due s d _ hi ht, takeEvent, if_pos hg]
  · intro d y s hy hon hd
    show run (doStandstillDeadline d) s = _
    rw [run, doStandstillDeadline_due s d y hy hon hd]
  · intro d y s hi hy hon hd
    have hf := flushIntake_of_nil s d hi
    show run (doStandstillDeadline d) s = _
    rw [run, doStandstillDeadline_due s d y (hf.symm ▸ hy) hon hd, hf]
  · intro d t l s hf hon hd hk
    show run (doToothUpdate d) s = _
    rw [run, doToothUpdate_tooth s d t l hf hon hd hk]
  · intro d t s hn hon hd hc
    show run (doVirtualStop d) s = _
    rw [run, doVirtualStop_counting s d t hn hon hd hc]
  · intro d t z s hn hon hd he hk hs hc hz hp
    show run (doVirtualTooth d) s = _
    rw [run, doVirtualTooth_steady s z d t hn hon hd he hk hs hc hz hp]
  · intro d t s hn hon hd he hk hl
    obtain ⟨y, f, hy, hdoms, hf⟩ := doVirtualTooth_delivers s d t hn hon hd he hk
    refine ⟨_, rfl, ?_⟩
    rw [hy, updDom_at, hdoms, (hf _).1, (hf _).2]
    exact ⟨rfl, deliver_generated_flight s d (vgTooth s t (vgPeriod s d)) hl rfl rfl⟩
  · exact fun req d v s ha h => run_rowWrite_waits req (.dom d 0x00) _ v s (show _ < 0x100 by decide) ha rfl rfl
      (writeDomCtrl_ok _ d v h)
  · intro req d low v z h0 h1
    rw [acts_domCtrl_doms, writeDomCtrl_enable z d v h0 h1]
  · intro req d low v z h0
    rw [acts_domCtrl_doms, writeDomCtrl_disable z d v h0]
  · exact fun req d v s ha h => run_rowWrite_waits req (.dom d 0x00) _ (v ||| 2) s (show _ < 0x100 by decide) ha rfl rfl
      (writeDomCtrl_ok _ d _ (.inr (.inl h)))
  · intro req d low v z h0 h1 he
    rw [acts_domCtrl_doms, writeDomCtrl_resync z d v h0 h1 he]
  · exact fun req d v s ha h => run_rowWrite_now req (.dom d 0x0D) _ (v ||| 0x1000) s _ (show _ < 0x100 by decide) ha rfl rfl
      (writeIndexSet_ok s d _ h)
  · exact fun req d v s ha => run_rowWrite_waits req (.dom d 0x15) _ v s (show _ < 0x100 by decide) ha rfl rfl
      (writeVgCtrl_ok _ d v)
  · exact fun req d low v z hv hr => acts_doms z _ req low (.dom d 0x15) _ v _ rfl (writeVgCtrl_starts z d v hv hr)
  · exact fun req d low v z hv hr => (acts_doms z _ req low (.dom d 0x15) _ v _ rfl (writeVgCtrl_ends z d v hv hr)).trans
      (vgEnd_doms_congr z _ d rfl)
  · exact fun req d v s ha h => run_rowWrite_waits req (.dom d 0x0B) _ v s (show _ < 0x100 by decide) ha rfl rfl
      (congrArg Prod.snd (writeStandstill_ok _ d v h))
  · exact fun req d low v z h => (acts_doms z _ req low (.dom d 0x0B) _ v _ rfl (writeStandstill_ok z d v h)).trans
      (updDom_doms_congr z _ d _ rfl)
  · exact fun req d s hr hc => run_rowRead req (.dom d 0x1A) _ s (show _ < 0x100 by decide) hr hc rfl rfl rfl
  · intro r n d s hd hon hq hen hk ha ht hr
    show run (doLiveAngleCompare r n) s = _
    rw [run, doLiveAngleCompare_reached r n d s hd hon hq hen hk ha ht hr]

end Sys2Proof.Machine
end

section
/-!
SUPPORT. What 03_timer_cells_and_events.md comes to in the model: ARM_TIME and its checks of a single edge, the arm table's
entries as commands put, replace and read them, and what a cancellation takes in.
-/
namespace Sys2Proof.Machine

/-! ### ARM_TIME (R89) -/

theorem cmdArmTime_ok (e : Entry) (s : State) (h : armTimeCheck s e = .ok) :
    cmdArmTime e s = ends ((timedWrites e).foldl (fun y w => addLate y 4 .host (timedLate e w)) s) .ok :=
  if_neg (not_not.mpr h)

theorem cmdArmTime_refused (e : Entry) (s : State) (h : armTimeCheck s e ≠ .ok) :
    cmdArmTime e s = ends s (armTimeCheck s e) := if_pos h

/-- R89: SET, CLEAR or TOGGLE, as the event field of ARM_TIME gives it. -/
def SingleEdge (e : Entry) (a : EdgeAct) : Prop :=
  fld e.a0 23 22 = 0 ∧ a = .set ∨ fld e.a0 23 22 = 1 ∧ a = .clear ∨ fld e.a0 23 22 = 2 ∧ a = .toggle

theorem SingleEdge.not_pulse {e : Entry} {a : EdgeAct} (h : SingleEdge e a) : fld e.a0 23 22 ≠ 3 := by
  rcases h with ⟨h, -⟩ | ⟨h, -⟩ | ⟨h, -⟩ <;> omega

/-- R89: what is not a PULSE writes compare A alone. -/
theorem timedWrites_single (e : Entry) (h : fld e.a0 23 22 ≠ 3) :
    timedWrites e = [(.a, mkTime e.a2 e.a1, BitVec.ofNat 4 (fld e.a3 3 0))] := if_neg h

/-- R89: only a PULSE has an end that can be too close to its start. -/
theorem pulseShort_single (e : Entry) (h : fld e.a0 23 22 ≠ 3) : pulseShort e = false := by
  simp only [pulseShort, h, decide_false, Bool.false_and]

theorem timedEdge_single (e : Entry) (a : EdgeAct) (u : CmpUnit) (h : SingleEdge e a) :
    timedEdge e u = (a, .timedSingle) := by
  rcases h with ⟨h, rfl⟩ | ⟨h, rfl⟩ | ⟨h, rfl⟩ <;> simp only [timedEdge, h]

theorem compareBusy_of_idle (s : State) (c : Fin 512) (u : CmpUnit) (ha : (cmpOf s.cells[c] u).armed = false)
    (hl : s.agenda.late = []) : compareBusy s c u = false := by
  simp only [compareBusy, ha, hl, List.any_nil, Bool.or_self]

/-- R86: a value no more than two ticks before the present one has an edge, whatever its trim. -/
theorem compareEdge_of_near (k v : Time) (trim : BitVec 4) (h : -2 ≤ (v - k).toInt) : compareEdge k v trim ≠ none := by
  unfold compareEdge
  dsimp only
  rw [if_pos h]
  split <;> exact Option.some_ne_none _

/-- R89: ARM_TIME of a single edge passes its checks on an enabled COMPARE cell whose compare A is free and whose time is near. -/
theorem armTimeCheck_single (s : State) (e : Entry) (c : Fin 512) (hc : c = Fin.ofNat 512 (fld e.a0 8 0))
    (h3 : fld e.a0 23 22 ≠ 3) (hr : armsOk s = true) (hh : cellHeld s c = false) (he : cellEn s c = true)
    (hm : cellMode s c = 1) (hb : compareBusy s c .a = false) (ht : -2 ≤ (mkTime e.a2 e.a1 - now s).toInt) :
    armTimeCheck s e = .ok := by
  subst hc
  simp only [armTimeCheck, hr, hh, he, hm, hb, pulseShort_single e h3, timedWrites_single e h3,
    compareEdge_of_near _ _ _ ht, List.any_cons, List.any_nil, decide_true, decide_false, Bool.and_self, Bool.or_self,
    Bool.and_false, Bool.not_true, Bool.false_eq_true, if_false]

/-- R17, R89: the one write that ARM_TIME of a single edge commits. -/
theorem foldl_timedWrites_single (s : State) (e : Entry) (a : EdgeAct) (h : SingleEdge e a) :
    (timedWrites e).foldl (fun y w => addLate y 4 .host (timedLate e w)) s =
      addLate s 4 .host (.compare (Fin.ofNat 512 (fld e.a0 8 0)) .a (mkTime e.a2 e.a1) (BitVec.ofNat 4 (fld e.a3 3 0))
        (some a) .timedSingle true) := by
  simp only [timedWrites_single e h.not_pulse, List.foldl_cons, List.foldl_nil, timedLate, timedEdge_single e a _ h]

theorem addLate_of_none_waits (s : State) (rank : Nat) (who : Requester) (op : LateOp) (h : s.agenda.late = []) :
    addLate s rank who op = { s with agenda := { s.agenda with late := [⟨rank, who, s.time.tick, op⟩] } } := by
  simp only [addLate, h, List.nil_append]

/-! ### ARM_ANGLE and REPLACE_EVENT (R94, R95, R108) -/

/-- R95: the domain that the target cell of an entry's words names. -/
abbrev armDomain (s : State) (w2 : Word) : Fin 16 :=
  Fin.ofNat 16 (regFld s (.cell (Fin.ofNat 512 (fld w2 23 15)) 0x00) 7 4)

theorem cmdArmAngle_ok (e : Entry) (s : State) (k : BitVec 8)
    (h : armCheck s (armDomain s e.a2) none e.a0 e.a1 e.a2 e.a3 = .ok)
    (hk : freeSlot s.doms[armDomain s e.a2].arm = some k) :
    cmdArmAngle e s = endsWith (armPut s (mkHandle (armDomain s e.a2) k) ⟨e.a0, e.a1, e.a2, e.a3, 0, 0, []⟩) .ok
      ((mkHandle (armDomain s e.a2) k).setWidth 24) := by
  simp only [cmdArmAngle, armAngle, h, hk, ne_eq, not_true_eq_false, if_false, if_true]

theorem cmdArmAngle_refused (e : Entry) (s : State)
    (h : armCheck s (armDomain s e.a2) none e.a0 e.a1 e.a2 e.a3 ≠ .ok) :
    cmdArmAngle e s = ends s (armCheck s (armDomain s e.a2) none e.a0 e.a1 e.a2 e.a3) := by
  simp only [cmdArmAngle, armAngle, h, ne_eq, not_false_eq_true, if_false, if_true]
  rfl

theorem replaceEvent_free (s : State) (h : BitVec 12) (w0 w1 w2 w3 : Word) (hg : armGet s h = none) :
    replaceEvent s h w0 w1 w2 w3 = (s, .notFound) := by
  simp only [replaceEvent, hg]

/-! ### CANCEL_EVENT (R107) -/

theorem cancelEntries_single (s : State) (h : BitVec 12) (keep : Bool) :
    cancelEntries s [h] keep = cancelEntry s h keep := by
  simp only [cancelEntries, List.foldl_cons, List.foldl_nil, Nat.zero_add]

theorem inCancelScope_handle (s : State) (e : Entry) (h : fld e.a0 23 22 = 0) :
    inCancelScope s e = [BitVec.ofNat 12 (fld e.a0 11 0)] := by
  simp only [inCancelScope, h]

theorem cmdCancelEvent_free (e : Entry) (s : State) (h : fld e.a0 23 22 = 0)
    (hg : armGet s (BitVec.ofNat 12 (fld e.a0 11 0)) = none) : cmdCancelEvent e s = ends s .notFound := by
  rw [cmdCancelEvent, if_neg (by omega), if_pos (by simp only [h, hg, decide_true, Bool.and_self])]

/-- R107: of a scope of entries, all that it takes in are cancelled, unless its one handle is free. -/
theorem cmdCancelEvent_entries (e : Entry) (s : State) (h : fld e.a0 23 22 ≠ 3)
    (hg : fld e.a0 23 22 = 0 → armGet s (BitVec.ofNat 12 (fld e.a0 11 0)) ≠ none) :
    cmdCancelEvent e s = endsWith (cancelEntries s (inCancelScope s e) (bit e.a0 21)).1 .ok
      (word (cancelEntries s (inCancelScope s e) (bit e.a0 21)).2) := by
  rw [cmdCancelEvent, if_neg h, if_neg]
  simpa only [Bool.and_eq_true, decide_eq_true_eq, not_and] using hg

theorem cmdCancelEvent_timed (e : Entry) (s : State) (h : fld e.a0 23 22 = 3) : cmdCancelEvent e s =
    endsWith (cancelTimed s (Fin.ofNat 512 (fld e.a0 8 0))).1 .ok
      (word (cancelTimed s (Fin.ofNat 512 (fld e.a0 8 0))).2) := if_pos h

/-! ### READ_EVENT (R94) -/

theorem cmdReadEvent_free (e : Entry) (s : State) (hw : fld e.a0 14 12 ≤ 4)
    (hg : armGet s (BitVec.ofNat 12 (fld e.a0 11 0)) = none) : cmdReadEvent e s = ends s .notFound := by
  rw [cmdReadEvent, if_neg (by omega), if_pos hg]

theorem cmdReadEvent_used (e : Entry) (s : State) (hw : fld e.a0 14 12 ≤ 4)
    (hg : armGet s (BitVec.ofNat 12 (fld e.a0 11 0)) ≠ none) : cmdReadEvent e s =
    endsWith s .ok (entWord s (BitVec.ofNat 12 (fld e.a0 11 0)) (fld e.a0 14 12)) := by
  rw [cmdReadEvent, if_neg (by omega), if_neg hg]

end Sys2Proof.Machine
end

section
/-!
PROOFS. The obligations of 03_timer_cells_and_events.md.
-/
namespace Sys2Proof.Machine

/-- Settles O8: each command is its checks and then what its unit does, and a write that ARM_TIME commits acts as a compare. -/
theorem eventCommandsComplete : Obligations.EventCommandsComplete := by
  unfold Obligations.EventCommandsComplete
  refine ⟨?_, fun _ _ _ _ => rfl, ?_, ?_, ?_, ?_, ?_, ?_, ?_, ?_, ?_, ?_, ?_, ?_⟩
  · exact fun e s z h hc => cmdRun_ends _ 0x20 e (cmdArmTime e) s z _ _ _ h (cmdArmTime_ok e z hc)
  · exact fun e s z h hc => cmdRun_ends _ 0x20 e (cmdArmTime e) s z _ _ _ h (cmdArmTime_refused e z hc)
  · rintro e d k s z h rfl hc hk
    exact cmdRun_ends _ 0x21 e (cmdArmAngle e) s z _ _ _ h (cmdArmAngle_ok e z k hc hk)
  · rintro e d s z h rfl hc
    exact cmdRun_ends _ 0x21 e (cmdArmAngle e) s z _ _ _ h (cmdArmAngle_refused e z hc)
  · exact fun e s z h h0 hg => cmdRun_ends _ 0x22 e (cmdCancelEvent e) s z _ _ _ h (cmdCancelEvent_free e z h0 hg)
  · intro e a y n s z h h0 hg hc
    refine cmdRun_ends _ 0x22 e (cmdCancelEvent e) s z _ _ _ h ?_
    rw [cmdCancelEvent_entries e z (by omega) (fun _ => by simp [hg]), inCancelScope_handle z e h0, cancelEntries_single, hc]
    rfl
  · intro e y n s z h h12 hc
    refine cmdRun_ends _ 0x22 e (cmdCancelEvent e) s z _ _ _ h ?_
    rw [cmdCancelEvent_entries e z (by omega) (fun _ => by omega), hc]
    rfl
  · intro e y n s z h h3 hc
    refine cmdRun_ends _ 0x22 e (cmdCancelEvent e) s z _ _ _ h ?_
    rw [cmdCancelEvent_timed e z h3, hc]
    rfl
  · intro e s z h hg
    refine cmdRun_ends _ 0x23 e (cmdReplaceEvent e) s z _ _ _ h ?_
    rw [cmdReplaceEvent, replaceEvent_free _ _ _ _ _ _ hg]
    rfl
  · intro e y t s z h hr
    refine cmdRun_ends _ 0x23 e (cmdReplaceEvent e) s z _ _ _ h ?_
    rw [cmdReplaceEvent, hr]
    rfl
  · exact fun e s z h hw => cmdRun_ends _ 0x24 e (cmdReadEvent e) s z _ _ _ h (if_pos hw)
  · exact fun e s z h hw hg => cmdRun_ends _ 0x24 e (cmdReadEvent e) s z _ _ _ h (cmdReadEvent_free e z hw hg)
  · exact fun e a s z h hw hg =>
      cmdRun_ends _ 0x24 e (cmdReadEvent e) s z _ _ _ h (cmdReadEvent_used e z hw (by simp [hg]))

/-- Settles O55: each check of ARM_TIME passes, and a single edge commits one write. -/
theorem timedEdgeWaits : Obligations.TimedEdgeWaits := by
  unfold Obligations.TimedEdgeWaits
  rintro e c a s z h rfl hr hh he hm (ha : SingleEdge e a) hb hl ht
  have hok : armTimeCheck z e = .ok :=
    armTimeCheck_single z e _ rfl ha.not_pulse hr hh he hm (compareBusy_of_idle z _ .a hb hl) ht
  refine cmdRun_ends _ 0x20 e (cmdArmTime e) s z _ _ _ h ?_
  rw [cmdArmTime_ok e z hok, foldl_timedWrites_single z e a ha, addLate_of_none_waits z _ _ _ hl]
  rfl

end Sys2Proof.Machine
end

section
/-!
SUPPORT. What 04_microengine.md comes to in the model: a block after an update, the rows of a block's timer, lanes and scheduler,
a microword that is due and what follows it, the commit of a routine's buffer, its watchdog, and writes of SEQ_CTRL.
-/
namespace Sys2Proof.Machine

/-! ### The block timer, lanes and the scheduler (R113, R116, R119) -/

theorem updBlk_at (s : State) (b : Fin 32) (f : Block → Block) : (updBlk s b f).blks[b] = f s.blks[b] := by simp [updBlk]

theorem doBlkTimer_due (s : State) (b : Fin 32) (t : Nat) (ht : s.blks[b].timerNext = some t) (hon : seqsOn s = true)
    (hd : t ≤ s.time.tick) : doBlkTimer b s =
      raiseRequest (updBlk (reload s (.block b 0x04) t) b (fun k => { k with
        timerCount := s.blks[b].timerCount + 1
        timerNext := if (work (reload s (.block b 0x04) t) (.block b 0x04)).toNat = 0 then none
          else some (t + (work (reload s (.block b 0x04) t) (.block b 0x04)).toNat) }))
        b 18 (s.blks[b].timerCount + 1).toNat 0x2E t := by
  simp only [doBlkTimer, ht, hon, hd, decide_true, Bool.and_self, Bool.not_true, Bool.false_eq_true, if_false]

theorem doLaneRebuildDone_due (s : State) (b : Fin 32) (t : Nat) (ht : s.blks[b].rebuildEnd = some t) (ha : alive s = true)
    (hd : t ≤ s.time.tick) :
    doLaneRebuildDone b s = updBlk s b (fun k => { k with voting := 7, rebuildEnd := none }) := by
  simp only [doLaneRebuildDone, ht, ha, hd, decide_true, Bool.and_self, if_true]

/-- R115, R116, R141: of an idle block, the head that the scheduler chooses, whose entry is good and names a customer word. -/
theorem doRoutineDispatch_serves (s : State) (b : Fin 32) (src : Fin 20) (q : Request) (r : Routine) (hon : seqsOn s = true)
    (hrun : s.blks[b].run = none) (hfree : s.blks[b].freeAt ≤ s.time.tick) (hsrc : chooseSrc (dropAll s b) b = some src)
    (hq : headOf (dropAll s b) b src = some q) (hecc : eccBad s .controlStore b.val (0xC00 + q.entry.toNat) = false)
    (hr : routineAt (dropAll s b) b src q (entryWord (dropAll s b) b q) = r) (hpc : 0xC40 ≤ r.pc) :
    doRoutineDispatch b s = updBlk (dropAll s b) b (fun k =>
      { k with run := some r, lastServed := k.lastServed.set (Fin.ofNat 4 r.level) src }) := by
  simp only [doRoutineDispatch, hon, hrun, hfree, hsrc, hq, hecc, hr, BitVec.not_lt.mpr hpc, decide_true, Bool.and_self,
    Bool.not_true, Bool.false_eq_true, if_false]

/-! ### Microwords (R121, R122, R134) -/

/-- R121, R144: the routine of a block is in its body, and executes the word `w` in the present tick. -/
structure WordDue (s : State) (b : Fin 32) (r : Routine) (w : MicroWord) : Prop where
  runs : s.blks[b].run = some r
  on : seqsOn s = true
  body : r.phase = .body
  free : r.waits = false
  ready : r.readyAt ≤ s.time.tick
  inTime : s.time.tick < r.firstAt + 256
  untrapped : trapped s b r.pc = r.pc
  sound : eccBad s .controlStore b.val r.pc.toNat = false
  word : cstoreAt s b r.pc.toNat = w

/-- R121: a word that is due and does not load from region RAM executes. -/
theorem doMicroword_executes (s : State) (b : Fin 32) (r : Routine) (w : MicroWord) (h : WordDue s b r w)
    (hm : fld w 49 46 ≠ 7) : doMicroword b s = execWord s b r w := by
  have hl : ∀ r1, loadsRegion s b r1 w = false := fun r1 => by
    simp only [loadsRegion, hm, decide_false, Bool.false_and]
  have hr : ({ r with pc := trapped s b r.pc } : Routine) = r := by rw [h.untrapped]
  simp only [doMicroword, h.runs, hr]
  simp only [h.on, h.body, h.free, h.ready, Nat.not_le.mpr h.inTime, h.untrapped, h.sound, h.word, hl,
    decide_true, decide_false, Bool.and_self, Bool.and_false, Bool.not_true, Bool.not_false, Bool.false_eq_true, if_false]

/-- The result of the ALU op of a word on its sources (R124, R125). -/
abbrev wordData (r : Routine) (w : MicroWord) : Word :=
  aluResult (fld w 105 100) (microSource r w (fld w 99 95)) (microSource r w (fld w 94 90)) r.c

/-- R121, R122: a word with an ALU op that goes on at its next address, without fault or violation. -/
theorem execWord_goes_on (s z : State) (b : Fin 32) (r r1 : Routine) (w : MicroWord) (hb : r.phase = .body)
    (hop : fld w 105 100 ≠ 0) (hk : fld w 127 124 < 6)
    (hf : wordFault r w none (wordEffects r w (wordData r w)).length = none) (hv : wordViolation s b r w = none)
    (hna : 0xC40 ≤ nextAddr r w (microCond s b r w)) (hl : loadOp s b r (wordRegs s b r w (wordData r w)) w = (z, r1)) :
    execWord s b r w = afterWord z b r { r1 with pc := nextAddr r w (microCond s b r w) } w true
      (wordEffects r w (wordData r w)) := by
  have h6 : fld w 127 124 ≠ 6 := by omega
  have h8 : fld w 127 124 ≠ 8 := by omega
  simp only [execWord, hb, hop, h6, h8, hf, hv, hl, BitVec.not_lt.mpr hna, decide_true, decide_false, Bool.false_and,
    Bool.false_or, Bool.true_or, ne_eq, not_false_eq_true, and_false, Bool.false_eq_true, if_false, if_true]

theorem srcLevel_setRun (s : State) (b : Fin 32) (r : Routine) (src : Fin 20) :
    srcLevel (setRun s b r) b src = srcLevel s b src := rfl

theorem queues_setRun (s : State) (b : Fin 32) (r : Routine) : (setRun s b r).blks[b].queues = s.blks[b].queues := by
  rw [setRun, updBlk_at]

/-- R117: what abandons a routine does not look at the routine that the block holds. -/
theorem abandonedBy_setRun (s : State) (b : Fin 32) (r1 r : Routine) :
    abandonedBy (setRun s b r1) b r = abandonedBy s b r := by
  simp only [abandonedBy, srcLevel_setRun, queues_setRun]
  rfl

/-- R121, R122: a word whose control, CELL, MEM, REC, COMMIT and TIME fields are all idle. -/
structure OnlyComputes (w : MicroWord) : Prop where
  next : fld w 127 124 = 0
  cell : fld w 60 56 = 0
  mem : fld w 49 46 = 0
  record : fld w 33 30 = 0
  commit : fld w 25 24 = 0
  time : fld w 23 20 = 0

namespace OnlyComputes
variable {w : MicroWord} (h : OnlyComputes w) (s : State) (b : Fin 32) (r : Routine)
include h

theorem wordEffects_eq (data : Word) : wordEffects r w data = [] := by
  simp [wordEffects, h.cell, h.mem, h.record]

theorem wordViolation_eq : wordViolation s b r w = none := by
  simp [wordViolation, h.cell, h.mem, h.record]

theorem wordFault_eq (hl : microLegal w = true) (hb : r.buf.length ≤ 16) : wordFault r w none 0 = none := by
  simp [wordFault, memOutOfRange, hl, h.next, h.mem, h.commit, hb]

theorem nextAddr_eq (cond : Bool) : nextAddr r w cond = r.pc + 1 := by
  simp [nextAddr, h.next]

theorem loadOp_eq (r1 : Routine) : loadOp s b r r1 w = (s, r1) := by
  simp [loadOp, h.mem]

theorem wordRegs_level (data : Word) : (wordRegs s b r w data).level = r.level := by
  simp [wordRegs, timeOp, h.time]

/-- R122, R134: such a word goes on in the next tick, unless its routine is abandoned. -/
theorem afterWord_eq (r0 : Routine) (hb : r0.phase = .body) (ha : abandonedBy s b r = false) :
    afterWord s b r0 r w true [] = setRun s b { r with readyAt := s.time.tick + 1, buf := r0.buf } := by
  simp [afterWord, hb, h.next, h.commit, abandonedBy_setRun, ha]

end OnlyComputes

/-- R117: a routine is not abandoned while nothing is requested above its level. -/
theorem abandonedBy_of_none_higher (s : State) (b : Fin 32) (r : Routine)
    (h : ∀ src : Fin 20, r.level < srcLevel s b src → s.blks[b].queues[src] = []) : abandonedBy s b r = false := by
  have hq : ((List.finRange 20).any fun src => decide (r.level < srcLevel s b src) &&
      (s.blks[b].queues[src]).any fun q => decide (r.firstAt ≤ q.at_ + 1 ∧ q.at_ + 1 ≤ s.time.tick)) = false := by
    refine List.any_eq_false.mpr fun src _ => ?_
    by_cases hl : r.level < srcLevel s b src
    · simp only [h src hl, List.any_nil, Bool.and_false, Bool.false_eq_true, not_false_eq_true]
    · simp only [hl, decide_false, Bool.false_and, Bool.false_eq_true, not_false_eq_true]
  rw [abandonedBy, hq, Bool.and_false]

/-- R121, R122: a word that only computes stores its registers and goes on in the next tick. -/
theorem execWord_computes (s : State) (b : Fin 32) (r : Routine) (w : MicroWord) (h : OnlyComputes w) (hb : r.phase = .body)
    (hl : microLegal w = true) (hop : fld w 105 100 ≠ 0) (hbuf : r.buf.length ≤ 16) (hpc : 0xC40 ≤ r.pc + 1)
    (hq : ∀ src : Fin 20, r.level < srcLevel s b src → s.blks[b].queues[src] = []) :
    execWord s b r w = setRun s b
      { wordRegs s b r w (wordData r w) with pc := r.pc + 1, readyAt := s.time.tick + 1, buf := r.buf } := by
  have he : wordEffects r w (wordData r w) = [] := h.wordEffects_eq r _
  have hna : nextAddr r w (microCond s b r w) = r.pc + 1 := h.nextAddr_eq r _
  rw [execWord_goes_on s s b r (wordRegs s b r w (wordData r w)) w hb hop (by rw [h.next]; decide)
    (by rw [he]; exact h.wordFault_eq r hl hbuf) (h.wordViolation_eq s b r) (by rw [hna]; exact hpc) (h.loadOp_eq s b r _), he, hna,
    h.afterWord_eq s b _ r hb (abandonedBy_of_none_higher _ _ _ ?_)]
  exact fun src hlt => hq src (h.wordRegs_level s b r _ ▸ hlt)

/-! ### Commit and watchdog (R132, R134, R136) -/

/-- R132: the block once a due commit has applied the buffer and completed the request's host command with U14. -/
abbrev afterCommit (s : State) (b : Fin 32) (r : Routine) : State :=
  finishHost (r.buf.foldl (applyEffect b) s) r.req .ok r.u[(14 : Fin 16)]

/-- R134: a routine after its commit, at the first word of its tail. -/
abbrev tailOf (r : Routine) : Routine := { r with buf := [], phase := .tail 0, req := { r.req with host := none } }

/-- R132, R134: a due commit goes on to the tail. -/
theorem doCommit_tail (s : State) (b : Fin 32) (r : Routine) (hrun : s.blks[b].run = some r)
    (hph : r.phase = .commitDue false) (hon : seqsOn s = true) (hr : r.readyAt ≤ s.time.tick) :
    doCommit b s = updQueue (setRun (afterCommit s b r) b (tailOf r)) b r.src (fun l => (tailOf r).req :: l.drop 1) := by
  simp only [doCommit, hrun, hph, hon, hr, decide_true, Bool.and_self, Bool.not_true, Bool.false_eq_true, if_false]

/-- R132, R134: a due commit of a word that is also the last one ends its routine. -/
theorem doCommit_ends (s : State) (b : Fin 32) (r : Routine) (hrun : s.blks[b].run = some r)
    (hph : r.phase = .commitDue true) (hon : seqsOn s = true) (hr : r.readyAt ≤ s.time.tick) :
    doCommit b s = requeue (updBlk (endRoutine (afterCommit s b r) b (tailOf r)) b (fun k => { k with freeAt := r.readyAt })) b
      (tailOf r) := by
  simp only [doCommit, hrun, hph, hon, hr, decide_true, Bool.and_self, Bool.not_true, Bool.false_eq_true, if_false, if_true]

theorem doRoutineWatchdog_due (s : State) (b : Fin 32) (r : Routine) (hrun : s.blks[b].run = some r) (hph : r.phase = .body)
    (hon : seqsOn s = true) (hd : r.firstAt + 256 ≤ s.time.tick) : doRoutineWatchdog b s =
      scopeFaultOf (endRoutine (report (noteCount (setReg s (.block b 0x08) (word (seqErr true 0x8 r.pc))) b r) 0x1B (.block b)
        r.pc.toNat false) b r) r.req := by
  simp only [doRoutineWatchdog, hrun, hph, hon, hd, decide_true, Bool.and_self, if_true]

/-! ### Writes of SEQ_CTRL (R143, R145) -/

theorem writeSeqCtrl_ok (s : State) (b : Fin 32) (v : Word) : (writeSeqCtrl s b v).2 = .ok := by
  unfold writeSeqCtrl
  dsimp only
  split
  · rfl
  · split <;> rfl

/-- R143: CUST_EN written 0 of a block whose timer runs on. -/
theorem writeSeqCtrl_discards (s : State) (b : Fin 32) (v : Word) (h0 : bit v 0 = false) (h1 : bit v 1 = true)
    (ht : regBit s (.block b 0x00) 1 = true) :
    writeSeqCtrl s b v = (purgeRequests (setReg s (.block b 0x00) (v &&& 3)) b, .ok) := by
  simp only [writeSeqCtrl, h0, h1, ht, Bool.not_true, Bool.and_false, Bool.false_eq_true, if_false, if_true]

/-- R143, R145: CUST_EN and TIMER_EN both written 0. -/
theorem writeSeqCtrl_stops (s : State) (b : Fin 32) (v : Word) (h0 : bit v 0 = false) (h1 : bit v 1 = false) :
    writeSeqCtrl s b v =
      (updBlk (purgeRequests (setReg s (.block b 0x00) (v &&& 3)) b) b (fun k => { k with timerNext := none }), .ok) := by
  simp only [writeSeqCtrl, h0, h1, Bool.false_and, Bool.false_eq_true, if_false]

/-- R9: of the blocks a class L write does what its unit does. -/
theorem acts_blks (z y : State) (req : Requester) (low : Word) (l : PLoc) (i : PInfo) (v : Word) (t : Status)
    (hi : paramInfo l = some i) (hw : writePlace z req low l i v = (y, t)) : (Acts z req low l v).blks = y.blks := by
  rw [acts_eq z y req low l i v t hi hw]

end Sys2Proof.Machine
end

section
/-!
PROOFS. The obligations of 04_microengine.md.
-/
namespace Sys2Proof.Machine

/-- Settles O23: each row is what its block does under the conditions that let it happen, its parameter write, or that write as
it acts. -/
theorem sequencerRowsComplete : Obligations.SequencerRowsComplete := by
  unfold Obligations.SequencerRowsComplete
  refine ⟨?_, ?_, ?_, ?_, ?_, ?_, ?_, ?_, ?_, ?_, ?_⟩
  · rintro b t z s ht hon hd rfl
    show run (doBlkTimer b) s = _
    rw [run, doBlkTimer_due s b t ht hon hd]
  · intro b src q s hon hrun hfree hsrc hq hecc hpc
    show run (doRoutineDispatch b) s = _
    rw [run, doRoutineDispatch_serves s b src q _ hon hrun hfree hsrc hq hecc rfl hpc]
  · rintro b r w data z r1 s hrun hon hb hwt hr ht htr hecc hw hop hm rfl hk hf hv hna hl
    show run (doMicroword b) s = _
    rw [run, doMicroword_executes s b r w ⟨hrun, hon, hb, hwt, hr, ht, htr, hecc, hw⟩ hm,
      execWord_goes_on s z b r r1 w hb hop hk hf hv hna hl]
  · intro b r w s hrun hon hb hwt hr ht htr hecc hw hl hop hidle hbuf hpc hq
    obtain ⟨hk, hcell, hm, hrec, hcommit, htime⟩ := hidle
    show run (doMicroword b) s = _
    rw [run, doMicroword_executes s b r w ⟨hrun, hon, hb, hwt, hr, ht, htr, hecc, hw⟩ (by omega),
      execWord_computes s b r w ⟨hk, hcell, hm, hrec, hcommit, htime⟩ hb hl hop hbuf hpc hq]
  · intro b r s hrun hph hon hr
    show run (doCommit b) s = _
    rw [run, doCommit_tail s b r hrun hph hon hr]
  · intro b r s hrun hph hon hr
    show run (doCommit b) s = _
    rw [run, doCommit_ends s b r hrun hph hon hr]
  · intro b r s hrun hph hon hd
    show run (doRoutineWatchdog b) s = _
    rw [run, doRoutineWatchdog_due s b r hrun hph hon hd]
  · intro b t s ht ha hd
    show run (doLaneRebuildDone b) s = _
    rw [run, doLaneRebuildDone_due s b t ht ha hd]
  · exact fun req b v s ha => run_rowWrite_waits req (.block b 0x00) _ (v &&& 0xFFFFFE) s (show _ < 0x100 by decide) ha rfl rfl
      (writeSeqCtrl_ok _ b _)
  · exact fun req b low v z h0 h1 ht =>
      acts_blks z _ req low (.block b 0x00) _ v _ rfl (writeSeqCtrl_discards z b v h0 h1 ht)
  · exact fun req b low v z h0 h1 =>
      acts_blks z _ req low (.block b 0x00) _ v _ rfl (writeSeqCtrl_stops z b v h0 h1)

end Sys2Proof.Machine
end

section
/-!
SUPPORT. What 05_pwm_and_trips.md comes to in the model: a carrier after an update and what keeps carriers, the start of a
period, edges of a period and trigger compares, sources of the trip latch, and writes of BPWM_CTRL and GANG_CTRL.
-/
namespace Sys2Proof.Machine

/-! ### Carriers after an update -/

theorem carrier_updCarrier (s : State) (k : Carrier) (f : CarrierSt → CarrierSt) :
    carrier (updCarrier s k f) k = f (carrier s k) := by
  cases k <;> simp [carrier, updCarrier]

theorem carrier_congr (s z : State) (k : Carrier) (hb : z.bcar = s.bcar) (hg : z.gcar = s.gcar) :
    carrier z k = carrier s k := by
  cases k <;> simp only [carrier, hb, hg]

@[simp] theorem carrier_updCell (s : State) (k : Carrier) (c : Fin 512) (f : Cell → Cell) :
    carrier (updCell s c f) k = carrier s k := carrier_congr s _ k rfl rfl

@[simp] theorem carrier_setReg (s : State) (k : Carrier) (l : PLoc) (v : Word) : carrier (setReg s l v) k = carrier s k :=
  carrier_congr s _ k rfl rfl

@[simp] theorem carrier_addJob (s : State) (k : Carrier) (n : Nat) (j : Job) : carrier (addJob s n j) k = carrier s k :=
  carrier_congr s _ k rfl rfl

theorem carrier_emitCarrier (s : State) (k : Carrier) (tick typ a b : Nat) :
    carrier (emitCarrier s k tick typ a b) k = carrier s k := by
  unfold emitCarrier
  split
  · exact carrier_congr s _ k (emitRegion_bcar ..) (emitRegion_gcar ..)
  · rfl

/-- R151, R153, R154: the edges of a period are the cells' alone. -/
theorem carrier_periodEdges (s : State) (k : Carrier) (p n : Nat) (tripped resume : Bool) (c : Fin 512) :
    carrier (periodEdges s k p n tripped resume c) k = carrier s k := by
  unfold periodEdges
  split
  · rw [pairEdges, carrier_updCell, carrier_updCell]
  · rfl
  · exact carrier_updCell ..

/-! ### PERIOD_START (R147, R148, R159, R160) -/

/-- R147: what a carrier counts from: the tick of its present period start and that of the next. -/
def CountsFrom (s : State) (k : Carrier) (p q : Nat) : Prop := (carrier s k).start = some p ∧ (carrier s k).next = some q

theorem CountsFrom.of_carrier_eq {s z : State} {k : Carrier} {p q : Nat} (h : CountsFrom s k p q)
    (hz : carrier z k = carrier s k) : CountsFrom z k p q := by
  rwa [CountsFrom, hz]

/-- R157, R159: a trip does not stop the count. -/
theorem CountsFrom.setTripLatch {s : State} {k : Carrier} {p q : Nat} (h : CountsFrom s k p q) :
    CountsFrom (setTripLatch s k) k p q := by
  unfold Machine.setTripLatch
  split
  · exact h
  · rw [CountsFrom, carrier_emitCarrier, foldl_keep (carrier · k) _ fun _ _ => carrier_updCell .., carrier_updCarrier]
    exact h

/-- R148: what a carrier works with from a period start in tick `p` on. -/
def periodWords (s : State) (k : Carrier) (p : Nat) : State := if updlockAt s k (p - 1) then s else reloadCarrier s k p

/-- R147, R156: a period of `n` ticks begins in tick `p`, with its triggers. -/
def periodBegun (z : State) (k : Carrier) (p n : Nat) : State :=
  updCarrier z k (fun x => { x with
    start := some p
    next := some (p + n)
    ctrigs := x.ctrigs ++ (List.finRange 4).filterMap (fun i =>
      if (work z (carTrig k i.val)).toNat < n then some (p + (work z (carTrig k i.val)).toNat, i) else none) })

/-- R160: a carrier resumes with the period that starts in tick `p`. -/
def resumesIn (x : CarrierSt) (p : Nat) : Bool := x.resumeWait && decide (x.clearTick < p)

/-- R160, R162: the carrier after a resumption in tick `p`, with its record. -/
def resumedIn (s : State) (k : Carrier) (p : Nat) : State :=
  if resumesIn (carrier s k) p then
    emitCarrier (updCarrier s k (fun z => { z with resumeWait := false })) k p 0x31 (match k with
      | .block _ => 0
      | .gang _ => 1) (carrier s k).tripCnt.toNat
  else s

/-- R151, R154, R163: each cell of a carrier takes its edges of the period, and one that waited for the period resumes. -/
def periodCells (s : State) (k : Carrier) (p n : Nat) (tripped resume : Bool) : State :=
  (carrierCells s k).foldl (fun w c =>
      updCell w c (fun x => { x with pwmWait := if cellResumes x p false then none else x.pwmWait }))
    ((carrierCells s k).foldl (fun w c => periodEdges w k p n tripped resume c) s)

/-- R157: the trip latch of a carrier in the tick of a period start. -/
def trippedIn (y : State) (k : Carrier) : State := if tripLive y k then setTripLatch y k else y

/-- R159, R160: what a period start comes to once the carrier counts. -/
def periodFrom (y : State) (k : Carrier) (p n : Nat) : State :=
  periodCells (resumedIn (trippedIn y k) k p) k p n
    ((carrier (trippedIn y k) k).trip || ((carrier (trippedIn y k) k).resumeWait && !resumesIn (carrier (trippedIn y k) k) p))
    (resumesIn (carrier (trippedIn y k) k) p)

theorem doPeriodStart_due (s : State) (k : Carrier) (p n : Nat) (hp : (carrier s k).next = some p) (hon : carriersOn s = true)
    (hr : (carrier s k).running = true) (hd : p ≤ s.time.tick) (hn : n = (work (periodWords s k p) (carPeriod k)).toNat) :
    doPeriodStart k s = periodFrom (periodBegun (periodWords s k p) k p n) k p n := by
  subst hn
  simp only [doPeriodStart, hp, hon, hr, hd, decide_true, Bool.and_self, Bool.not_true, Bool.false_eq_true, if_false]
  rfl

/-- R151, R154: of an untripped carrier a period start is the edges of its cells. -/
theorem periodFrom_untripped (y : State) (k : Carrier) (p n : Nat) (hl : tripLive y k = false)
    (ht : (carrier y k).trip = false) (hw : (carrier y k).resumeWait = false) :
    periodFrom y k p n = periodCells y k p n false false := by
  have hy : trippedIn y k = y := by rw [trippedIn, hl, if_neg Bool.false_ne_true]
  have hr : resumesIn (carrier y k) p = false := by rw [resumesIn, hw, Bool.false_and]
  have hz : resumedIn y k p = y := by simp only [resumedIn, hr, Bool.false_eq_true, if_false]
  rw [periodFrom, hy, hz, hr, ht, hw]
  rfl

theorem carrier_periodCells (s : State) (k : Carrier) (p n : Nat) (tripped resume : Bool) :
    carrier (periodCells s k p n tripped resume) k = carrier s k := by
  rw [periodCells, foldl_keep (carrier · k) _ fun _ _ => carrier_updCell ..,
    foldl_keep (carrier · k) _ fun z c => carrier_periodEdges z k p n tripped resume c]

namespace CountsFrom
variable {s : State} {k : Carrier} {p q : Nat}

theorem trippedIn (h : CountsFrom s k p q) : CountsFrom (trippedIn s k) k p q := by
  unfold Machine.trippedIn
  split
  · exact h.setTripLatch
  · exact h

theorem resumedIn (h : CountsFrom s k p q) (t : Nat) : CountsFrom (resumedIn s k t) k p q := by
  unfold Machine.resumedIn
  split
  · rw [CountsFrom, carrier_emitCarrier, carrier_updCarrier]
    exact h
  · exact h

end CountsFrom

/-- R147: trips and resumptions leave the period that begins as it is. -/
theorem periodFrom_counts (z : State) (k : Carrier) (p n : Nat) :
    CountsFrom (periodFrom (periodBegun z k p n) k p n) k p (p + n) := by
  have hb : CountsFrom (periodBegun z k p n) k p (p + n) := by
    rw [CountsFrom, periodBegun, carrier_updCarrier]
    exact ⟨rfl, rfl⟩
  exact (hb.trippedIn.resumedIn p).of_carrier_eq (carrier_periodCells ..)

/-! ### Edges of a period and trigger compares (R151, R152, R156) -/

/-- R152: an edge is delayed only where it ends a level of a block carrier's cell. -/
theorem doPwmEdge_places (s : State) (c : Fin 512) (e : Nat × Bool) (l : List (Nat × Bool)) (k : Carrier)
    (he : s.cells[c].pwmEdges = e :: l) (hk : carrierOf s c = some k) (hon : carriersOn s = true) (hc : cellEn s c = true)
    (hd : e.1 / 16 ≤ s.time.tick) (hs : (∃ r, k = .gang r) ∨ e.2 = s.cells[c].latch ∨ leastEdge s c ≤ e.1) :
    doPwmEdge c s = edgesOut (placeEdge (updCell s c (fun y => { y with pwmEdges := l })) c (if e.2 then .set else .clear)
      (at16 s e.1) false (fun _ => .pwm)) := by
  simp only [doPwmEdge, he, hk, hon, hc, hd, decide_true, Bool.and_self, Bool.not_true, Bool.false_eq_true, if_false]
  rcases hs with ⟨r, rfl⟩ | hl | ht
  · simp only [Bool.false_and, Bool.false_eq_true, if_false]
  · simp only [hl, ne_eq, not_true_eq_false, decide_false, Bool.and_false, Bool.false_and, Bool.false_eq_true, if_false]
  · simp only [Nat.not_lt.mpr ht, decide_false, Bool.and_false, Bool.false_eq_true, if_false]

/-- R152: an edge that would end a level of a block carrier's cell too soon waits, and is flagged. -/
theorem doPwmEdge_delays (s : State) (c : Fin 512) (e : Nat × Bool) (l : List (Nat × Bool)) (b : Fin 32)
    (he : s.cells[c].pwmEdges = e :: l) (hk : carrierOf s c = some (.block b)) (hon : carriersOn s = true)
    (hc : cellEn s c = true) (hd : e.1 / 16 ≤ s.time.tick) (hl : e.2 ≠ s.cells[c].latch) (ht : e.1 < leastEdge s c) :
    doPwmEdge c s = orReg (updCell s c (fun y => { y with pwmEdges := insertEdge l (leastEdge s c, e.2) }))
      (.block b 0x10) 0x040000 := by
  simp only [doPwmEdge, he, hk, hon, hc, hd, hl, ht, ne_eq, not_false_eq_true, decide_true, Bool.and_self, Bool.not_true,
    Bool.false_eq_true, if_false, if_true]
  rfl

theorem doCtrig_due (s : State) (k : Carrier) (i : Fin 4) (e : Nat × Fin 4)
    (he : (carrier s k).ctrigs.find? (fun e => decide (e.2 = i ∧ e.1 ≤ s.time.tick)) = some e) (hon : carriersOn s = true) :
    doCtrig k i s = carrierTrigger (updCarrier s k (fun y =>
      { y with ctrigs := y.ctrigs.filter (fun f => !decide (f = e)) })) k i e.1 := by
  simp only [doCtrig, he, hon, if_true]

/-! ### Sources of the trip latch (R157, R160) -/

theorem doTripSource_comparator (s : State) (k : Carrier) (w : Fin 64) (ha : alive s = true)
    (hr : regionOfComp w = carRegion k) (hb : bit (reg s (carTripSel k)) (w.val % 16) = true) (ht : s.comps[w].trip = true) :
    doTripSource k (.comparator w) s = setTripLatch s k := by
  simp only [doTripSource, ha, hr, hb, ht, decide_true, Bool.and_self, Bool.not_true, Bool.false_eq_true, if_false, if_true]

theorem doTripSource_pinA (s : State) (k : Carrier) (ha : alive s = true) (hp : tripPinActive s k false = true) :
    doTripSource k (.pin 0) s = setTripLatch s k := by
  simp [doTripSource, ha, hp]

theorem doTripSource_pinB (s : State) (k : Carrier) (ha : alive s = true) (hp : tripPinActive s k true = true) :
    doTripSource k (.pin 1) s = setTripLatch s k := by
  simp [doTripSource, ha, hp]

theorem doTripSource_software (s : State) (k : Carrier) (ha : alive s = true) (hw : tripSoftware s k = true) :
    doTripSource k .software s = setTripLatch s k := by
  simp only [doTripSource, ha, hw, Bool.not_true, Bool.false_eq_true, if_false, if_true]

/-- R157: SAFE_REQ_N is low from its edge on, and so is an active source where TRIPPIN enables it. -/
theorem doTripSource_safeReq (s : State) (k : Carrier) (ha : alive s = true) (hb : bit (reg s (carTripPin k)) 20 = true) :
    doTripSource k .safeReq s = setTripLatch { s with pins := { s.pins with safeReqN := false } } k := by
  have hs : tripSafe { s with pins := { s.pins with safeReqN := false } } k = true := by
    rw [tripSafe, Bool.and_eq_true_iff]
    exact ⟨hb, rfl⟩
  simp only [doTripSource, ha, hs, Bool.not_true, Bool.false_eq_true, if_false, if_true]

theorem examineTrip_clears (z : State) (k : Carrier) (ht : (carrier z k).trip = true) (hl : tripLive z k = false) :
    examineTrip z k true false =
      updCarrier z k (fun x => { x with trip := false, resumeWait := true, clearTick := z.time.tick }) := by
  simp only [examineTrip, ht, hl, Bool.and_self, Bool.not_true, Bool.false_eq_true, if_false]

/-- R160: a refused clear leaves the latch set, which a software source of the same tick finds so. -/
theorem examineTrip_refuses (z : State) (k : Carrier) (software : Bool) (ht : (carrier z k).trip = true)
    (hl : tripLive z k = true) : examineTrip z k true software = orReg z (carStat k) 0x100000 := by
  have hc : carrier (orReg z (carStat k) 0x100000) k = carrier z k := carrier_congr z _ k (orReg_bcar ..) (orReg_gcar ..)
  have hset : setTripLatch (orReg z (carStat k) 0x100000) k = orReg z (carStat k) 0x100000 := by
    rw [setTripLatch, hc, if_pos ht]
  simp only [examineTrip, ht, hl, hset, ite_self, Bool.and_self, Bool.not_true, Bool.false_eq_true, if_false, if_true]

theorem examineTrip_sets (z : State) (k : Carrier) : examineTrip z k false true = setTripLatch z k := by
  simp only [examineTrip, Bool.false_and, Bool.not_false, if_true]

/-! ### BPWM_CTRL and GANG_CTRL (R147, R148, R157, R166) -/

theorem paramInfo_carrierCtrl (k : Carrier) : paramInfo (carrierCtrl k) = pL 0 0x000FA7 0 0x000018 0 := by
  cases k <;> rfl

theorem carrierCtrl_inArea (k : Carrier) : (carrierCtrl k).inArea := by
  cases k <;> simp [carrierCtrl, PLoc.inArea]

theorem writePlace_carrierCtrl (s : State) (req : Requester) (low : Word) (k : Carrier) (i : PInfo) (v : Word) :
    writePlace s req low (carrierCtrl k) i v = writeCarrierCtrl s k v := by
  cases k <;> rfl

/-- R9: a row that writes BPWM_CTRL or GANG_CTRL. -/
theorem run_carrierCtrl (req : Requester) (k : Carrier) (v : Word) (s : State) (h : Accepts s req (carrierCtrl k) v) :
    run (rowWrite req (carrierCtrl k) v) s = .next (settle (Committed s req (carrierCtrl k) v)) := by
  refine run_rowWrite_waits req (carrierCtrl k) _ v s (carrierCtrl_inArea k) h (paramInfo_carrierCtrl k) ?_ ?_
  · cases k <;> rfl
  · rw [writePlace_carrierCtrl]
    rfl

/-- R147, R148: the control parameter stored, with the lock it replaces noted. -/
def ctrlNoted (z : State) (k : Carrier) (v : Word) : State :=
  noteLock (setReg z (carrierCtrl k) (v &&& 0x000FA7)) k (bit (reg z (carrierCtrl k)) 2)

/-- R157, R160: TRIP_CLR and TRIP_SW ask for the examination of the tick `n`. -/
def tripAsked (s : State) (k : Carrier) (n : Nat) (v : Word) : State :=
  if bit v 3 || bit v 4 then addJob s n (.trip k (bit v 3) (bit v 4)) else s

theorem carrier_tripAsked (s : State) (k : Carrier) (n : Nat) (v : Word) : carrier (tripAsked s k n v) k = carrier s k := by
  unfold tripAsked
  split
  · exact carrier_addJob ..
  · rfl

theorem carrier_noteLock (s : State) (k : Carrier) (old : Bool) (h : (carrier s k).lockAt ≠ some s.time.tick) :
    carrier (noteLock s k old) k = { carrier s k with lockPrev := old, lockAt := some s.time.tick } := by
  rw [noteLock, carrier_updCarrier, if_neg h]

theorem writeCarrierCtrl_starts (z : State) (k : Carrier) (v : Word) (h1 : bit v 0 = true)
    (h0 : bit (reg z (carrierCtrl k)) 0 = false) :
    writeCarrierCtrl z k v = (tripAsked (startCarrier (ctrlNoted z k v) k (bit v 5)) k (z.time.tick + 1) v, .ok) := by
  simp only [writeCarrierCtrl, h1, h0, Bool.not_false, Bool.and_self, if_true]
  rfl

theorem writeCarrierCtrl_stops (z : State) (k : Carrier) (v : Word) (h0 : bit v 0 = false)
    (h1 : bit (reg z (carrierCtrl k)) 0 = true) :
    writeCarrierCtrl z k v = (tripAsked (stopCarrier (ctrlNoted z k v) k) k (z.time.tick + 1) v, .ok) := by
  simp only [writeCarrierCtrl, h1, h0, Bool.not_false, Bool.and_self, Bool.false_and, Bool.false_eq_true, if_false, if_true]
  rfl

/-- R147: a write that leaves EN as it is neither starts nor stops the carrier. -/
theorem writeCarrierCtrl_same_en (z : State) (k : Carrier) (v : Word) (h : bit v 0 = bit (reg z (carrierCtrl k)) 0) :
    writeCarrierCtrl z k v = (tripAsked (ctrlNoted z k v) k (z.time.tick + 1) v, .ok) := by
  simp only [writeCarrierCtrl, h, Bool.and_not_self, Bool.not_and_self, Bool.false_eq_true, if_false]
  rfl

/-- R9: a write of a carrier's control parameter acts on carriers as `writeCarrierCtrl` does. -/
theorem carrier_acts_carrierCtrl (z y : State) (req : Requester) (k : Carrier) (low v : Word) (t : Status)
    (h : writeCarrierCtrl z k v = (y, t)) : carrier (Acts z req low (carrierCtrl k) v) k = carrier y k := by
  rw [acts_eq z y req low _ _ v t (paramInfo_carrierCtrl k) ((writePlace_carrierCtrl ..).trans h)]
  exact carrier_congr y _ k rfl rfl

theorem acts_carrierCtrl_agenda (z y : State) (req : Requester) (k : Carrier) (low v : Word) (t : Status)
    (h : writeCarrierCtrl z k v = (y, t)) : (Acts z req low (carrierCtrl k) v).agenda = y.agenda := by
  rw [acts_eq z y req low _ _ v t (paramInfo_carrierCtrl k) ((writePlace_carrierCtrl ..).trans h)]

theorem ctrlNoted_sys (z : State) (k : Carrier) (v : Word) : (ctrlNoted z k v).sys = z.sys := updCarrier_sys ..

theorem ctrlNoted_time (z : State) (k : Carrier) (v : Word) : (ctrlNoted z k v).time = z.time := updCarrier_time ..

theorem ctrlNoted_agenda (z : State) (k : Carrier) (v : Word) : (ctrlNoted z k v).agenda = z.agenda := updCarrier_agenda ..

/-- R147: outside HALT a carrier starts to count in the next tick, or waits for its alignment. -/
theorem carrier_startCarrier (s : State) (k : Carrier) (align : Bool) (h : s.sys.mode ≠ .halt) :
    carrier (startCarrier s k align) k =
      { carrier s k with
        running := true, start := none, next := if align then none else some (s.time.tick + 1), wait := align,
        frozen := none, ctrigs := [] } := by
  simp only [startCarrier, carrier_updCarrier, h, decide_false, Bool.or_false, Bool.false_eq_true, if_false]

end Sys2Proof.Machine
end

section
/-!
PROOFS. The obligations of 05_pwm_and_trips.md.
-/
namespace Sys2Proof.Machine

/-- Settles O24: each row is what its carrier does under the conditions that let it happen, its parameter write, that write as it
acts, or the examination it asks for. -/
theorem pwmRowsComplete : Obligations.PwmRowsComplete := by
  unfold Obligations.PwmRowsComplete
  refine ⟨?_, ?_, ?_, ?_, ?_, ?_, ?_, ?_, ?_, ?_, ?_, ?_, ?_, ?_, ?_, ?_, ?_, fun k z => examineTrip_clears z k,
    fun k sw z => examineTrip_refuses z k sw, fun k z => examineTrip_sets z k⟩
  · rintro k p n z y s hp hon hr hd rfl hn rfl hl ht hw
    show run (doPeriodStart k) s = _
    rw [run, doPeriodStart_due s k p n hp hon hr hd hn]
    exact congrArg (fun y => Host.Outcome.next (settle y)) (periodFrom_untripped _ k p n hl ht hw)
  · intro k p n s hp hon hr hd hn
    refine ⟨_, rfl, ?_⟩
    rw [doPeriodStart_due s k p n hp hon hr hd hn]
    exact periodFrom_counts _ k p n
  · intro c e l k s he hk hon hc hd hs
    show run (doPwmEdge c) s = _
    rw [run, doPwmEdge_places s c e l k he hk hon hc hd hs]
    rfl
  · intro c e l b s he hk hon hc hd hl ht
    show run (doPwmEdge c) s = _
    rw [run, doPwmEdge_delays s c e l b he hk hon hc hd hl ht]
  · intro k i e s he hon
    show run (doCtrig k i) s = _
    rw [run, doCtrig_due s k i e he hon]
  · intro k w s ha hr hb ht
    show run (doTripSource k (.comparator w)) s = _
    rw [run, doTripSource_comparator s k w ha hr hb ht]
  · intro k s ha hp
    show run (doTripSource k (.pin 0)) s = _
    rw [run, doTripSource_pinA s k ha hp]
  · intro k s ha hp
    show run (doTripSource k (.pin 1)) s = _
    rw [run, doTripSource_pinB s k ha hp]
  · intro k s ha hb
    show run (doTripSource k .safeReq) s = _
    rw [run, doTripSource_safeReq s k ha hb]
  · intro k s ha hw
    show run (doTripSource k .software) s = _
    rw [run, doTripSource_software s k ha hw]
  · exact fun req k v s h => ⟨run_carrierCtrl req k v s h, run_carrierCtrl req k v s h⟩
  · exact fun req k v s h => run_carrierCtrl req k (v ||| 8) s h
  · exact fun req k v s h => run_carrierCtrl req k (v ||| 0x10) s h
  · intro req k low v z h1 h0 hm
    refine ⟨_, rfl, ?_⟩
    rw [carrier_acts_carrierCtrl z _ req k low v _ (writeCarrierCtrl_starts z k v h1 h0), carrier_tripAsked,
      carrier_startCarrier _ k _ (by rwa [ctrlNoted_sys]), ctrlNoted_time]
    exact ⟨rfl, rfl, rfl, rfl, rfl⟩
  · intro req k low v z h0 h1
    rw [carrier_acts_carrierCtrl z _ req k low v _ (writeCarrierCtrl_stops z k v h0 h1), carrier_tripAsked, ctrlNoted]
  · intro req k low v z hl he
    rw [carrier_acts_carrierCtrl z _ req k low v _ (writeCarrierCtrl_same_en z k v he), carrier_tripAsked, ctrlNoted,
      carrier_noteLock _ k _ (by rwa [carrier_setReg]), carrier_setReg]
    rfl
  · intro req k low v z hb he
    rw [acts_carrierCtrl_agenda z _ req k low v _ (writeCarrierCtrl_same_en z k v he), tripAsked,
      if_pos (Bool.or_eq_true_iff.mpr hb), addJob, ctrlNoted_agenda]

end Sys2Proof.Machine
end

section
/-!
SUPPORT. What 07_pewter_engines.md comes to in the model: what trying each word of a sequencer gives once it does not stall, the
steps that execute no word, the output bits after a step, writes of PE_CTRL and of the FIFOs and stores, and the commands on engines.
-/
namespace Sys2Proof.Machine

/-! ### The FIFOs and the frame transfers (R207) -/

theorem pushRx_out (s : State) (p : Fin 32) (n : Nat) (keep : Bool) : (pushRx s p n keep).pes[p].out = s.pes[p].out := by
  rw [pushRx, updPe_at]

theorem pullTx_out (s : State) (p : Fin 32) (h : Word) (l : List Word) : (pullTx s p h l).pes[p].out = s.pes[p].out := by
  rw [pullTx, updPe_at]

theorem framePushNow_out (s : State) (p : Fin 32) (n : Nat) : (framePushNow s p n).pes[p].out = s.pes[p].out := by
  unfold framePushNow
  split
  · rw [pushRx_out, updPe_at]
  · rw [updPe_at]

theorem framePullNow_out (s : State) (p : Fin 32) : (framePullNow s p).pes[p].out = s.pes[p].out := by
  unfold framePullNow
  split
  · rw [pullTx_out, updPe_at]
  · rw [updPe_at]

/-- R207: the state an IN or a PUSH acts on, after a pending frame push. -/
def framePushed (s : State) (p : Fin 32) (n : Nat) : State := if s.pes[p].framePush then framePushNow s p n else s

/-- R207: the state an OUT or a PULL acts on, after a pending frame pull. -/
def framePulled (s : State) (p : Fin 32) : State := if s.pes[p].framePull then framePullNow s p else s

theorem framePushed_out (s : State) (p : Fin 32) (n : Nat) : (framePushed s p n).pes[p].out = s.pes[p].out := by
  unfold framePushed
  split
  · exact framePushNow_out s p n
  · rfl

theorem framePulled_out (s : State) (p : Fin 32) : (framePulled s p).pes[p].out = s.pes[p].out := by
  unfold framePulled
  split
  · exact framePullNow_out s p
  · rfl

/-- R207: a pending frame push that finds room does not stall. -/
theorem afterFramePush_room (s : State) (p : Fin 32) (n : Nat) (f : State → PeTry)
    (h : s.pes[p].framePush = true → rxRoom s p = true) : afterFramePush s p n f = f (framePushed s p n) := by
  unfold afterFramePush framePushed
  split
  · next hp => rw [if_pos (h hp)]
  · rfl

/-- R207: a pending frame pull that finds a word does not stall. -/
theorem afterFramePull_word (s : State) (p : Fin 32) (f : State → PeTry)
    (h : s.pes[p].framePull = true → s.pes[p].tx ≠ []) : afterFramePull s p f = f (framePulled s p) := by
  unfold afterFramePull framePulled
  split
  · next hp => rw [if_neg (by simpa using h hp)]
  · rfl

/-! ### Words that complete (R204, R206, R207) -/

/-- A word that completes without writing output bits leaves them as they were. -/
theorem peDone_eq (s y : State) (p : Fin 32) (h : y.pes[p].out = s.pes[p].out) : peDone y p = ⟨y, true, s.pes[p].out, none⟩ := by
  rw [peDone, h]

/-- A word that completes after an update of its engine that leaves the output bits alone. -/
theorem peDone_updPe (s : State) (p : Fin 32) (f : Pewter → Pewter) (h : (f s.pes[p]).out = s.pes[p].out) :
    peDone (updPe s p f) p = ⟨updPe s p f, true, s.pes[p].out, none⟩ := peDone_eq s _ p (by rw [updPe_at, h])

theorem peTry_nop (s : State) (p : Fin 32) (n : Nat) (w : PewterWord) (hop : fld w 15 12 = 0) :
    peTry s p n w = ⟨s, true, s.pes[p].out, none⟩ := by
  simp only [peTry, hop, peDone]

theorem peTry_set (s : State) (p : Fin 32) (n : Nat) (w : PewterWord) (hop : fld w 15 12 = 1) :
    peTry s p n w = ⟨if fld w 11 10 = 0 then s
      else if fld w 11 10 = 1 then updPe s p (fun e => { e with x := word (fld w 9 4) })
      else updPe s p (fun e => { e with y := word (fld w 9 4) }), true,
      if fld w 11 10 = 0 then windowWrite s p s.pes[p].out (fld w 9 4) 6 else s.pes[p].out, none⟩ := by
  simp only [peTry, hop, trySet]
  by_cases h0 : fld w 11 10 = 0
  · simp only [h0, if_true, peOuts]
  by_cases h1 : fld w 11 10 = 1
  · simp only [h1, if_true, if_neg Nat.one_ne_zero]
    exact peDone_updPe s p _ rfl
  · simp only [h0, h1, if_false]
    exact peDone_updPe s p _ rfl

/-- R204: a MOV to another destination than the PC. -/
theorem peTry_mov (s : State) (p : Fin 32) (n : Nat) (w : PewterWord) (v : Word) (hop : fld w 15 12 = 2)
    (hv : v = movFn (fld w 5 4) (movSource s p n (fld w 8 6))) (hpc : fld w 11 9 ≠ 5) :
    peTry s p n w = ⟨if fld w 11 9 = 0 then s
      else if fld w 11 9 = 1 then updPe s p (fun e => { e with x := v })
      else if fld w 11 9 = 2 then updPe s p (fun e => { e with y := v })
      else if fld w 11 9 = 3 then updPe s p (fun e => { e with isr := v, isc := 0 })
      else if fld w 11 9 = 4 then updPe s p (fun e => { e with osr := v, osc := 0 })
      else updPe s p (fun e => { e with holds := e.holds.set 3 (v.setWidth 6) }), true,
      if fld w 11 9 = 0 then windowWrite s p s.pes[p].out v.toNat 16 else s.pes[p].out, none⟩ := by
  simp only [peTry, hop, tryMov, ← hv, if_neg hpc]
  by_cases h0 : fld w 11 9 = 0
  · simp only [h0, if_true, peOuts]
  · simp only [h0, if_false]
    split_ifs <;> exact peDone_updPe s p _ rfl

/-- R204: a MOV to the PC. -/
theorem peTry_mov_pc (s : State) (p : Fin 32) (n : Nat) (w : PewterWord) (v : Word) (hop : fld w 15 12 = 2)
    (hv : v = movFn (fld w 5 4) (movSource s p n (fld w 8 6))) (hpc : fld w 11 9 = 5) :
    peTry s p n w = ⟨s, true, s.pes[p].out, some (v.setWidth 6)⟩ := by
  simp [peTry, hop, tryMov, ← hv, hpc]

/-- R204: where a JMP goes that is taken. -/
abbrev jumpTarget (s : State) (p : Fin 32) (w : PewterWord) : BitVec 6 := s.pes[p].pc + (w.extractLsb' 4 5).signExtend 6

theorem peTry_jmp_always (s : State) (p : Fin 32) (n : Nat) (w : PewterWord) (hop : fld w 15 12 = 3) (hc : fld w 11 9 = 0) :
    peTry s p n w = ⟨s, true, s.pes[p].out, some (jumpTarget s p w)⟩ := by
  simp [peTry, hop, tryJmp, hc]

/-- R204: a JMP that counts: at 0 it neither counts nor jumps, and it jumps unless the count comes to 0. -/
theorem loop_completes (s z : State) (v : Word) (o : BitVec 16) (t : BitVec 6) :
    (if v = 0 then ⟨s, true, o, none⟩ else ⟨z, true, o, if decide (v ≠ 1) then some t else none⟩ : PeTry) =
      ⟨if v = 0 then s else z, true, o, if v = 0 ∨ v = 1 then none else some t⟩ := by
  by_cases h0 : v = 0
  · simp only [h0, if_true, true_or]
  · simp only [h0, if_false, false_or]
    by_cases h1 : v = 1 <;> simp [h1]

theorem peTry_jmp_xloop (s : State) (p : Fin 32) (n : Nat) (w : PewterWord) (hop : fld w 15 12 = 3) (hc : fld w 11 9 = 1) :
    peTry s p n w = ⟨if s.pes[p].x = 0 then s else updPe s p (fun e => { e with x := e.x - 1 }), true, s.pes[p].out,
      if s.pes[p].x = 0 ∨ s.pes[p].x = 1 then none else some (jumpTarget s p w)⟩ := by
  simp only [peTry, hop, tryJmp, hc, if_neg Nat.one_ne_zero, if_true]
  exact loop_completes ..

theorem peTry_jmp_yloop (s : State) (p : Fin 32) (n : Nat) (w : PewterWord) (hop : fld w 15 12 = 3) (hc : fld w 11 9 = 2) :
    peTry s p n w = ⟨if s.pes[p].y = 0 then s else updPe s p (fun e => { e with y := e.y - 1 }), true, s.pes[p].out,
      if s.pes[p].y = 0 ∨ s.pes[p].y = 1 then none else some (jumpTarget s p w)⟩ := by
  simp only [peTry, hop, tryJmp, hc, if_neg (show (2 : Nat) ≠ 0 by decide), if_neg (show (2 : Nat) ≠ 1 by decide), if_true]
  exact loop_completes ..

/-- R204: what a JMP tests that counts nothing: conditions 3 to 7. -/
def jumpTest (s : State) (p : Fin 32) (n : Nat) (w : PewterWord) : Bool :=
  if fld w 11 9 = 3 then peIn s p (regFld s (.pewter p 0x01) 18 17) n
  else if fld w 11 9 = 4 then !peIn s p (regFld s (.pewter p 0x01) 18 17) n
  else if fld w 11 9 = 5 then decide (outLimit s p ≤ s.pes[p].osc)
  else if fld w 11 9 = 6 then decide (inLimit s p ≤ s.pes[p].isc)
  else if regBit s (.pewter p 0x02) 18 then bit s.pes[p].osr 0 else bit s.pes[p].osr 23

theorem peTry_jmp_test (s : State) (p : Fin 32) (n : Nat) (w : PewterWord) (hop : fld w 15 12 = 3) (hc : 3 ≤ fld w 11 9) :
    peTry s p n w = ⟨s, true, s.pes[p].out, if jumpTest s p n w then some (jumpTarget s p w) else none⟩ := by
  have h0 : fld w 11 9 ≠ 0 := by omega
  have h1 : fld w 11 9 ≠ 1 := by omega
  have h2 : fld w 11 9 ≠ 2 := by omega
  simp only [peTry, hop, tryJmp, if_neg h0, if_neg h1, if_neg h2, jumpTest]
  split_ifs <;> rfl

/-- R204: what a WAIT that counts from tick `f` waits for has come by the step of tick `n`. -/
def WaitOver (s : State) (p : Fin 32) (n f : Nat) (w : PewterWord) : Prop :=
  (fld w 11 10 = 0 ∧ peIn s p (fld w 7 4) n = bit w 9) ∨
    (fld w 11 10 = 1 ∧ ∃ g ∈ s.pes[p].seen[(Fin.ofNat 4 (fld w 7 4) : Fin 4)], g.rise = bit w 9 ∧ f ≤ g.at_ ∧ g.at_ ≤ n) ∨
    (fld w 11 10 = 2 ∧ ∃ t, s.doms[(Fin.ofNat 16 (fld w 7 4) : Fin 16)].updTick = some t ∧ f ≤ t ∧ t ≤ n)

/-- R204: whether a WAIT that counts from tick `f` completes in the step of tick `n`. -/
def waitMet (s : State) (p : Fin 32) (n f : Nat) (w : PewterWord) : Bool :=
  if fld w 11 10 = 0 then decide (peIn s p (fld w 7 4) n = bit w 9)
  else if fld w 11 10 = 1 then
    s.pes[p].seen[(Fin.ofNat 4 (fld w 7 4) : Fin 4)].any (fun g => decide (g.rise = bit w 9) && decide (f ≤ g.at_ ∧ g.at_ ≤ n))
  else s.doms[(Fin.ofNat 16 (fld w 7 4) : Fin 16)].updTick.any (fun t => decide (f ≤ t ∧ t ≤ n))

theorem waitMet_of_over (s : State) (p : Fin 32) (n f : Nat) (w : PewterWord) (h : WaitOver s p n f w) :
    waitMet s p n f w = true := by
  unfold waitMet
  obtain ⟨hk, hl⟩ | ⟨hk, g, hg, he⟩ | ⟨hk, t, ht, hr⟩ := h
  · rw [if_pos hk, decide_eq_true hl]
  · rw [if_neg (by omega), if_pos hk, List.any_eq_true]
    exact ⟨g, hg, by simp [he]⟩
  · rw [if_neg (by omega), if_neg (by omega), ht, Option.any_some, decide_eq_true hr]

theorem tryWait_eq (s : State) (p : Fin 32) (n : Nat) (w : PewterWord) : tryWait s p n w =
    if waitMet s p n (s.pes[p].waitFrom.getD n) w then peDone (updPe s p (fun x => { x with waitFrom := none })) p
    else peStall (updPe s p (fun x => { x with waitFrom := some (s.pes[p].waitFrom.getD n) })) p := by
  unfold tryWait waitMet
  dsimp only
  cases s.pes[p].waitFrom <;> cases s.doms[(Fin.ofNat 16 (fld w 7 4) : Fin 16)].updTick <;> rfl

theorem peTry_wait (s : State) (p : Fin 32) (n : Nat) (w : PewterWord) (hop : fld w 15 12 = 4)
    (h : WaitOver s p n (s.pes[p].waitFrom.getD n) w) :
    peTry s p n w = ⟨updPe s p (fun x => { x with waitFrom := none }), true, s.pes[p].out, none⟩ := by
  simp only [peTry, hop]
  rw [tryWait_eq, if_pos (waitMet_of_over s p n _ w h)]
  exact peDone_updPe s p _ rfl

/-- R206: ISR after an IN of a word's source. -/
def inShifted (s : State) (p : Fin 32) (n : Nat) (w : PewterWord) : Word :=
  if regBit s (.pewter p 0x02) 19
    then (s.pes[p].isr >>> fld w 8 4) ||| word (inSource s p n (fld w 11 9) % 2 ^ fld w 8 4 * 2 ^ (24 - fld w 8 4))
    else (s.pes[p].isr <<< fld w 8 4) ||| word (inSource s p n (fld w 11 9) % 2 ^ fld w 8 4)

theorem peTry_in (s y x : State) (p : Fin 32) (n : Nat) (w : PewterWord) (hop : fld w 15 12 = 5)
    (hr : s.pes[p].framePush = true → rxRoom s p = true) (hy : y = framePushed s p n)
    (hx : x = updPe y p (fun e => { e with isr := inShifted y p n w, isc := min 24 (y.pes[p].isc + fld w 8 4) })) :
    peTry s p n w = ⟨if regBit y (.pewter p 0x02) 17 && decide (inLimit y p ≤ min 24 (y.pes[p].isc + fld w 8 4))
      then framePushNow x p n else x, true, s.pes[p].out, none⟩ := by
  have hxo : x.pes[p].out = s.pes[p].out := by rw [hx, updPe_at, hy, framePushed_out]
  simp only [peTry, hop, tryIn, afterFramePush_room s p n _ hr, ← hy]
  unfold inShifted at hx
  rw [← hx]
  refine peDone_eq s _ p ?_
  split
  · rw [framePushNow_out, hxo]
  · exact hxo

theorem peTry_push (s y : State) (p : Fin 32) (n : Nat) (w : PewterWord) (hop : fld w 15 12 = 6)
    (hr : s.pes[p].framePush = true → rxRoom s p = true) (hy : y = framePushed s p n)
    (hd : bit w 9 = false ∨ inLimit y p ≤ y.pes[p].isc) (hroom : rxRoom y p = true) :
    peTry s p n w = ⟨pushRx y p n (bit w 8), true, s.pes[p].out, none⟩ := by
  have hnd : (bit w 9 && decide (y.pes[p].isc < inLimit y p)) = false := by
    obtain hb | hl := hd
    · rw [hb, Bool.false_and]
    · rw [decide_eq_false (Nat.not_lt.mpr hl), Bool.and_false]
  simp only [peTry, hop, tryPush, afterFramePush_room s p n _ hr, ← hy, hnd, hroom, Bool.false_eq_true, if_false, if_true]
  exact peDone_eq s _ p (by rw [pushRx_out, hy, framePushed_out])

/-- R206: the bits an OUT takes from OSR. -/
def outTaken (s : State) (p : Fin 32) (w : PewterWord) : Word :=
  if regBit s (.pewter p 0x02) 18 then s.pes[p].osr &&& word (2 ^ fld w 8 4 - 1) else s.pes[p].osr >>> (24 - fld w 8 4)

/-- R206: an engine after an OUT of the bits `v` with the shift count `c`, `low` where bits leave at the low end. -/
abbrev outShifted (low : Bool) (w : PewterWord) (v : Word) (c : Nat) (e : Pewter) : Pewter :=
  { e with
    osr := (if low then e.osr >>> fld w 8 4 else e.osr <<< fld w 8 4), osc := c, x := if fld w 11 9 = 1 then v else e.x,
    y := if fld w 11 9 = 2 then v else e.y, isr := if fld w 11 9 = 4 then v else e.isr,
    isc := if fld w 11 9 = 4 then fld w 8 4 else e.isc }

theorem peTry_out (s y x : State) (p : Fin 32) (n : Nat) (w : PewterWord) (v : Word) (c : Nat) (hop : fld w 15 12 = 7)
    (hr : s.pes[p].framePull = true → s.pes[p].tx ≠ []) (hy : y = framePulled s p) (hv : v = outTaken y p w)
    (hc : c = min 24 (y.pes[p].osc + fld w 8 4)) (hx : x = updPe y p (outShifted (regBit y (.pewter p 0x02) 18) w v c)) :
    peTry s p n w = ⟨if regBit y (.pewter p 0x02) 16 && decide (outLimit y p ≤ c) then framePullNow x p else x, true,
      if fld w 11 9 = 0 then windowWrite y p s.pes[p].out v.toNat (fld w 8 4) else s.pes[p].out, none⟩ := by
  have hyo : y.pes[p].out = s.pes[p].out := by rw [hy, framePulled_out]
  unfold outTaken at hv
  simp only [peTry, hop, tryOut, afterFramePull_word s p _ hr, ← hy, ← hv, ← hc, hyo, peOuts, hx]

theorem peTry_pull (s y : State) (p : Fin 32) (n : Nat) (w : PewterWord) (h : Word) (l : List Word) (hop : fld w 15 12 = 8)
    (hr : s.pes[p].framePull = true → s.pes[p].tx ≠ []) (hy : y = framePulled s p)
    (hd : bit w 9 = false ∨ outLimit y p ≤ y.pes[p].osc) (ht : y.pes[p].tx = h :: l) :
    peTry s p n w = ⟨pullTx y p h l, true, s.pes[p].out, none⟩ := by
  have hnd : (bit w 9 && decide (y.pes[p].osc < outLimit y p)) = false := by
    obtain hb | hl := hd
    · rw [hb, Bool.false_and]
    · rw [decide_eq_false (Nat.not_lt.mpr hl), Bool.and_false]
  simp only [peTry, hop, tryPull, afterFramePull_word s p _ hr, ← hy, hnd, ht, Bool.false_eq_true, if_false]
  exact peDone_eq s _ p (by rw [pullTx_out, hy, framePulled_out])

/-- R113: a request changes no engine. -/
theorem raiseRequest_pes (s : State) (b : Fin 32) (src : Fin 20) (arg entry at_ : Nat) :
    (raiseRequest s b src arg entry at_).pes = s.pes := by
  unfold raiseRequest
  split
  · rw [report_pes, orReg_pes]
  · rw [pushRequest, updBlk_pes]

theorem peTry_irq (s : State) (p : Fin 32) (n : Nat) (w : PewterWord) (hop : fld w 15 12 = 9)
    (hr : bit w 11 = false ∨ queueFull s p 19 = false) :
    peTry s p n w = ⟨raiseRequest (if queueFull s p 19 then bump s (.pewter p 0x13) 11 0 1 else s) p 19 (0x800000 + fld w 8 4)
      0x2F n, true, s.pes[p].out, none⟩ := by
  have hns : (bit w 11 && queueFull s p 19) = false := by
    obtain h | h := hr
    · rw [h, Bool.false_and]
    · rw [h, Bool.and_false]
  simp only [peTry, hop, tryIrq, hns, Bool.false_eq_true, if_false]
  refine peDone_eq s _ p ?_
  rw [show (raiseRequest _ p 19 _ 0x2F n).pes = s.pes by rw [raiseRequest_pes]; split <;> rfl]

theorem PeTakes.fld_op {s z : State} {p : Fin 32} {op n : Nat} {w : PewterWord} {i : Bool} (h : PeTakes s p op n w i z) :
    fld w 15 12 = op := by
  obtain ⟨-, -, -, hop, -, -⟩ := h
  exact hop

/-! ### Output bits after a step (R201, R208) -/

/-- R208: the output bits after a step whose word completes. -/
theorem peStep_out (z y : State) (p : Fin 32) (n : Nat) (w : PewterWord) (i : Bool) (o : BitVec 16) (t : Option (BitVec 6))
    (h : peTry z p n w = ⟨y, true, o, t⟩) : (peStep z p n w i).pes[p].out = sideOut y p w o := by
  unfold peStep
  simp only [h, if_true]
  rw [pePc_out, updPe_at, setOuts_out]

/-- R201: an engine whose output bits change: they are on their way to the balls. -/
theorem setOuts_at (s : State) (p : Fin 32) (n : Nat) (o : BitVec 16) (h : o ≠ s.pes[p].out) :
    (setOuts s p n o).pes[p] = { s.pes[p] with out := o, outs := s.pes[p].outs ++ [(n + 3, o)] } := by
  rw [show (setOuts s p n o).pes = _ from (setOuts_pes s p n o).trans (if_neg h), updPe_at]

/-! ### Steps that execute no word, and injected words (R202, R205, R211, R214) -/

theorem doPewterHold_due (s : State) (p : Fin 32) (n : Nat) (hd : peDue s p false = some n) (hh : s.pes[p].hold ≠ 0) :
    doPewterHold p s = peNext (updPe s p (fun e => { e with hold := e.hold - 1 })) p n := by
  simp only [doPewterHold, hd, if_neg hh]

theorem doLutStep_due (s : State) (p : Fin 32) (n : Nat) (v : Byte) (hd : peDue s p true = some n)
    (hv : v = memGet (zeroMem 8) s.mem.lut (p.val * 256 + s.pes[p].lut.toNat * 16 + peInputs s p n)) :
    doLutStep p s = peNext (setOuts (updPe s p (fun e => { e with lut := BitVec.ofNat 4 (fld v 7 4) })) p n
      ((List.range 4).foldl (fun a k => setFld a ((regFld s (.pewter p 0x01) 16 13 + k) % 16)
        ((regFld s (.pewter p 0x01) 16 13 + k) % 16) (bitAt (bit v k) 0)) s.pes[p].out)) p n := by
  simp only [doLutStep, hd, ← hv]

theorem pewterStep_illegal (s : State) (p : Fin 32) (n : Nat) (w : PewterWord) (i : Bool) (hd : peDue s p false = some n)
    (hh : s.pes[p].hold = 0) (hw : peWord s p n = some (w, i)) (hl : peLegal w = false) :
    pewterStep p (fun w => !peLegal w) s =
      peStop (updPe s p (fun e => { e with inj := if i && e.ir.isNone then none else e.inj })) p 0x200 := by
  simp only [pewterStep, hd, hh, hw, hl, ne_eq, not_true_eq_false, Bool.not_false, Bool.false_eq_true, if_false, if_true]

theorem stepInjected_executes (s : State) (p : Fin 32) (t : Nat) (w : PewterWord) (hi : s.pes[p].inj = some (t, w))
    (ht : t + 1 = s.time.tick) (he : peEn s p = false) (hon : pewtersOn s = true) (hm : peLutMode s p = false)
    (hir : s.pes[p].ir = none) (hl : peLegal w = true) :
    stepInjected p s = updPe (peStep (updPe s p (fun k => { k with inj := none })) p s.time.tick w true) p
      (fun k => { k with hold := s.pes[p].hold }) := by
  simp only [stepInjected, hi]
  rw [if_pos ⟨ht, he, hon, hm, hir⟩, if_pos hl]

/-! ### Writes of PE_CTRL (R200, R213) -/

/-- R9: PE_CTRL acts as its engine says, and requesters keep what they hold. -/
theorem acts_peCtrl (z : State) (req : Requester) (p : Fin 32) (low v : Word) :
    Acts z req low (.pewter p 0x00) v = (writePeCtrl z p v).1 := by
  refine acts_of_writePlace z _ req low (.pewter p 0x00) _ v .ok rfl rfl ?_ ?_
  · unfold writePeCtrl
    dsimp only
    split_ifs <;> rfl
  · unfold writePeCtrl
    dsimp only
    split_ifs <;> rfl

theorem writePeCtrl_restarts (z : State) (p : Fin 32) (v : Word) (h : bit v 1 = true) :
    (writePeCtrl z p v).1 = pewterRestart (setReg z (.pewter p 0x00) (v &&& 1)) p := by
  simp only [writePeCtrl, h, if_true]

theorem writePeCtrl_enables (z : State) (p : Fin 32) (v : Word) (h0 : bit v 0 = true) (h1 : bit v 1 = false)
    (he : peEn z p = false) : (writePeCtrl z p v).1 = updPe (setReg z (.pewter p 0x00) (v &&& 1)) p (fun e =>
      { e with acc := 0, nextStep := some (z.time.tick + 2) }) := by
  simp only [writePeCtrl, h0, h1, he, Bool.not_true, Bool.false_eq_true, if_false]

theorem writePeCtrl_disables (z : State) (p : Fin 32) (v : Word) (h0 : bit v 0 = false) (h1 : bit v 1 = false) :
    (writePeCtrl z p v).1 = updPe (setReg z (.pewter p 0x00) (v &&& 1)) p (fun e => { e with nextStep := none }) := by
  simp only [writePeCtrl, h0, h1, Bool.not_false, Bool.false_eq_true, if_false, if_true]

theorem pewterRestart_out (s : State) (p : Fin 32) : (pewterRestart s p).pes[p].out = s.pes[p].out := by
  simp only [pewterRestart, updPe_at, setWork_pes]

/-- R208: a write of PE_CTRL keeps the output bits. -/
theorem writePeCtrl_out (s : State) (p : Fin 32) (v : Word) : (writePeCtrl s p v).1.pes[p].out = s.pes[p].out := by
  unfold writePeCtrl
  dsimp only
  split_ifs
  · exact pewterRestart_out ..
  · rw [updPe_at, setReg_pes]
  · rfl
  · rw [updPe_at, setReg_pes]

/-- R208: an engine that stops keeps its output bits. -/
theorem peStop_out (s : State) (p : Fin 32) (flag : Nat) : (peStop s p flag).pes[p].out = s.pes[p].out := by
  rw [peStop, updPe_at, orReg_pes, clrReg_pes]

/-! ### RESTART (R213) -/

/-- A stored parameter keeps its value where another is stored. -/
theorem reg_setReg_other (s : State) (l m : PLoc) (v : Word) (hne : paOf m ≠ paOf l)
    (h : Memory.wf regReset s.par.reg = true) : reg (setReg s l v) m = reg s m := memGet_put_other regReset _ _ _ _ hne h

theorem paOf_pewter_ne (p : Fin 32) (o k : Nat) (h : o ≠ k) : paOf (.pewter p o) ≠ paOf (.pewter p k) := by
  simp only [paOf]
  omega

/-- R213: a stored PE_CTRL.EN is what its write gave. -/
theorem peEn_setReg (s : State) (p : Fin 32) (v : Word) (h : Memory.wf regReset s.par.reg = true) :
    peEn (setReg s (.pewter p 0x00) (v &&& 1)) p = bit v 0 := by
  rw [peEn, regBit, reg_setReg s _ _ h]
  simp [bit]

theorem fld_lt {n : Nat} (w : BitVec n) (hi lo : Nat) : fld w hi lo < 2 ^ (hi - lo + 1) := Nat.mod_lt _ (Nat.two_pow_pos _)

theorem toNat_ofNat_fld {n : Nat} (w : BitVec n) (hi lo k : Nat) (h : hi - lo + 1 = k) :
    (BitVec.ofNat k (fld w hi lo)).toNat = fld w hi lo := by
  subst h
  rw [BitVec.toNat_ofNat, Nat.mod_eq_of_lt (fld_lt w hi lo)]

/-! ### Injected words, FIFOs and stores (R199, R209, R211, R214) -/

theorem injectPewter_free (s : State) (p : Fin 32) (w : PewterWord) (h : s.pes[p].inj = none) :
    injectPewter s p w = (updPe s p (fun k => { k with inj := some (s.time.tick, w) }), .ok) := by
  rw [injectPewter, h]
  rfl

theorem injectPewter_pending (s : State) (p : Fin 32) (w : PewterWord) (h : s.pes[p].inj.isSome = true) :
    injectPewter s p w = (s, .targetBusy) := if_pos h

theorem writePeTxdata_room (s : State) (p : Fin 32) (v : Word) (h : s.pes[p].tx.length + txOwed s p < 4) :
    writePeTxdata s p v = (updPe s p (fun e => { e with tx := e.tx ++ [v] }), .ok) := if_neg (Nat.not_le.mpr h)

/-- R199: a host takes the word of an earlier tick at the head where no channel has the FIFO and the sequencer pops nothing. -/
theorem readPeRxdata_head (s : State) (p : Fin 32) (t : Nat) (h : Word) (l : List (Nat × Word))
    (hs : (serialChans s p).isEmpty = true) (hp : rxPops s p = 0) (hr : s.pes[p].rx = (t, h) :: l) (ht : t < s.time.tick) :
    readPeRxdata s p = (h, updPe s p (fun e => { e with rx := l })) := by
  have hq : rxPlace s p = some (0, h) := by simp only [rxPlace, hp, hr, List.getElem?_cons_zero, if_pos ht]
  have hu : updPe s p (fun e => { e with rx := e.rx.eraseIdx 0 }) = updPe s p (fun e => { e with rx := l }) := by
    simp only [updPe, hr, List.eraseIdx_cons_zero]
  simp only [readPeRxdata, hs, hq, hu, Bool.not_true, Bool.false_eq_true, if_false]

theorem writePeProg_ok (s : State) (who : Requester) (p : Fin 32) (v : Word) : (writePeProg s who p v).2 = .ok := rfl

/-- R209: a write of PE_PROG with WR stores its word. -/
theorem writePeProg_stores (s : State) (who : Requester) (p : Fin 32) (v : Word) (h : bit v 23 = true) :
    (writePeProg s who p v).1 = setPeStore (setSel s who (.pewter p 0x11) (v &&& 0x3F0000)) p (fld v 21 16) (v.setWidth 16) := by
  simp only [writePeProg, h, if_true]

/-- R209: a stored word does not depend on what requesters hold. -/
theorem setPeStore_setSel_mem (s : State) (who : Requester) (l : PLoc) (u : Word) (p : Fin 32) (a : Nat) (v : PewterWord) :
    (setPeStore (setSel s who l u) p a v).mem = (setPeStore s p a v).mem := rfl

theorem writePeLut_stores (s : State) (who : Requester) (p : Fin 32) (v : Word) (he : peEn s p = false) (h : bit v 15 = true) :
    writePeLut s who p v = ({ setSel s who (.pewter p 0x12) (v &&& 0xFF0000) with
      mem := { (setSel s who (.pewter p 0x12) (v &&& 0xFF0000)).mem with
        lut := memPut (zeroMem 8) s.mem.lut (p.val * 256 + fld v 23 16) (v.setWidth 8) } }, .ok) := by
  simp only [writePeLut, he, h, Bool.false_eq_true, if_false, if_true]
  rfl

/-! ### The commands on engines (R209, R211, R214) -/

theorem cmdLoadPewter_beyond (e : Entry) (buf : Buf) (s : State) (h : 64 < fld e.a1 5 0 + fld e.a2 6 0) :
    cmdLoadPewter e buf s = ends s .addrInvalid := if_pos h

theorem cmdLoadPewter_stores (e : Entry) (buf : Buf) (bs : List Byte) (s x : State) (h : fld e.a1 5 0 + fld e.a2 6 0 ≤ 64)
    (hb : readBuffer s e 3 (2 * fld e.a2 6 0) buf = (some bs, x)) : cmdLoadPewter e buf s =
      ends (storePewter x (Fin.ofNat 32 (4 * fld e.a0 2 0)) (fld e.a1 5 0) bs) .ok := by
  simp only [cmdLoadPewter, if_neg (Nat.not_lt.mpr h), hb]

theorem cmdLoadPewter_unread (e : Entry) (buf : Buf) (s x : State) (h : fld e.a1 5 0 + fld e.a2 6 0 ≤ 64)
    (hb : readBuffer s e 3 (2 * fld e.a2 6 0) buf = (none, x)) : cmdLoadPewter e buf s = ends x .dmaError := by
  simp only [cmdLoadPewter, if_neg (Nat.not_lt.mpr h), hb]

theorem cmdLoadLut_enabled (e : Entry) (buf : Buf) (s : State) (h : peEn s (Fin.ofNat 32 (fld e.a0 4 0)) = true) :
    cmdLoadLut e buf s = ends s .staticLocked := if_pos h

theorem cmdLoadLut_stores (e : Entry) (buf : Buf) (bs : List Byte) (s x : State)
    (h : peEn s (Fin.ofNat 32 (fld e.a0 4 0)) = false) (hb : readBuffer s e 1 256 buf = (some bs, x)) :
    cmdLoadLut e buf s = ends (storeLut x (Fin.ofNat 32 (fld e.a0 4 0)) 0 bs) .ok := by
  simp only [cmdLoadLut, h, hb, Bool.false_eq_true, if_false]

theorem cmdLoadLut_unread (e : Entry) (buf : Buf) (s x : State) (h : peEn s (Fin.ofNat 32 (fld e.a0 4 0)) = false)
    (hb : readBuffer s e 1 256 buf = (none, x)) : cmdLoadLut e buf s = ends x .dmaError := by
  simp only [cmdLoadLut, h, hb, Bool.false_eq_true, if_false]

end Sys2Proof.Machine
end

section
/-!
PROOFS. The obligations of 07_pewter_engines.md.
-/
namespace Sys2Proof.Machine

/-- Settles O26: a step that is due tries its word, and each word that does not stall leaves its own state, output bits and jump. -/
theorem pewterWordsComplete : Obligations.PewterWordsComplete := by
  unfold Obligations.PewterWordsComplete
  refine ⟨?_, ?_, ?_, ?_, ?_, ?_, ?_, ?_, ?_, ?_, ?_, ?_, ?_, ?_⟩
  · exact fun p n w i z s h => pewterStep_ends s p 0 n w i z _ _ _ h (peTry_nop z p n w h.fld_op)
  · exact fun p n w i z s h => pewterStep_ends s p 1 n w i z _ _ _ h (peTry_set z p n w h.fld_op)
  · exact fun p n w i z v s h hv hd => pewterStep_ends s p 2 n w i z _ _ _ h (peTry_mov z p n w v h.fld_op hv hd)
  · exact fun p n w i z v s h hv hd => pewterStep_ends s p 2 n w i z _ _ _ h (peTry_mov_pc z p n w v h.fld_op hv hd)
  · exact fun p n w i z s h hc => pewterStep_ends s p 3 n w i z _ _ _ h (peTry_jmp_always z p n w h.fld_op hc)
  · exact fun p n w i z s h hc => pewterStep_ends s p 3 n w i z _ _ _ h (peTry_jmp_xloop z p n w h.fld_op hc)
  · exact fun p n w i z s h hc => pewterStep_ends s p 3 n w i z _ _ _ h (peTry_jmp_yloop z p n w h.fld_op hc)
  · rintro p n w i z b s h hc rfl
    exact pewterStep_ends s p 3 n w i z _ _ _ h (peTry_jmp_test z p n w h.fld_op hc)
  · rintro p n w i z f s h rfl hw
    exact pewterStep_ends s p 4 n w i z _ _ _ h (peTry_wait z p n w h.fld_op hw)
  · rintro p n w i z y x v s h hr hy rfl hx
    exact pewterStep_ends s p 5 n w i z _ _ _ h (peTry_in z y x p n w h.fld_op hr hy hx)
  · exact fun p n w i z y s h hr hy hd hroom =>
      pewterStep_ends s p 6 n w i z _ _ _ h (peTry_push z y p n w h.fld_op hr hy hd hroom)
  · exact fun p n w i z y x v c s h hr hy hv hc hx =>
      pewterStep_ends s p 7 n w i z _ _ _ h (peTry_out z y x p n w v c h.fld_op hr hy hv hc hx)
  · exact fun p n w i z y hd l s h hr hy hdone ht =>
      pewterStep_ends s p 8 n w i z _ _ _ h (peTry_pull z y p n w hd l h.fld_op hr hy hdone ht)
  · exact fun p n w i z s h hr => pewterStep_ends s p 9 n w i z _ _ _ h (peTry_irq z p n w h.fld_op hr)

/-- Settles O37: the side field is applied last, new output bits go to the balls 3 ticks later, and no stop of an engine touches its
output bits. -/
theorem sideFieldPrevails : Obligations.SideFieldPrevails := by
  unfold Obligations.SideFieldPrevails
  refine ⟨?_, ?_, ?_, writePeCtrl_out, peStop_out⟩
  · intro s z y p op n w i o t _ ht j hj
    rw [peStep_out z y p n w i o t ht, sideOut_bit y p w o j hj]
  · intro s p n o h
    rw [setOuts_at s p n o h]
    exact ⟨rfl, rfl, rfl⟩
  · intro p
    simp [State.reset, pewterReset]

/-- Settles O38: the write waits for the end of its tick, and its engine then starts clean. -/
theorem restartClears : Obligations.RestartClears := by
  unfold Obligations.RestartClears
  refine ⟨?_, ?_⟩
  · exact fun req p v s h => run_rowWrite_waits req (.pewter p 0x00) _ (v ||| 2) s (show _ < 0x40 by decide) h rfl rfl rfl
  · intro req p low v s hw h0 h1
    refine ⟨_, (acts_peCtrl s req p low v).trans (writePeCtrl_restarts s p v h1), ?_⟩
    have hreg (o : Nat) (ho : o ≠ 0) : reg (setReg s (.pewter p 0x00) (v &&& 1)) (.pewter p o) = reg s (.pewter p o) :=
      reg_setReg_other s _ _ _ (paOf_pewter_ne p o 0 ho) hw
    have hlim : outLimit (setReg s (.pewter p 0x00) (v &&& 1)) p = outLimit s p := by
      rw [outLimit, outLimit, regFld, regFld, hreg 0x02 (by decide)]
    have hen : peEn (setReg s (.pewter p 0x00) (v &&& 1)) p = true := (peEn_setReg s p v hw).trans h0
    simp only [pewterRestart, updPe_at, setWork_pes, setReg_pes, hreg 0x03 (by decide), hreg 0x07 (by decide), hlim, hen, if_true,
      true_and]
    refine ⟨fun k => ?_, toNat_ofNat_fld _ 5 0 6 rfl, rfl, fun q hq => updPe_other _ p q _ hq, by simp [SameUnits], rfl⟩
    rw [Fin.getElem_fin, Vector.getElem_ofFn, toNat_ofNat_fld _ _ _ 6 (by omega)]

/-- Settles O11: each command is its check, the buffer where it takes one, and what it stores or places. -/
theorem engineCommandsComplete : Obligations.EngineCommandsComplete := by
  unfold Obligations.EngineCommandsComplete
  refine ⟨?_, ?_, ?_, ?_, ?_, ?_, ?_, ?_⟩
  · exact fun e buf s z h hn => cmdRun_ends _ 0x50 e (cmdLoadPewter e buf) s z _ _ _ h (cmdLoadPewter_beyond e buf z hn)
  · exact fun e buf bs x s z h hn hb =>
      cmdRun_ends _ 0x50 e (cmdLoadPewter e buf) s z _ _ _ h (cmdLoadPewter_stores e buf bs z x hn hb)
  · exact fun e buf x s z h hn hb =>
      cmdRun_ends _ 0x50 e (cmdLoadPewter e buf) s z _ _ _ h (cmdLoadPewter_unread e buf z x hn hb)
  · rintro e p s z h rfl hi
    exact cmdRun_ends _ 0x51 e (cmdInjectPewter e) s z _ _ _ h (congrArg endsAs (injectPewter_pending z _ _ hi))
  · rintro e p s z h rfl hi
    exact cmdRun_ends _ 0x51 e (cmdInjectPewter e) s z _ _ _ h (congrArg endsAs (injectPewter_free z _ _ hi))
  · exact fun e buf s z h he => cmdRun_ends _ 0x52 e (cmdLoadLut e buf) s z _ _ _ h (cmdLoadLut_enabled e buf z he)
  · exact fun e buf bs x s z h he hb =>
      cmdRun_ends _ 0x52 e (cmdLoadLut e buf) s z _ _ _ h (cmdLoadLut_stores e buf bs z x he hb)
  · exact fun e buf x s z h he hb => cmdRun_ends _ 0x52 e (cmdLoadLut e buf) s z _ _ _ h (cmdLoadLut_unread e buf z x he hb)

/-- Settles O27: each row is a step of its engine under the conditions that let it happen, its parameter access, or its write as it
acts. -/
theorem pewterRowsComplete : Obligations.PewterRowsComplete := by
  unfold Obligations.PewterRowsComplete
  refine ⟨?_, ?_, ?_, ?_, ?_, ?_, ?_, ?_, fun p t w s => stepInjected_executes s p t w, ?_, ?_, ?_, ?_, ?_, ?_, ?_⟩
  · intro p n s hd hh
    show run (doPewterHold p) s = _
    rw [run, doPewterHold_due s p n hd hh]
  · intro p n v s hd hv
    show run (doLutStep p) s = _
    rw [run, doLutStep_due s p n v hd hv]
  · exact fun req p v s ha => run_rowWrite_waits req (.pewter p 0x00) _ (v ||| 2) s (show _ < 0x40 by decide) ha rfl rfl rfl
  · intro req p low v z h1
    rw [acts_peCtrl, writePeCtrl_restarts z p v h1]
  · exact fun req p v s ha => run_rowWrite_waits req (.pewter p 0x00) _ v s (show _ < 0x40 by decide) ha rfl rfl rfl
  · intro req p low v z h0 h1 he
    rw [acts_peCtrl, writePeCtrl_enables z p v h0 h1 he]
  · intro req p low v z h0 h1
    rw [acts_peCtrl, writePeCtrl_disables z p v h0 h1]
  · exact fun req p v s ha hi => run_rowWrite_now req (.pewter p 0x08) _ v s _ (show _ < 0x40 by decide) ha rfl rfl
      (injectPewter_free s p _ hi)
  · exact fun req p v s ha hr => run_rowWrite_waits req (.pewter p 0x10) _ v s (show _ < 0x40 by decide) ha rfl rfl
      (congrArg Prod.snd (writePeTxdata_room (lateView s) p v hr))
  · exact fun req p low v z hr =>
      acts_of_writePlace z _ req low (.pewter p 0x10) _ v _ rfl (writePeTxdata_room z p v hr) rfl rfl
  · intro req p t h l s hr hc hs hp hx ht
    refine (run_rowRead req (.pewter p 0x0F) _ s (show _ < 0x40 by decide) hr hc rfl rfl rfl).trans ?_
    rw [show readPlace s req (.pewter p 0x0F) = readPeRxdata s p from rfl, readPeRxdata_head s p t h l hs hp hx ht]
  · exact fun req p v s ha => ⟨run_rowWrite_waits req (.pewter p 0x11) _ v s (show _ < 0x40 by decide) ha rfl rfl
      (writePeProg_ok (lateView s) req p v), rfl⟩
  · intro req p low v z h
    rw [acts_eq z _ req low (.pewter p 0x11) _ v .ok rfl (Prod.ext (writePeProg_stores z req p v h) (writePeProg_ok z req p v))]
    exact setPeStore_setSel_mem ..
  · exact fun req p v s ha he h => run_rowWrite_now req (.pewter p 0x12) _ v s _ (show _ < 0x40 by decide) ha rfl rfl
      (writePeLut_stores s req p v he h)
  · intro p n w i s hd hh hw hl
    show run (pewterStep p (fun w => !peLegal w)) s = _
    rw [run, pewterStep_illegal s p n w i hd hh hw hl]

end Sys2Proof.Machine
end

section
/-!
SUPPORT. What 08_analogue_front_end.md comes to in the model: triggers and conversions of the sequencers, words of their lists,
readings of the window comparators, thresholds and their order, and the setting that a write of ZIO_CFG keeps.
-/
namespace Sys2Proof.Machine

/-! ### Rows that only commit (R9, R298) -/

/-- R298: of the units and memories the note of an access changes nothing: it is the host's log, flags and bus, and a free
value. -/
theorem logAccess_frame (s : State) (who : Requester) (pa access : Nat) (t : Status) : ∃ n fresh host,
    logAccess s who pa access t = { s with freshN := n, par := { s.par with fresh := fresh }, host := host } := by
  unfold logAccess
  split
  · exact ⟨_, _, _, rfl⟩
  · cases who <;> (dsimp only; rw [violation_frame]; exact ⟨_, _, _, rfl⟩)

/-- R9: a class L write, taken or refused, changes in its tick nothing but what waits, where its commit moves no word that its
requester holds. -/
theorem writeParam_only_waits (s : State) (who : Requester) (l : PLoc) (i : PInfo) (v : Word) (h : l.inArea)
    (hi : paramInfo l = some i) (ha : atOnce l i = false) (hh : ∀ low, sendHeld s who l low v = s) :
    ∃ a, (writeParam s who (paOf l) v).1 = { s with agenda := a } := by
  unfold writeParam
  simp only [locate_paOf l h, hi]
  split
  · exact ⟨s.agenda, rfl⟩
  · simp only [sendWrite, ha, Bool.false_eq_true, if_false, hh]
    split
    · exact ⟨s.agenda, rfl⟩
    · exact ⟨_, rfl⟩

/-- R9, R298: a row that is such a write changes what waits and what notes a refusal. -/
theorem rowWrite_only_waits (s : State) (who : Requester) (l : PLoc) (i : PInfo) (v : Word) (h : l.inArea)
    (hi : paramInfo l = some i) (ha : atOnce l i = false) (hh : ∀ low, sendHeld s who l low v = s) : ∃ a n fresh host,
      rowWrite who l v s = { s with agenda := a, freshN := n, par := { s.par with fresh := fresh }, host := host } := by
  unfold rowWrite
  split
  · obtain ⟨a, hw⟩ := writeParam_only_waits s who l i v h hi ha hh
    obtain ⟨n, fresh, host, hl⟩ := logAccess_frame { s with agenda := a } who (paOf l) 1 (writeParam s who (paOf l) v).2
    refine ⟨a, n, fresh, host, ?_⟩
    dsimp only
    rw [hw, hl]
  · exact ⟨_, _, _, _, rfl⟩

/-- R10: an accepted write has a value inside its range. -/
theorem Accepts.value {s : State} {who : Requester} {l : PLoc} {v : Word} (h : Accepts s who l v) :
    valueBad (lateView s) l v = false := by
  obtain ⟨-, i, -, hr⟩ := h
  unfold writeRefused at hr
  split_ifs at hr with _ hv
  exact Bool.eq_false_iff.mpr hv

/-! ### Sequencers: triggers and conversions (R220, R226, R228) -/

theorem updSeq_at (s : State) (r : Fin 4) (f : Sequencer → Sequencer) : (updSeq s r f).seqs[r] = f s.seqs[r] := by simp [updSeq]

theorem updSeq_of_fixed (s : State) (r : Fin 4) (f : Sequencer → Sequencer) (h : f s.seqs[r] = s.seqs[r]) :
    updSeq s r f = s := by
  have hs : s.seqs.set r s.seqs[r] = s.seqs := by simp
  rw [updSeq, h, hs]

/-- R226: SQ_SWTRIG of an enabled HOST entry. -/
theorem writeSqSwtrig_triggers (s : State) (r : Fin 4) (v : Word) (he : sqEn s r (Fin.ofNat 64 (fld v 5 0)) = true)
    (hk : fld (sqWord s r (Fin.ofNat 64 (fld v 5 0)) 0) 22 20 = 0) :
    writeSqSwtrig s r v = (sqTrigger s r (Fin.ofNat 64 (fld v 5 0)) (s.time.tick + 1) false, .ok) := by
  simp only [writeSqSwtrig, he, hk, decide_true, Bool.and_self, if_true]

/-- R228: what waits of a sequencer in the present tick: triggers whose instant has come convert nothing where they name no
usable converter. -/
def pendKept (s : State) (r : Fin 4) : State :=
  updSeq s r (fun q => { q with pend := q.pend.filter (fun t => decide (s.time.tick < t.at_) || !(usable s r t.entry).isEmpty) })

/-- R220: the converters of a trigger sample the inputs they select, in one tick. -/
def sampleAll (s z : State) (r : Fin 4) (t : Trigger) : State :=
  (usable z r t.entry).foldl (fun x a => updAdc x a (fun v =>
    { v with freeAt := s.time.tick + 80, flight := v.flight ++ [⟨s.time.tick, now s, reg s (.adc a 0x0),
      some (t.entry, s.seqs[r].counts[t.entry], Fin.ofNat 16 (fld (sqWord s r t.entry 2) 15 12)),
      decide (t.at_ < s.time.tick), t.jump⟩] })) (updSeq z r (fun q =>
        { q with pend := q.pend.erase t, lastEntry := t.entry, lastT := now s }))

/-- R228, R241: the counts of a trigger's wait. -/
def waitNoted (s y : State) (r : Fin 4) (t : Trigger) : State :=
  noteMaxWait (if t.at_ < s.time.tick then bump y (.seqr r 0x6) 23 0 1 else y) r (s.time.tick - t.at_)

/-- R220, R228: the first trigger that can start starts. -/
theorem doConversionStart_samples (s : State) (r : Fin 4) (t : Trigger) (hon : adcOn s = true)
    (ht : firstReady (pendKept s r) r [] (pendKept s r).seqs[r].pend = some t) :
    doConversionStart r s = waitNoted s (sampleAll s (pendKept s r) r t) r t := by
  have hc : (pendKept s r).seqs[r].counts = s.seqs[r].counts := by rw [pendKept, updSeq_at]
  unfold doConversionStart
  rw [if_neg (by simp [hon]), ← pendKept]
  simp only [ht, hc, decide_eq_true_eq]
  rfl

/-- R228: a trigger that waits alone and names usable converters waits on. -/
theorem pendKept_single (s : State) (r : Fin 4) (t : Trigger) (hp : s.seqs[r].pend = [t]) (hu : usable s r t.entry ≠ []) :
    pendKept s r = s := by
  have hf : (s.seqs[r].pend.filter (fun t => decide (s.time.tick < t.at_) || !(usable s r t.entry).isEmpty)) = s.seqs[r].pend := by
    rw [hp]
    simp [hu]
  exact updSeq_of_fixed s r _ (by simp only [hf])

/-- R228: a trigger that waits alone starts at its instant where its converters are free. -/
theorem firstReady_single (s : State) (r : Fin 4) (t : Trigger) (ht : t.at_ ≤ s.time.tick)
    (hf : ∀ a ∈ usable s r t.entry, s.adcs[a].freeAt ≤ s.time.tick) : firstReady s r [] [t] = some t := by
  have hall : (usable s r t.entry).all (fun a => decide (s.adcs[a].freeAt ≤ s.time.tick) &&
      !([] : List (Fin 32)).contains a) = true :=
    List.all_eq_true.mpr fun a ha => by simpa using hf a ha
  simp only [firstReady, ht, decide_true, hall, Bool.and_self, if_true]

/-- The pending triggers of a sequencer with the one trigger that waits taken out. -/
theorem updSeq_erase_single (s : State) (r : Fin 4) (t : Trigger) (hp : s.seqs[r].pend = [t]) (n : Time) :
    updSeq s r (fun q => { q with pend := q.pend.erase t, lastEntry := t.entry, lastT := n }) =
      updSeq s r (fun q => { q with pend := [], lastEntry := t.entry, lastT := n }) := by
  simp only [updSeq, hp, List.erase_cons_head]

/-! ### Sequencers: words of the list (R224, R225, R227, R229) -/

/-- R227: the cycle in which an enabled ANGLE entry with the word `v` is to match. -/
def entryTarget (s : State) (r : Fin 4) (e : Fin 64) (v : Word) : Word :=
  if (leafAngle s (Fin.ofNat 16 (fld v 19 16))).toNat < (sqWord s r e 1).toNat
  then s.doms[(Fin.ofNat 16 (fld v 19 16) : Fin 16)].leafCycle
  else s.doms[(Fin.ofNat 16 (fld v 19 16) : Fin 16)].leafCycle + 1

/-- R225: a word that is not an entry's first is stored while its entry is disabled. -/
theorem writeSqListData_word (s : State) (who : Requester) (r : Fin 4) (a v : Word) (h0 : fld a 1 0 ≠ 0) (h3 : fld a 1 0 ≠ 3)
    (he : sqEn s r (Fin.ofNat 64 (fld a 7 2)) = false) : writeSqListData s who r a v =
      (setSel (setSqWord s r (Fin.ofNat 64 (fld a 7 2)) (fld a 1 0) v) who (.seqr r 0x1) (sqNextAddr a), .ok) := by
  simp only [writeSqListData, h0, h3, he, decide_false, Bool.false_and, Bool.false_eq_true, if_false]

/-- R229: a first word that disables its entry discards what waits of it. -/
theorem writeSqListData_disables (s : State) (who : Requester) (r : Fin 4) (a v : Word) (h0 : fld a 1 0 = 0)
    (hv : bit v 23 = false) : writeSqListData s who r a v =
      (setSel (sqDiscard (setSqWord s r (Fin.ofNat 64 (fld a 7 2)) 0 v) r
        (fun t => decide (t.entry = Fin.ofNat 64 (fld a 7 2)))) who (.seqr r 0x1) (sqNextAddr a), .ok) := by
  simp only [writeSqListData, h0, hv, OfNat.zero_ne_ofNat, decide_true, Bool.not_false, Bool.and_self, Bool.not_true,
    Bool.and_false, Bool.false_eq_true, if_false, if_true]

/-- R227: a first word that enables its entry gives it its target cycle. -/
theorem writeSqListData_enables (s : State) (who : Requester) (r : Fin 4) (a v : Word) (h0 : fld a 1 0 = 0)
    (he : sqEn s r (Fin.ofNat 64 (fld a 7 2)) = false) (hv : bit v 23 = true)
    (hb : sqEntryBad s v (sqWord s r (Fin.ofNat 64 (fld a 7 2)) 1) (sqWord s r (Fin.ofNat 64 (fld a 7 2)) 2) = false) :
    writeSqListData s who r a v =
      (setSel (updSeq (setSqWord s r (Fin.ofNat 64 (fld a 7 2)) 0 v) r (fun q => { q with
        target := q.target.set (Fin.ofNat 64 (fld a 7 2)) (entryTarget s r (Fin.ofNat 64 (fld a 7 2)) v) }))
          who (.seqr r 0x1) (sqNextAddr a), .ok) := by
  simp only [writeSqListData, h0, hv, he, hb, OfNat.zero_ne_ofNat, decide_true, Bool.not_true, Bool.and_false, Bool.and_self,
    Bool.false_eq_true, if_false, if_true]
  rfl

/-- R225: the list takes a word of a disabled entry, and a first word that disables its entry; a word that enables its entry has
to be a right one. -/
theorem writeSqListData_ok (s : State) (who : Requester) (r : Fin 4) (a v : Word) (h3 : fld a 1 0 ≠ 3)
    (h : (sqEn s r (Fin.ofNat 64 (fld a 7 2)) = false ∧ (fld a 1 0 ≠ 0 ∨ bit v 23 = false ∨
        sqEntryBad s v (sqWord s r (Fin.ofNat 64 (fld a 7 2)) 1) (sqWord s r (Fin.ofNat 64 (fld a 7 2)) 2) = false)) ∨
      (fld a 1 0 = 0 ∧ bit v 23 = false)) : (writeSqListData s who r a v).2 = .ok := by
  by_cases h0 : fld a 1 0 = 0
  · cases hv : bit v 23 with
    | false => rw [writeSqListData_disables s who r a v h0 hv]
    | true =>
      obtain ⟨he, hb⟩ := h.resolve_right (by simp [hv])
      rw [writeSqListData_enables s who r a v h0 he hv (by simpa [h0, hv] using hb)]
  · obtain ⟨he, -⟩ := h.resolve_right (by simp [h0])
    rw [writeSqListData_word s who r a v h0 h3 he]

/-- R225: as its list word acts, a sequencer stores it; the list address moved with the commit. -/
theorem acts_sqListData (z y : State) (req : Requester) (r : Fin 4) (a v u : Word)
    (hw : writeSqListData z req r a v = (setSel y req (.seqr r 0x1) u, .ok)) (hl : y.par.lows = z.par.lows)
    (hs : y.par.sels = z.par.sels) : Acts z req a (.seqr r 0x2) v = y := by
  rw [acts_eq z _ req a (.seqr r 0x2) _ v .ok rfl hw, ← hl, ← hs]
  rfl

theorem writeSqCtrl_eq (s : State) (r : Fin 4) (v : Word) : writeSqCtrl s r v =
    (if bit v 0 then setReg s (.seqr r 0x0) (v &&& 1) else sqDiscard (setReg s (.seqr r 0x0) (v &&& 1)) r (fun _ => true), .ok) := by
  unfold writeSqCtrl
  dsimp only
  split <;> rfl

/-! ### Results (R219 to R222) -/

/-- R221: the result word of a sample at the voltages of its balls. -/
def sampleWord (a : Fin 32) (vp vn : Int) (x : Sample) : Word :=
  resultWord x.late x.jump ((regionOfAdc a).val * 24 + fld x.cfg 4 0) (adcCode (if fld x.cfg 12 8 = 0x1F then vp else vp - vn))

/-- R222: the oldest sample on its way gives its result. -/
def resultGiven (s : State) (a : Fin 32) (vp vn : Int) (x : Sample) (l : List Sample) : State :=
  deliverResult (updAdc s a (fun v => { v with flight := l })) a x.t (sampleWord a vp vn x)

/-- R219: 72 ticks after its sample instant a conversion gives its result, with a record where its entry asks. -/
theorem doConversionResult_due (s : State) (a : Fin 32) (vp vn : Int) (x : Sample) (l : List Sample)
    (hf : s.adcs[a].flight = x :: l) (hon : adcOn s = true) (ht : x.at_ + 72 ≤ s.time.tick) :
    doConversionResult a vp vn s = match x.src with
      | none => resultGiven s a vp vn x l
      | some (e, n, g) => if bit (sqWord s (regionOfAdc a) e 2) 11 then
          emitRegion (resultGiven s a vp vn x l) (regionOfAdc a) g.val (x.at_ + 72)
            ⟨0x50, BitVec.ofNat 16 a.val, x.t, sampleWord a vp vn x, word (e.val * 2 ^ 18 + n.toNat)⟩
        else resultGiven s a vp vn x l := by
  have hd : decide (s.time.tick < x.at_ + 72) = false := decide_eq_false (Nat.not_lt.mpr ht)
  simp only [doConversionResult, hf, hon, hd, Bool.not_true, Bool.or_self, Bool.false_eq_true, if_false]
  rfl

/-! ### Window comparators (R230, R232, R233) -/

theorem doRawZoneChange_ready (s : State) (w : Fin 64) (uV : Int) (h : compReady s w = true) :
    doRawZoneChange w uV s = setZone (judge s w uV) w
      (if regFld s (.comp w 0x4) 7 4 = 0 then rawZone (judge s w uV).comps[w] else (judge s w uV).comps[w].zone)
      s.comps[w].unresolved := by
  simp only [doRawZoneChange, h, Bool.not_true, Bool.false_eq_true, if_false]

/-- R232: the filter's samples with the present one. -/
def sampled (s : State) (w : Fin 64) (uV : Int) : State :=
  updComp (judge s w uV) w (fun c => { c with samples := (rawZone c :: c.samples).take (regFld s (.comp w 0x4) 7 4) })

/-- R232: how many of the filter's samples are a zone. -/
def sampleCount (s : State) (w : Fin 64) (z : Zone) : Nat := (s.comps[w].samples.filter (fun y => decide (y = z))).length

theorem doFilterSample_due (s : State) (w : Fin 64) (uV : Int) (hr : compReady s w = true)
    (hn : regFld s (.comp w 0x4) 7 4 ≠ 0) (hf : filterTick s w = true) :
    doFilterSample w uV s = setZone (sampled s w uV) w
      (if regFld s (.comp w 0x4) 3 0 ≤ sampleCount (sampled s w uV) w .inside then .inside
        else if regFld s (.comp w 0x4) 3 0 ≤ sampleCount (sampled s w uV) w .above then .above
        else if regFld s (.comp w 0x4) 3 0 ≤ sampleCount (sampled s w uV) w .below then .below
        else (sampled s w uV).comps[w].zone) s.comps[w].unresolved := by
  simp only [doFilterSample, hr, hn, hf, decide_false, Bool.not_true, Bool.or_self, Bool.false_eq_true, if_false]
  rfl

theorem doSettlingEnd_due (s : State) (w : Fin 64) (t : Nat) (hs : s.comps[w].settleEnd = some t) (ha : alive s = true)
    (ht : t ≤ s.time.tick) : doSettlingEnd w s = updComp s w (fun c => { c with settleEnd := none, settled := t }) := by
  simp only [doSettlingEnd, hs, ha, ht, decide_true, Bool.and_self, if_true]

theorem writeWcCtrl_enables (s : State) (w : Fin 64) (v : Word) (hv : bit v 0 = true) (he : regBit s (.comp w 0x0) 0 = false) :
    writeWcCtrl s w v = (inTick (setReg s (.comp w 0x0) (v &&& 1)) 1 (preload w), .ok) := by
  simp only [writeWcCtrl, hv, he, Bool.false_eq_true, if_false, if_true]

theorem writeWcCtrl_disables (s : State) (w : Fin 64) (v : Word) (hv : bit v 0 = false) : writeWcCtrl s w v =
    (updComp (setTrip w false (setReg s (.comp w 0x0) (v &&& 1))) w (fun c => { c with settleEnd := none, unresolved := false }),
      .ok) := by
  simp only [writeWcCtrl, hv, Bool.false_eq_true, if_false]

theorem writeWcCtrl_ok (s : State) (w : Fin 64) (v : Word) : (writeWcCtrl s w v).2 = .ok := by
  unfold writeWcCtrl
  dsimp only
  split <;> rfl

/-! ### Thresholds and their order (R230, R235) -/

/-- R239: THR_HI or THR_LO of a comparator. -/
abbrev thrLoc (w : Fin 64) (hi : Bool) : PLoc := .comp w (if hi then 0x3 else 0x2)

/-- R230: THR_LO lies at or below THR_HI on every comparator. -/
def ThresholdsOrdered (s : State) : Prop := ∀ k : Fin 64, regFld s (.comp k 0x2) 9 0 ≤ regFld s (.comp k 0x3) 9 0

/-- R230: a code for one threshold of a comparator keeps the order with the other. -/
def KeepsOrder (s : State) (w : Fin 64) (hi : Bool) (q : Nat) : Prop :=
  match hi with
  | true => regFld s (.comp w 0x2) 9 0 ≤ q
  | false => q ≤ regFld s (.comp w 0x3) 9 0

/-- R230, R235: the threshold is stored and settles. -/
def thrStored (s : State) (w : Fin 64) (hi : Bool) (v : Word) : State :=
  updComp (setReg s (thrLoc w hi) (word (fld v 9 0))) w (fun c =>
    if hi then { c with hiMove := moveThr s c.hiMove (regFld s (thrLoc w hi) 9 0) (fld v 9 0) }
    else { c with loMove := moveThr s c.loMove (regFld s (thrLoc w hi) 9 0) (fld v 9 0) })

theorem writeWcThr_keeps (s : State) (w : Fin 64) (hi : Bool) (v : Word) (h : KeepsOrder s w hi (fld v 9 0)) :
    writeWcThr s w hi v = (thrStored s w hi v, .ok) := by
  cases hi <;> exact if_neg (by simpa using Nat.not_lt.mpr h)

theorem writeWcThr_breaks (s : State) (w : Fin 64) (hi : Bool) (v : Word) (h : ¬KeepsOrder s w hi (fld v 9 0)) :
    writeWcThr s w hi v = (s, .addrInvalid) := by
  cases hi <;> exact if_pos (by simpa using Nat.lt_of_not_le h)

/-- R10, R230: an accepted threshold keeps the order with the other as it will be. -/
theorem Accepts.keepsOrder {s : State} {req : Requester} {w : Fin 64} {hi : Bool} {v : Word} (h : Accepts s req (thrLoc w hi) v) :
    KeepsOrder (lateView s) w hi (fld v 9 0) := by
  have hv := h.value
  cases hi <;> exact Nat.not_lt.mp (of_decide_eq_false hv)

theorem acts_thr_keeps (z : State) (req : Requester) (w : Fin 64) (hi : Bool) (low v : Word) (h : KeepsOrder z w hi (fld v 9 0)) :
    Acts z req low (thrLoc w hi) v = thrStored z w hi v := by
  cases hi <;> exact acts_of_writePlace z _ req low _ _ v .ok rfl (writeWcThr_keeps z w _ v h) rfl rfl

theorem acts_thr_breaks (z : State) (req : Requester) (w : Fin 64) (hi : Bool) (low v : Word) (h : ¬KeepsOrder z w hi (fld v 9 0)) :
    Acts z req low (thrLoc w hi) v = z := by
  cases hi <;> exact acts_of_writePlace z _ req low _ _ v .addrInvalid rfl (writeWcThr_breaks z w _ v h) rfl rfl

theorem paOf_comp_inj {w k : Fin 64} {o p : Nat} (ho : o < 16) (hp : p < 16) (h : paOf (.comp k p) = paOf (.comp w o)) :
    k = w ∧ p = o := by
  simp only [paOf] at h
  exact ⟨Fin.ext (by omega), by omega⟩

/-- A threshold after a comparator's parameter was stored. -/
theorem regFld_setReg_thr (s : State) (w k : Fin 64) (o p q : Nat) (ho : o < 16) (hp : p < 16) (hq : q < 1024)
    (hw : Memory.wf regReset s.par.reg = true) : regFld (setReg s (.comp w o) (word q)) (.comp k p) 9 0 =
      if k = w ∧ p = o then q else regFld s (.comp k p) 9 0 := by
  split
  · next h =>
    obtain ⟨rfl, rfl⟩ := h
    rw [regFld, reg_setReg s _ _ hw]
    simp only [fld, word, BitVec.toNat_ofNat, Nat.shiftRight_zero]
    omega
  · next h =>
    rw [regFld, reg_setReg_other s _ _ _ (fun he => h (paOf_comp_inj ho hp he)) hw, regFld]

/-- R230: a threshold stored in order keeps the order of every comparator. -/
theorem ThresholdsOrdered.setReg {s : State} (h : ThresholdsOrdered s) (w : Fin 64) (hi : Bool) (q : Nat) (hq : q < 1024)
    (hk : KeepsOrder s w hi q) (hw : Memory.wf regReset s.par.reg = true) :
    ThresholdsOrdered (setReg s (thrLoc w hi) (word q)) := by
  intro k
  have hs := h k
  rw [regFld_setReg_thr s w k _ 0x2 q (by cases hi <;> decide) (by decide) hq hw,
    regFld_setReg_thr s w k _ 0x3 q (by cases hi <;> decide) (by decide) hq hw]
  by_cases hkw : k = w
  · subst hkw
    cases hi <;> simpa [KeepsOrder] using hk
  · simpa [hkw] using hs

/-! ### ZIO_CFG (R395, R399) -/

theorem paramInfo_zioCfg (k : Fin 16) : paramInfo (.chip (0x80 + k.val)) = pS 0 0x00E1FF := by
  fin_cases k <;> rfl

theorem writePlace_zioCfg (s : State) (req : Requester) (low : Word) (k : Fin 16) (i : PInfo) (v : Word) :
    writePlace s req low (.chip (0x80 + k.val)) i v = writeZioCfg s k v := by
  fin_cases k <;> rfl

theorem writeZioCfg_free (s : State) (k : Fin 16) (v : Word) (h : partnerTaken s k (fld v 8 0) = false) :
    writeZioCfg s k v = (setReg (keepZio s k) (.chip (0x80 + k.val)) (v &&& 0xE1FF), .ok) := by
  simp only [writeZioCfg, h, Bool.false_eq_true, if_false]

/-- R395: an accepted ZIO_CFG whose partner is free acts in its tick. -/
theorem run_zioCfg (req : Requester) (k : Fin 16) (v : Word) (s : State) (ha : Accepts s req (.chip (0x80 + k.val)) v)
    (hp : partnerTaken s k (fld v 8 0) = false) : run (rowWrite req (.chip (0x80 + k.val)) v) s =
      .next (settle (setReg (keepZio s k) (.chip (0x80 + k.val)) (v &&& 0xE1FF))) :=
  run_rowWrite_now req _ _ v s _ (show 0x80 + k.val < 0x100 by omega) ha (paramInfo_zioCfg k) (by fin_cases k <;> rfl)
    ((writePlace_zioCfg ..).trans (writeZioCfg_free s k v hp))

/-- R399: the setting kept for the edges of the tick is one more among the pins' settings. -/
theorem keepZio_pins_ne (s : State) (k : Fin 16) : (keepZio s k).pins ≠ s.pins := by
  intro h
  have hl := congrArg (fun p : Pins => p.zioOld.length) h
  simp [keepZio] at hl

/-- R395, R399: so the tick of an accepted ZIO_CFG does not keep the pins. -/
theorem zioCfg_changes_pins (s : State) (k : Fin 16) (v : Word) (h : s.flt.reports = []) :
    (settle (setReg (keepZio s k) (.chip (0x80 + k.val)) v)).pins ≠ s.pins := by
  rw [settle_pins (setReg (keepZio s k) (.chip (0x80 + k.val)) v) h, setReg_pins]
  exact keepZio_pins_ne s k

end Sys2Proof.Machine
end

section
/-!
PROOFS. The obligations of 08_analogue_front_end.md.
-/
namespace Sys2Proof.Machine

/-- Settles O39: in its tick the write is one more that waits or a refusal noted; as it acts it stores a code that keeps the
order, or nothing. -/
theorem thresholdsStayOrdered : Obligations.ThresholdsStayOrdered := by
  unfold Obligations.ThresholdsStayOrdered
  refine ⟨?_, ?_⟩
  · intro req w hi v s t hr ho ht
    obtain ⟨a, n, fresh, host, hz⟩ : ∃ a n fresh host, rowWrite req (thrLoc w hi) v s =
        { s with agenda := a, freshN := n, par := { s.par with fresh := fresh }, host := host } := by
      cases hi <;> exact rowWrite_only_waits s req _ _ v (show _ < 0x10 by decide) rfl rfl fun _ => rfl
    obtain rfl : settle (rowWrite req (thrLoc w hi) v s) = t := Host.Outcome.next.inj ht
    have hrz : (rowWrite req (thrLoc w hi) v s).flt.reports = [] := by rw [hz]; exact hr
    refine ⟨?_, ?_, ?_⟩
    · simp only [regFld, reg, regAt, settle_reg _ hrz]
      rw [hz]
      exact ho
    · refine SameUnits.trans ?_ (settle_same _ hrz)
      rw [settle_agenda _ hrz, hz]
      exact SameUnits.refl _
    · rw [settle_mem _ hrz, hz]
  · rintro req w hi low v s _ hw ho rfl
    by_cases hk : KeepsOrder s w hi (fld v 9 0)
    · rw [acts_thr_keeps s req w hi low v hk]
      exact ⟨ThresholdsOrdered.setReg ho w hi _ (fld_lt v 9 0) hk hw, SameUnits.refl _, rfl⟩
    · rw [acts_thr_breaks s req w hi low v hk]
      exact ⟨ho, SameUnits.refl _, rfl⟩

/-- The host may write ZIO_CFG 0 in the reset state. -/
theorem reset_accepts_zioCfg : Accepts State.reset .host (.chip (0x80 + (0 : Fin 16).val)) 0 :=
  ⟨by decide, _, paramInfo_zioCfg 0, by decide⟩

/-- Refutes O42: an accepted ZIO_CFG keeps the old setting among the pins for the edges of its tick (R399), as the host's write of 0
to the first one in the reset state does. -/
theorem not_storedRegistersFrame : ¬Obligations.StoredRegistersFrame := by
  unfold Obligations.StoredRegistersFrame
  rintro ⟨-, -, -, -, hzio⟩
  obtain ⟨t, ht, hunits, -⟩ := hzio .host 0 0 State.reset rfl rfl reset_accepts_zioCfg (by decide)
  obtain rfl := Host.Outcome.next.inj ((run_zioCfg .host 0 0 State.reset reset_accepts_zioCfg (by decide)).symm.trans ht)
  obtain ⟨-, -, hpins, -⟩ := hunits
  exact zioCfg_changes_pins State.reset 0 _ rfl hpins

/-- Settles O28: each row is its parameter access, its write as it acts, or what converter, sequencer or comparator does under the
conditions that let it happen. -/
theorem analogueRowsComplete : Obligations.AnalogueRowsComplete := by
  unfold Obligations.AnalogueRowsComplete
  refine ⟨?_, ?_, ?_, ?_, ?_, ?_, ?_, ?_, ?_, ?_, ?_, ?_, ?_, ?_, ?_, ?_, ?_, ?_, ?_, ?_, ?_, ?_, ?_, ?_⟩
  · exact fun req r v s ha he hk => run_rowWrite_waits req (.seqr r 0x3) _ v s (show _ < 0x10 by decide) ha rfl rfl
      (congrArg Prod.snd (writeSqSwtrig_triggers (lateView s) r v he hk))
  · intro req r low v z he hk
    rw [acts_eq z _ req low (.seqr r 0x3) _ v .ok rfl (writeSqSwtrig_triggers z r v he hk)]
  · rintro req r v _ _ s ha rfl rfl h3 h
    exact ⟨run_rowWrite_waits req (.seqr r 0x2) _ v s (show _ < 0x10 by decide) ha rfl rfl
      (writeSqListData_ok (lateView s) req r _ v h3 h), rfl, rfl⟩
  · rintro req r a v _ z rfl hk he
    exact acts_sqListData z _ req r a v _ (writeSqListData_word z req r a v (by omega) (by omega) he) rfl rfl
  · rintro req r a v _ z rfl h0 hv
    exact acts_sqListData z _ req r a v _ (writeSqListData_disables z req r a v h0 hv) rfl rfl
  · rintro req r a v _ z rfl h0 he hv hb
    exact acts_sqListData z _ req r a v _ (writeSqListData_enables z req r a v h0 he hv hb) rfl rfl
  · exact fun req r v s ha => run_rowWrite_waits req (.seqr r 0x0) _ v s (show _ < 0x10 by decide) ha rfl rfl
      (congrArg Prod.snd (writeSqCtrl_eq (lateView s) r v))
  · intro req r low v z
    refine acts_of_writePlace z _ req low (.seqr r 0x0) _ v .ok rfl (writeSqCtrl_eq z r v) ?_ ?_ <;> split <;> rfl
  · exact fun req a v s ha => run_rowWrite_waits req (.adc a 0x1) _ v s (show _ < 8 by decide) ha rfl rfl rfl
  · exact fun req a low v z => acts_of_writePlace z _ req low (.adc a 0x1) _ v .ok rfl rfl rfl rfl
  · rintro r t _ _ s hon rfl ht rfl
    show run (doConversionStart r) s = _
    rw [run, doConversionStart_samples s r t hon ht]
    rfl
  · rintro r t _ s hon hp ht hu hf rfl
    have hk := pendKept_single s r t hp hu
    show run (doConversionStart r) s = _
    rw [run, doConversionStart_samples s r t hon (by rw [hk, hp]; exact firstReady_single s r t ht hf), hk, sampleAll,
      updSeq_erase_single s r t hp]
    rfl
  · rintro a vp vn x l _ s hf hon ht hs rfl
    show run (doConversionResult a vp vn) s = _
    rw [run, doConversionResult_due s a vp vn x l hf hon ht, hs]
    rfl
  · rintro a vp vn x l _ e n g s hf hon ht hs rfl
    show run (doConversionResult a vp vn) s = _
    rw [run, doConversionResult_due s a vp vn x l hf hon ht, hs]
    rfl
  · exact fun req a s hr hc => run_rowRead req (.adc a 0x2) _ s (show _ < 8 by decide) hr hc rfl rfl rfl
  · intro w uV s hr
    show run (doRawZoneChange w uV) s = _
    rw [run, doRawZoneChange_ready s w uV hr]
  · rintro w uV _ _ s hr hn hf rfl rfl
    show run (doFilterSample w uV) s = _
    rw [run, doFilterSample_due s w uV hr hn hf]
    rfl
  · intro w t s hs ha ht
    show run (doSettlingEnd w) s = _
    rw [run, doSettlingEnd_due s w t hs ha ht]
  · exact fun req w v s ha => run_rowWrite_waits req (.comp w 0x0) _ v s (show _ < 0x10 by decide) ha rfl rfl
      (writeWcCtrl_ok (lateView s) w v)
  · intro req w low v z hv he
    rw [acts_eq z _ req low (.comp w 0x0) _ v .ok rfl (writeWcCtrl_enables z w v hv he)]
  · intro req w low v z hv
    rw [acts_eq z _ req low (.comp w 0x0) _ v .ok rfl (writeWcCtrl_disables z w v hv)]
  · intro req w hi v s ha
    have hw := congrArg Prod.snd (writeWcThr_keeps (lateView s) w hi v ha.keepsOrder)
    cases hi <;> exact run_rowWrite_waits req _ _ v s (show _ < 0x10 by decide) ha rfl rfl hw
  · exact fun req w low v z h => acts_thr_keeps z req w true low v h
  · exact fun req w low v z h => acts_thr_keeps z req w false low v h

end Sys2Proof.Machine
end

section
/-!
SUPPORT. What 09_electrum_link.md comes to in the model: ports of the link, a valid frame on a port that is up, frames that do
not come, masters that take over, and what a write of ELC_CTRL or ELC_MBX_TX_HI does as it acts.
-/
namespace Sys2Proof.Machine

/-! ### Ports of the link -/

theorem portOf_eq (s : State) (p : Port) : portOf s p = s.elc.ports[portIx p] := by
  cases p <;> rfl

@[simp] theorem portOf_updPort_same (s : State) (p : Port) (f : ElcPort → ElcPort) :
    portOf (updPort s p f) p = f (portOf s p) := by
  simp [portOf_eq, updPort, updElc]

theorem portOf_updPort_other (s : State) (p q : Port) (f : ElcPort → ElcPort) (h : p ≠ q) :
    portOf (updPort s p f) q = portOf s q := by
  have hix : (portIx p).val ≠ (portIx q).val := by
    revert h
    cases p <;> cases q <;> decide
  simp only [portOf_eq, updPort, updElc, Fin.getElem_fin]
  exact Vector.getElem_set_ne _ _ hix

@[simp] theorem updPort_role (s : State) (p : Port) (f : ElcPort → ElcPort) : (updPort s p f).elc.role = s.elc.role := rfl

/-- R268: a record of the link changes neither the link nor line time. -/
theorem portRecord_elc (s : State) (t : Time) (ev : Nat) (p : Port) : (portRecord s t ev p).elc = s.elc := by
  unfold portRecord linkRecord
  split <;> rfl

theorem portRecord_time (s : State) (t : Time) (ev : Nat) (p : Port) : (portRecord s t ev p).time = s.time := by
  unfold portRecord linkRecord
  split <;> rfl

/-! ### A valid frame on a port that is up (R251, R256, R261) -/

/-- R245, R246, R251: a whole frame with a good CRC and VERSION has arrived on a locked port that is up, and it does not show
that the port is crossed. -/
structure FrameValid (s : State) (p : Port) (bs : List Byte) (a : T16) : Prop where
  on : elcOn s = true
  port : portOn s p = true
  locked : (portOf s p).locked = true
  up : (portOf s p).st = .up
  whole : bs.length = 250
  due : due s (plus (tickPart a) 794) = true
  crc : frameCrc bs = BitVec.ofNat 32 (beAt bs 246 4)
  version : ctrlFld bs 15 14 = 1
  straight : ctrlBit bs 12 = true ∨ ctrlBit bs 13 = true ∨ p = .b

/-- R251: the outcomes of the last sixteen CRCs of a port, with a good one now. -/
abbrev crcGood (s : State) (p : Port) : List Bool := (false :: (portOf s p).crcRun).take 16

/-- R251: the port after a valid frame: its outcome, and the number and offset of the frame. -/
def frameSeen (s : State) (p : Port) (bs : List Byte) (a : T16) : State :=
  updPort (updPort s p (fun x => { x with crcRun := crcGood s p, missRun := 0 })) p
    (fun x => { x with offset := some (a - frameF (frameNoOf bs)).toInt, frameNo := some (frameNoOf bs) })

theorem frameSeen_frameNo (s : State) (p : Port) (bs : List Byte) (a : T16) :
    (portOf (frameSeen s p bs a) p).frameNo = some (frameNoOf bs) := by
  simp [frameSeen]

theorem frameSeen_role (s : State) (p : Port) (bs : List Byte) (a : T16) : (frameSeen s p bs a).elc.role = s.elc.role := rfl

theorem FrameValid.not_crossed {s : State} {p : Port} {bs : List Byte} {a : T16} (h : FrameValid s p bs a) :
    (!ctrlBit bs 12 && !ctrlBit bs 13 && decide (p = .a)) = false := by
  rcases h.straight with h12 | h13 | rfl
  · simp [h12]
  · simp [h13]
  · simp

/-- R246, R251, R256: a valid frame is forwarded unless the node is master, and measured. -/
def frameMeasured (s : State) (p : Port) (bs : List Byte) (a : T16) : State :=
  measureFrame (if s.elc.role = .master then frameSeen s p bs a
    else forwardFrame (frameSeen s p bs a) p bs a (plus (tickPart a) 794) false) p bs a

/-- R251 to R267: a valid frame is noted, used where the node accepts it (`u`), and closed; an accepted one of another node
that comes from the parent and was not turned back is followed. -/
theorem doFrameArrival_valid (s z y : State) (p : Port) (bs : List Byte) (a : T16) (u : Bool) (h : FrameValid s p bs a)
    (hb : ((crcGood s p).filter id).length < 8) (hz : z = frameMeasured s p bs a)
    (hu : accepts z (BitVec.ofNat 5 (ctrlFld bs 9 5)) = u)
    (hy : y = closeFrame (if u then useFrame (noteFrame z bs) p bs (plus (tickPart a) 794) else noteFrame z bs)
      (frameNoOf bs) (plus (tickPart a) 794)) :
    doFrameArrival p bs a s =
      if u && !(decide (s.elc.role = .master) && decide (BitVec.ofNat 5 (ctrlFld bs 9 5) = nodeId s)) &&
          decide (y.elc.parent = some p) && !ctrlBit bs 12 then
        followParent y p bs a (plus (tickPart a) 794)
      else y := by
  subst hz hu hy
  have hn := frameSeen_frameNo s p bs a
  unfold frameMeasured frameSeen crcGood at *
  simp only [doFrameArrival, h.on, h.port, h.locked, h.up, h.whole, h.due, h.crc, h.version, h.not_crossed, updPort_role,
    hn, Nat.not_le.mpr hb, decide_true, decide_false, decide_not, ne_eq, reduceCtorEq, decide_eq_true_eq, Bool.and_self,
    Bool.true_and, Bool.not_true, Bool.not_false, Bool.false_eq_true, if_true, if_false]

theorem doFrameArrival_accepted (s z y : State) (p : Port) (bs : List Byte) (a : T16) (h : FrameValid s p bs a)
    (hb : ((crcGood s p).filter id).length < 8) (hr : s.elc.role ≠ .master)
    (hz : z = measureFrame (forwardFrame (frameSeen s p bs a) p bs a (plus (tickPart a) 794) false) p bs a)
    (ha : accepts z (BitVec.ofNat 5 (ctrlFld bs 9 5)) = true)
    (hy : y = closeFrame (useFrame (noteFrame z bs) p bs (plus (tickPart a) 794)) (frameNoOf bs) (plus (tickPart a) 794)) :
    doFrameArrival p bs a s =
      if y.elc.parent = some p ∧ ctrlBit bs 12 = false then followParent y p bs a (plus (tickPart a) 794) else y := by
  have hm : z = frameMeasured s p bs a := by rw [hz, frameMeasured, if_neg hr]
  rw [doFrameArrival_valid s z y p bs a true h hb hm ha hy]
  simp [hr]

theorem accepts_master (s : State) (m : BitVec 5) (h : s.elc.role = .master) :
    accepts s m = decide (m.toNat ≤ (nodeId s).toNat) := if_pos h

/-- R261: a master does not accept a valid frame of a higher-numbered one: it measures and notes it. -/
theorem doFrameArrival_higher (s : State) (p : Port) (bs : List Byte) (a : T16) (h : FrameValid s p bs a)
    (hb : ((crcGood s p).filter id).length < 8) (hr : s.elc.role = .master) (hm : (nodeId s).toNat < ctrlFld bs 9 5) :
    doFrameArrival p bs a s = closeFrame (noteFrame (measureFrame (frameSeen s p bs a) p bs a) bs) (frameNoOf bs)
      (plus (tickPart a) 794) := by
  have hz : measureFrame (frameSeen s p bs a) p bs a = frameMeasured s p bs a := by rw [frameMeasured, if_pos hr]
  have hlt : ctrlFld bs 9 5 < 2 ^ 5 := Nat.mod_lt _ (by decide)
  have ha : accepts (measureFrame (frameSeen s p bs a) p bs a) (BitVec.ofNat 5 (ctrlFld bs 9 5)) = false := by
    refine (accepts_master (measureFrame (frameSeen s p bs a) p bs a) _ hr).trans (decide_eq_false ?_)
    rw [BitVec.toNat_ofNat, Nat.mod_eq_of_lt hlt]
    exact Nat.not_le.mpr hm
  rw [doFrameArrival_valid s _ _ p bs a false h hb hz ha rfl]
  rfl

/-! ### Frames that do not come, and lane locks (R245, R263) -/

/-- R263: the counter of a port's missed frames. -/
def missCounter (p : Port) : PLoc :=
  match p with
  | .a => .link 0x09
  | .b => .link 0x0A

/-- R263: the port after a missed frame: the count, and the number of that frame. -/
def frameLost (s : State) (p : Port) (k : Nat) : State :=
  updPort (bump s (missCounter p) 11 0 1) p (fun y => { y with frameNo := some (k + 1), missRun := y.missRun + 1, validRun := 0 })

theorem doFrameMissed_due (s : State) (p : Port) (k : Nat) (o : Int) (hk : (portOf s p).frameNo = some k)
    (ho : (portOf s p).offset = some o) (he : elcOn s = true) (hp : portOn s p = true)
    (ht : after (now s) (tickPart (frameF (k + 1) + BitVec.ofInt 52 (o + 1024))) = true) :
    doFrameMissed p s = closeFrame (if 1 ≤ (portOf s p).missRun ∧ (portOf s p).st ≠ .down then
      portDown (frameLost s p k) p (now s) else frameLost s p k) (k + 1) (now s) := by
  have h2 : 2 ≤ (portOf s p).missRun + 1 ↔ 1 ≤ (portOf s p).missRun := Nat.succ_le_succ_iff
  simp only [doFrameMissed, hk, ho, he, hp, ht, h2, Bool.and_self, Bool.not_true, Bool.false_eq_true, if_false,
    Bool.and_eq_true, decide_eq_true_eq]
  rfl

theorem doLaneLockLoss_locked (s : State) (p : Port) (he : elcOn s = true) (hp : portOn s p = true)
    (hl : (portOf s p).locked = true) : doLaneLockLoss p s = portDown s p (now s) := by
  simp only [doLaneLockLoss, he, hp, hl, Bool.and_self, if_true]

theorem doLaneLockGained_free (s : State) (p : Port) (he : elcOn s = true) (hp : portOn s p = true)
    (hl : (portOf s p).locked = false) (hc : (portOf s p).crossed = false) : doLaneLockGained p s =
      updPort s p (fun y => { y with locked := true, st := .training, validRun := 0 }) := by
  simp only [doLaneLockGained, he, hp, hl, hc, Bool.not_false, Bool.and_self, if_true]

/-! ### Masters (R246, R261, R262) -/

theorem doFrameOriginate_due (s : State) (he : elcOn s = true) (hr : s.elc.role = .master)
    (hf : s.elc.frameNo ≠ frameNow s) : doFrameOriginate s = originate s (frameNow s) := by
  simp only [doFrameOriginate, he, hr, hf, ne_eq, not_false_eq_true, decide_true, Bool.and_self, if_true]

theorem doBackupTakeover_due (s : State) (he : elcOn s = true) (hh : s.elc.heard = true) (hr : s.elc.role = .backup)
    (hd : due s (BitVec.ofNat 48 (800 * (s.elc.frameNo + 3))) = true) : doBackupTakeover s =
      originate (becomeMaster s (BitVec.ofNat 48 (800 * (s.elc.frameNo + 3)))) (frameNow s) := by
  simp only [doBackupTakeover, he, hh, hr, hd, decide_true, Bool.and_self, if_true]

/-- R261, R262: a candidate whose wait ends between two frames is master from now on, and originates at the next *F*. -/
theorem doCandidateOriginate_between (s : State) (q : Nat) (hq : s.elc.quietFrom = some q) (he : elcOn s = true)
    (hc : isCandidate s = true) (hr : s.elc.role ≠ .master) (ht : q + (16 + 4 * (nodeId s).toNat) * 800 ≤ s.time.tick)
    (hf : (now s).toNat % 800 ≠ 0) : doCandidateOriginate s =
      updElc (becomeMaster s (now s)) (fun e => { e with frameNo := frameNow s }) := by
  simp only [doCandidateOriginate, hq, he, hc, hr, ht, hf, ne_eq, not_false_eq_true, decide_true, Bool.and_self, if_true,
    if_false]

/-! ### ELC_CTRL (R245, R264, R269) -/

/-- R269: ELC_CTRL as a write stores it. -/
abbrev elcCtrlStored (s : State) (v : Word) : State := setReg s (.link 0x00) (v &&& 7)

/-- R245, R264: what a write of ELC_CTRL does to a port in the state `x`, where it makes `s` into `n`. -/
def portSwitch (s n x : State) (p : Port) : State :=
  if portOn n p && !portOn s p then updPort x p (fun _ => { portReset with st := .training })
  else if portOn s p && !portOn n p then portDisable x p
  else x

/-- R245, R264: both ports after a write of ELC_CTRL, port A first. -/
def portsSwitched (s : State) (v : Word) : State :=
  portSwitch s (elcCtrlStored s v) (portSwitch s (elcCtrlStored s v) s .a) .b

/-- R264: the link without the node's part in the ring: slots and messages stay. -/
def linkLeft (e : Electrum) : Electrum :=
  { elcReset with
    slots := e.slots, tags := e.tags, mbx := e.mbx, rx := e.rx, rxTaken := e.rxTaken, txNext := e.txNext, txMsg := e.txMsg,
    txPending := e.txPending, txSeq := e.txSeq, sent := e.sent }

theorem writeElcCtrl_on (s : State) (v : Word) (h : bit v 0 = true) :
    writeElcCtrl s v = (elcCtrlStored (portsSwitched s v) v, .ok) := by
  simp only [writeElcCtrl, h, if_true]
  rfl

theorem writeElcCtrl_off (s : State) (v : Word) (h : bit v 0 = false) :
    writeElcCtrl s v = ({ updElc (elcCtrlStored (portsSwitched s v) v) linkLeft with
      time := { (portsSwitched s v).time with rate := 0 } }, .ok) := by
  simp only [writeElcCtrl, h, Bool.false_eq_true, if_false]
  rfl

theorem writeElcCtrl_ok (s : State) (v : Word) : (writeElcCtrl s v).2 = .ok := by
  cases h : bit v 0
  · rw [writeElcCtrl_off s v h]
  · rw [writeElcCtrl_on s v h]

theorem portOf_portDisable_other (s : State) (p q : Port) (h : p ≠ q) : portOf (portDisable s p) q = portOf s q := by
  have hs : portOf (if portUp s p then portRecord s (now s) 0x02 p else s) q = portOf s q := by
    split
    · rw [portOf_eq, portRecord_elc, portOf_eq]
    · rfl
  exact (portOf_updPort_other _ p q (fun _ => portReset) h).trans hs

theorem portDisable_time (s : State) (p : Port) : (portDisable s p).time = s.time := by
  unfold portDisable
  dsimp only
  split
  · exact portRecord_time ..
  · rfl

theorem portSwitch_trains (s n x : State) (p : Port) (hs : portOn s p = false) (hn : portOn n p = true) :
    portOf (portSwitch s n x p) p = { portReset with st := .training } := by
  simp only [portSwitch, hs, hn, Bool.not_false, Bool.and_self, if_true, portOf_updPort_same]

theorem portOf_portSwitch_other (s n x : State) (p q : Port) (h : p ≠ q) : portOf (portSwitch s n x p) q = portOf x q := by
  unfold portSwitch
  split_ifs
  · exact portOf_updPort_other x p q _ h
  · exact portOf_portDisable_other x p q h
  · rfl

theorem portSwitch_time (s n x : State) (p : Port) : (portSwitch s n x p).time = x.time := by
  unfold portSwitch
  split_ifs
  · rfl
  · exact portDisable_time x p
  · rfl

/-- R245: a port that a write of ELC_CTRL turns on trains, whatever the write does to the other port. -/
theorem portsSwitched_trains (s : State) (v : Word) (p : Port) (hs : portOn s p = false)
    (hn : portOn (elcCtrlStored s v) p = true) : portOf (portsSwitched s v) p = { portReset with st := .training } := by
  cases p with
  | a => exact (portOf_portSwitch_other _ _ _ .b .a (by decide)).trans (portSwitch_trains _ _ _ .a hs hn)
  | b => exact portSwitch_trains _ _ _ .b hs hn

theorem portsSwitched_time (s : State) (v : Word) : (portsSwitched s v).time = s.time :=
  (portSwitch_time ..).trans (portSwitch_time ..)

/-! ### ELC_MBX_TX_HI (R267) -/

/-- R267: the pair becomes the next message; one that still waited is lost, which TX_OVERRUN shows. -/
theorem writeMbxTxHi_eq (s : State) (low v : Word) : writeMbxTxHi s low v =
    (updElc (if s.elc.txPending then orReg (setReg s (.link 0x22) v) (.link 0x23) 2 else setReg s (.link 0x22) v)
      (fun e => { e with txNext := mkTime v low, txPending := true }), .ok) := rfl

end Sys2Proof.Machine
end

section
/-!
PROOFS. The obligations of 09_electrum_link.md.
-/
namespace Sys2Proof.Machine

/-- Settles O29: a row that is due does its own part; of the two writes, each commits and acts as its unit says. -/
theorem linkRowsComplete : Obligations.LinkRowsComplete := by
  unfold Obligations.LinkRowsComplete
  refine ⟨?_, ?_, ?_, ?_, ?_, ?_, ?_, ?_, ?_, ?_, ?_, ?_, ?_⟩
  · intro s he hr hf
    show run doFrameOriginate s = _
    rw [run, doFrameOriginate_due s he hr hf]
  · intro p bs a z y s he hp hl hu hw hd hc hv hx hr hz ha hb hy
    show run (doFrameArrival p bs a) s = _
    rw [run, doFrameArrival_accepted s z y p bs a ⟨he, hp, hl, hu, hw, hd, hc, hv, hx⟩ hb hr hz ha hy]
  · intro p bs a s he hp hl hu hw hd hc hv hx hr hm hb
    show run (doFrameArrival p bs a) s = _
    rw [run, doFrameArrival_higher s p bs a ⟨he, hp, hl, hu, hw, hd, hc, hv, hx⟩ hb hr hm]
    rfl
  · rintro p k o _ s hk ho he hp ht rfl
    show run (doFrameMissed p) s = _
    rw [run, doFrameMissed_due s p k o hk ho he hp ht]
    rfl
  · intro p s he hp hl
    show run (doLaneLockLoss p) s = _
    rw [run, doLaneLockLoss_locked s p he hp hl]
  · intro p s he hp hl hc
    show run (doLaneLockGained p) s = _
    rw [run, doLaneLockGained_free s p he hp hl hc]
  · intro s he hh hr hd
    show run doBackupTakeover s = _
    rw [run, doBackupTakeover_due s he hh hr hd]
  · intro q s hq he hc hr ht hf
    show run doCandidateOriginate s = _
    rw [run, doCandidateOriginate_between s q hq he hc hr ht hf]
  · exact fun req v s ha => run_rowWrite_waits req (.link 0x00) _ v s (show _ < 0x60 by decide) ha rfl rfl
      (writeElcCtrl_ok (lateView s) v)
  · intro req low v p z hv hs hn
    rw [acts_eq z _ req low (.link 0x00) _ v .ok rfl (writeElcCtrl_on z v hv)]
    exact portsSwitched_trains z v p hs hn
  · intro req low v z hv
    rw [acts_eq z _ req low (.link 0x00) _ v .ok rfl (writeElcCtrl_off z v hv), portsSwitched_time]
    exact ⟨rfl, rfl, rfl⟩
  · exact fun req v s ha => ⟨run_rowWrite_waits req (.link 0x22) _ v s (show _ < 0x60 by decide) ha rfl rfl
      (congrArg Prod.snd (writeMbxTxHi_eq (lateView s) _ v)), rfl⟩
  · intro req low v z
    refine acts_of_writePlace z _ req low (.link 0x22) _ v .ok rfl (writeMbxTxHi_eq z low v) ?_ ?_ <;> split <;> rfl

end Sys2Proof.Machine
end

section
/-!
SUPPORT. What 10_mailbox_interface.md comes to in the model: the bytes of a record, what a completion leaves, the results of
the session and parameter commands, block accesses of parameter RAM, host registers and ring memory over the transports, and
the rows of the host interface.
-/
namespace Sys2Proof.Machine

/-! ### What follows a row -/

/-- A row whose effect is known: its effect, and what follows every command. -/
theorem run_of_eq {f : State → State} {s t : State} (h : f s = t) : run f s = .next (settle t) := by rw [run, h]

/-- What follows a command changes no parameter, and no held word of one, with no detection waiting. -/
theorem settle_par_frame (s : State) (h : s.flt.reports = []) :
    (settle s).par = { s.par with fresh := (settle s).par.fresh } := by
  simp only [← settle_reg s h, ← settle_work s h, ← settle_hlog s h, ← settle_caps s h, ← settle_lows s h, ← settle_sels s h,
    ← settle_snaps s h]

/-! ### The bytes of a record (R285) -/

theorem leBytes_length (n k : Nat) : (leBytes n k).length = k := by simp [leBytes]

theorem leBytes_succ (n k : Nat) : leBytes n (k + 1) = BitVec.ofNat 8 n :: leBytes (n / 256) k := by
  simp only [leBytes, List.range_succ_eq_map, List.map_cons, List.map_map, Nat.mul_zero, Nat.shiftRight_zero]
  congr 1
  refine List.map_congr_left fun i _ => ?_
  rw [Function.comp_apply, Nat.succ_eq_add_one, Nat.mul_add, Nat.add_comm, Nat.shiftRight_add, Nat.shiftRight_eq_div_pow n]

theorem leNat_append (l m : List Byte) : leNat (l ++ m) = leNat l + 256 ^ l.length * leNat m := by
  induction l with
  | nil => simp [leNat]
  | cons b t ih =>
    show b.toNat + 256 * leNat (t ++ m) = b.toNat + 256 * leNat t + 256 ^ (t.length + 1) * leNat m
    rw [ih, Nat.pow_succ]
    ring

/-- The little-endian bytes of a number give it back, as far as they reach. -/
theorem leNat_leBytes (n k : Nat) : leNat (leBytes n k) = n % 256 ^ k := by
  induction k generalizing n with
  | zero => simp [leNat, leBytes, Nat.mod_one]
  | succ k ih =>
    rw [leBytes_succ]
    show (BitVec.ofNat 8 n).toNat + 256 * leNat (leBytes (n / 256) k) = _
    rw [ih, Nat.pow_succ', Nat.mod_mul, BitVec.toNat_ofNat]

/-- The bytes of a word give the word back where they are as many as it needs. -/
theorem leNat_leBytes_toNat {w : Nat} (v : BitVec w) (k : Nat) (h : 2 ^ w = 256 ^ k) : leNat (leBytes v.toNat k) = v.toNat := by
  rw [leNat_leBytes, ← h, Nat.mod_eq_of_lt v.isLt]

theorem leNat_singleton (b : Byte) : leNat [b] = b.toNat := by simp [leNat]

theorem recBytes_length (r : Rec) (q : Byte) : (recBytes r q).length = 16 := by simp [recBytes, leBytes_length]

/-- R285: the last byte of a record is its Type. -/
theorem recBytes_last (r : Rec) (q : Byte) : (recBytes r q)[15]? = some r.typ := by
  rw [recBytes, List.getElem?_append_right (by simp [leBytes_length])]
  simp [leBytes_length]

/-- R285: the fields of a record lie side by side. -/
theorem leNat_recBytes (r : Rec) (q : Byte) : leNat (recBytes r q) = r.typ.toNat * 2 ^ 120 + r.src.toNat * 2 ^ 104 +
    q.toNat * 2 ^ 96 + r.ts.toNat * 2 ^ 48 + r.a.toNat * 2 ^ 24 + r.b.toNat := by
  simp only [recBytes, leNat_append, List.length_append, leBytes_length, List.length_cons, List.length_nil, leNat_singleton,
    leNat_leBytes_toNat r.src 2 (by decide), leNat_leBytes_toNat r.a 3 (by decide), leNat_leBytes_toNat r.b 3 (by decide),
    leNat_leBytes_toNat r.ts 6 (by decide)]
  omega

/-! ### What a completion leaves (R281, R290, R296) -/

theorem settleRing_arb (s : State) (r : Fin 16) : (settleRing s r).host.arb = s.host.arb := by rw [settleRing_frame]

theorem settleRing_cmdCount (s : State) (r : Fin 16) : (settleRing s r).host.cmdCount = s.host.cmdCount := by
  rw [settleRing_frame]

theorem writeSqSlot_arb (s : State) (r : Fin 16) : (writeSqSlot s r).host.arb = s.host.arb := by
  obtain ⟨_, _, h⟩ := writeSqSlot_frame s r
  rw [h]

theorem writeSqSlot_cmdCount (s : State) (r : Fin 16) : (writeSqSlot s r).host.cmdCount = s.host.cmdCount := by
  obtain ⟨_, _, h⟩ := writeSqSlot_frame s r
  rw [h]

/-- R281: the status slot shows the counts and leaves them. -/
theorem writeSqSlot_done (s : State) (r : Fin 16) : (writeSqSlot s r).host.subs[r].done = s.host.subs[r].done := by
  obtain ⟨_, _, h⟩ := writeSqSlot_frame s r
  rw [h]
  simp

theorem placeRec_mem (l : List Placed) (p : Placed) : p ∈ placeRec l p := by
  obtain ⟨x, y, -, h⟩ := placeRec_split l p
  simp [h]

theorem logCommand_unlogged (s : State) (op : Nat) (e : Entry) (t : Status) (b : Word) (h : logged t = false) :
    logCommand s op e t b = s := by simp [logCommand, h]

theorem complete_done (s : State) (op : Nat) (e : Entry) (t : Status) (b : Word) :
    (complete s op e t b).host.subs[e.ring].done = s.host.subs[e.ring].done + 1 := by
  rw [complete, settleRing_done, writeSqSlot_done]
  simp [updSub]

theorem complete_cmdCount (s : State) (op : Nat) (e : Entry) (t : Status) (b : Word) (h : logged t = false) :
    (complete s op e t b).host.cmdCount = s.host.cmdCount + 1 := by
  rw [complete, settleRing_cmdCount, writeSqSlot_cmdCount, logCommand_unlogged s op e t b h]
  simp only [updSub]
  split <;> rfl

/-- R290: a completion that FLAGS does not suppress puts its record among those that wait for their rings. -/
theorem complete_arb (s : State) (op : Nat) (e : Entry) (t : Status) (b : Word) (h : logged t = false)
    (hq : bit e.flags 7 = false ∨ t ≠ .ok) : (complete s op e t b).host.arb = placeRec s.host.arb
      ⟨Fin.ofNat 16 (fld (sqCfg s e.ring) 27 24), s.time.tick, 22,
        ⟨0x01, BitVec.ofNat 16 e.ring.val, now s, word (e.seq.toNat * 256 + t.code), b⟩⟩ := by
  have hquiet : (bit e.flags 7 && decide (t = .ok)) = false := by
    rcases hq with hq | hq <;> simp [hq]
  rw [complete, settleRing_arb, writeSqSlot_arb, logCommand_unlogged s op e t b h]
  simp only [hquiet]
  rfl

/-! ### Commands on sessions (R292, R293) -/

/-- R293: a host command that does not end at once: its body, and what follows. -/
theorem cmdRun_stays (i : Instr) (op : Byte) (e : Entry) (body : State → CmdResult) (s z y : State) (h : Takes s op e z)
    (hb : body z = (y, none)) : run (cmdRun i op.toNat e body) s = .next (settle (flushRing y e.ring)) := by
  rw [cmdRun_takes i op e body s z h, hb]

theorem cmdOpenSession_opens (e : Entry) (s : State) (hv : fld e.a0 7 0 = 3)
    (ho : s.host.sessionOpen = false ∨ bit e.a0 23 = true) : cmdOpenSession e s =
      endsWith { s with host := { s.host with
        sessionOpen := true, session := s.host.session + 1, watchdogMs := BitVec.ofNat 16 (fld e.a1 15 0),
        watchdogFrom := s.time.tick, hostLost := false } } .ok (s.host.session + 1) := by
  have hb : (s.host.sessionOpen && !bit e.a0 23) = false := by rcases ho with ho | ho <;> simp [ho]
  rw [cmdOpenSession, if_neg (not_not.mpr hv), hb]
  rfl

theorem cmdOpenSession_busy (e : Entry) (s : State) (hv : fld e.a0 7 0 = 3) (ho : s.host.sessionOpen = true)
    (hk : bit e.a0 23 = false) : cmdOpenSession e s = ends s .sessionBusy := by
  rw [cmdOpenSession, if_neg (not_not.mpr hv), if_pos (by simp [ho, hk])]

theorem cmdWaitUntil_come (e : Entry) (s : State) (h : due s (mkTime e.a1 e.a0) = true) : cmdWaitUntil e s = ends s .ok :=
  if_pos h

theorem cmdWaitUntil_holds (e : Entry) (s : State) (h : due s (mkTime e.a1 e.a0) = false) :
    cmdWaitUntil e s = (updSub s e.ring (fun x => { x with waitFor := some (mkTime e.a1 e.a0, e) }), none) :=
  if_neg (Bool.eq_false_iff.mp h)

/-! ### Commands on parameters (R293) -/

/-- R293: what MODIFY_PARAM writes where it reads `v`: the masked bits replaced, and of the bits that act when written 1 only
the masked ones. -/
abbrev modified (e : Entry) (v : Word) : Word :=
  ((v &&& ~~~e.a1) ||| (e.a2 &&& e.a1)) &&& ~~~(actBits e.a0.toNat &&& ~~~e.a1)

theorem cmdModifyParam_writes (e : Entry) (v : Word) (s x y : State) (hr : readParam s .host e.a0.toNat = (v, x, .ok))
    (hw : writeParam x .host e.a0.toNat (modified e v) = (y, .ok)) : cmdModifyParam e s = endsWith y .ok v := by
  simp [cmdModifyParam, hr, hw]

theorem cmdModifyParam_refused (e : Entry) (v : Word) (s x y : State) (t : Status)
    (hr : readParam s .host e.a0.toNat = (v, x, .ok)) (hw : writeParam x .host e.a0.toNat (modified e v) = (y, t))
    (ht : t ≠ .ok) : cmdModifyParam e s = ends s t := by
  simp [cmdModifyParam, hr, hw, ht]

/-- R293: the pairs of a WRITE_PARAMS. -/
abbrev writePairs (e : Entry) : List (Nat × Word) :=
  [(e.a1.toNat, e.a2), (e.a3.toNat, e.a4), (e.a5.toNat, e.a6)].take (fld e.a0 1 0)

theorem cmdWriteParams_all (e : Entry) (s y : State) (hn : fld e.a0 1 0 ≠ 0) (hc : checkPairs s s 0 (writePairs e) = .ok y) :
    cmdWriteParams e s = ends y .ok := by
  simp only [cmdWriteParams, if_neg hn, hc]

theorem cmdWriteParams_refused (e : Entry) (s y : State) (k : Nat) (t : Status) (hn : fld e.a0 1 0 ≠ 0)
    (hc : checkPairs s s 0 (writePairs e) = .error (k, t, y)) :
    cmdWriteParams e s = endsWith { y with par := { y.par with lows := s.par.lows } } t (word k) := by
  simp only [cmdWriteParams, if_neg hn, hc]

theorem blockCountBad_eq_false (n : Nat) (h1 : 1 ≤ n) (h2 : n ≤ 4096) : blockCountBad n = false :=
  decide_eq_false (by omega)

theorem bulkBegin_ends (s y : State) (m : BulkMove) (t : Status) (b : Word) (h : bulkPiece s m = (y, .inr (t, b))) :
    bulkBegin s m = endsWith y t b := by
  simp only [bulkBegin, h, endsWith]

theorem bulkBegin_stays (s y : State) (m n : BulkMove) (h : bulkPiece s m = (y, .inl n)) :
    bulkBegin s m = (updSub y m.entry.ring (fun q => { q with bulk := some n }), none) := by
  simp only [bulkBegin, h]

theorem cmdReadBlock_countBad (e : Entry) (s : State) (h : e.a1.toNat = 0 ∨ 4096 < e.a1.toNat) :
    cmdReadBlock e s = ends s .addrInvalid := if_pos (decide_eq_true h)

theorem cmdReadBlock_begins (e : Entry) (s : State) (h1 : 1 ≤ e.a1.toNat) (h2 : e.a1.toNat ≤ 4096) :
    cmdReadBlock e s = bulkBegin s ⟨false, e, 0, [], []⟩ := by
  simp only [cmdReadBlock, blockCountBad_eq_false _ h1 h2, Bool.false_eq_true, if_false]

theorem cmdWriteBlock_countBad (e : Entry) (buf : Buf) (s : State) (h : e.a1.toNat = 0 ∨ 4096 < e.a1.toNat) :
    cmdWriteBlock e buf s = ends s .addrInvalid := if_pos (decide_eq_true h)

theorem cmdWriteBlock_begins (e : Entry) (buf : Buf) (bs : List Byte) (s x : State) (h1 : 1 ≤ e.a1.toNat)
    (h2 : e.a1.toNat ≤ 4096) (hb : readBuffer s e 2 (4 * e.a1.toNat) buf = (some bs, x)) :
    cmdWriteBlock e buf s = bulkBegin x ⟨true, e, 0, bs, []⟩ := by
  simp only [cmdWriteBlock, blockCountBad_eq_false _ h1 h2, hb, Bool.false_eq_true, if_false]

theorem cmdWriteBlock_unread (e : Entry) (buf : Buf) (s x : State) (h1 : 1 ≤ e.a1.toNat)
    (h2 : e.a1.toNat ≤ 4096) (hb : readBuffer s e 2 (4 * e.a1.toNat) buf = (none, x)) :
    cmdWriteBlock e buf s = ends x .dmaError := by
  simp only [cmdWriteBlock, blockCountBad_eq_false _ h1 h2, hb, Bool.false_eq_true, if_false]

/-- R45: a write of a word of region RAM asks the word's bank for its store. -/
theorem writeParam_rram (s : State) (r : Fin 4) (w : Nat) (v : Word) (hw : w < 0x10000) :
    writeParam s .host (paOf (.rram r w)) v = (askBank s r w 8 (some v), .ok) := by
  rw [writeParam_send s .host (.rram r w) _ v hw rfl rfl, sendWrite_now s .host (.rram r w) _ v rfl]
  rfl

/-! ### Parameter accesses by the parameters' own conditions (R13, R32, R48, R293) -/

/-- A read of a parameter at an address that names it, without a captured word or a field that a read clears. -/
theorem readParam_at (s : State) (who : Requester) (pa : Nat) (l : PLoc) (i : PInfo) (ha : locate pa = some l)
    (hi : paramInfo l = some i) (hb : readBad s l = none) (hc : capOf s who l = none) (h0 : i.rc = 0) :
    readParam s who pa = ((readPlace s who l).1, (readPlace s who l).2, .ok) := by
  simp only [readParam, ha, hi, hb, hc, h0, readClear, if_true]

/-- R32: a read at an address that names a parameter of which a captured word is held. -/
theorem readParam_captured_at (s : State) (who : Requester) (pa : Nat) (l : PLoc) (i : PInfo) (w : Word)
    (ha : locate pa = some l) (hi : paramInfo l = some i) (hb : readBad s l = none) (hc : capOf s who l = some w) :
    readParam s who pa = (w, dropCap s who l, .ok) := by
  simp only [readParam, ha, hi, hb, hc]

theorem cmdReadParam_ok (e : Entry) (s y : State) (w : Word) (h : readParam s .host e.a0.toNat = (w, y, .ok)) :
    cmdReadParam e s = endsWith y .ok w := by
  simp only [cmdReadParam, h, if_true]

/-- R48: the counts of waits for the banks of a region are read and cleared whole. -/
theorem paramInfo_bankBusy (r : Fin 4) (k : Fin 8) : paramInfo (.region r (0x28 + k.val)) = pRC 0xFFFFFF := by
  revert k
  show ∀ k : Fin 8, infoRegion (0x28 + k.val) = _
  decide

theorem readPlace_bankBusy (s : State) (who : Requester) (r : Fin 4) (k : Fin 8) :
    readPlace s who (.region r (0x28 + k.val)) = (reg s (.region r (0x28 + k.val)), s) := by
  have := k.isLt
  show readRegion s who r _ = _
  unfold readRegion
  dsimp only
  repeat rw [if_neg (by omega)]

/-- R15, R48: a count that the tick does not touch is shown, and is then 0. -/
theorem readParam_bankBusy (s : State) (who : Requester) (r : Fin 4) (k : Fin 8)
    (hc : capOf s who (.region r (0x28 + k.val)) = none) (hf : freshKept s (.region r (0x28 + k.val)) = []) :
    readParam s who (paOf (.region r (0x28 + k.val))) =
      (reg s (.region r (0x28 + k.val)), setReg s (.region r (0x28 + k.val)) 0, .ok) := by
  have hl : PLoc.inArea (.region r (0x28 + k.val)) := show _ < 0x1000 by omega
  have hz (v : Word) : v &&& ~~~word 0xFFFFFF = 0 := by
    rw [show ~~~word 0xFFFFFF = 0 from rfl]
    exact BitVec.and_zero
  have hrc : word 0xFFFFFF ≠ 0 := by decide
  simp only [readParam, locate_paOf _ hl, paramInfo_bankBusy, pRC, pL, readBad, hc, readPlace_bankBusy, readClear, hf, hz, hrc,
    if_false]

/-! ### Words of block parameter RAM, one by one and in blocks (R293, R349) -/

theorem readParam_pram (s : State) (who : Requester) (b : Fin 32) (w : Nat) (hw : w < 0x2000)
    (he : eccBad s .paramRam b.val w = false) (hc : capOf s who (.pram b w .direct) = none) :
    readParam s who (paOf (.pram b w .direct)) = (pramSeen s b w true, s, .ok) :=
  readParam_place s who (.pram b w .direct) _ hw rfl (if_neg (Bool.eq_false_iff.mp he)) hc rfl

theorem writeParam_pram (s : State) (b : Fin 32) (w : Nat) (v : Word) (hw : w < 0x2000) :
    writeParam s .host (paOf (.pram b w .direct)) v = (addLate s 4 .host (.write 0 (.pram b w .direct) v), .ok) := by
  rw [writeParam_send s .host (.pram b w .direct) _ v hw rfl rfl, sendWrite_pram s .host b w .direct _ v rfl]
  rfl

theorem actBits_pram (b : Fin 32) (w : Nat) (hw : w < 0x2000) : actBits (paOf (.pram b w .direct)) = 0 := by
  rw [actBits, locate_paOf (.pram b w .direct) hw]
  rfl

theorem holdLow_pram (s : State) (b : Fin 32) (w : Nat) (v : Word) (hw : w < 0x2000) :
    holdLow s (paOf (.pram b w .direct)) v = s := by
  rw [holdLow, locate_paOf (.pram b w .direct) hw]
  rfl

theorem bulkRate_pram (b : Fin 32) (w : Nat) (hw : w < 0x2000) : bulkRate (paOf (.pram b w .direct)) = 4 := by
  rw [bulkRate, locate_paOf (.pram b w .direct) hw]

theorem paOf_pram_add (b : Fin 32) (w k : Nat) : paOf (.pram b w .direct) + k = paOf (.pram b (w + k) .direct) :=
  Nat.add_assoc ..

/-- R293: pairs of a WRITE_PARAMS that name words of parameter RAM pass their checks, and each commits its word. -/
theorem checkPairs_pram (s z : State) (k : Nat) (ps : List (Fin 32 × Nat × Word)) (h : ∀ p ∈ ps, p.2.1 < 0x2000) :
    checkPairs s z k (ps.map (fun p => (paOf (.pram p.1 p.2.1 .direct), p.2.2))) =
      .ok (ps.foldl (fun y p => addLate y 4 .host (.write 0 (.pram p.1 p.2.1 .direct) p.2.2)) z) := by
  induction ps generalizing z k with
  | nil => rfl
  | cons p t ih =>
    obtain ⟨hp, ht⟩ := List.forall_mem_cons.mp h
    rw [List.map_cons, checkPairs, writeParam_pram z p.1 p.2.1 p.2.2 hp, holdLow_pram s p.1 p.2.1 p.2.2 hp]
    exact ih _ _ ht

/-- R293: the bytes that a block read of `n` words of parameter RAM gives. -/
abbrev pramBytes (s : State) (b : Fin 32) (w n : Nat) : List Byte :=
  (List.range n).flatMap (fun k => leBytes (pramSeen s b (w + k) true).toNat 4)

/-- R353: `n` words of parameter RAM can be read without a fault, and none is captured for the host. -/
abbrev PramReadable (s : State) (b : Fin 32) (w n : Nat) : Prop :=
  ∀ k, k < n → eccBad s .paramRam b.val (w + k) = false ∧ capOf s .host (.pram b (w + k) .direct) = none

theorem readWords_pram (s : State) (b : Fin 32) (w n k : Nat) (acc : List Byte) (hw : w + k + n ≤ 0x2000)
    (h : PramReadable s b (w + k) n) :
    readWords n s (paOf (.pram b w .direct)) k acc = (acc ++ pramBytes s b (w + k) n, s, none) := by
  induction n generalizing k acc with
  | zero => simp [readWords]
  | succ n ih =>
    obtain ⟨he, hc⟩ := h 0 (by omega)
    have htail : PramReadable s b (w + (k + 1)) n := fun j hj => by
      rw [show w + (k + 1) + j = w + k + (j + 1) by omega]
      exact h (j + 1) (by omega)
    rw [readWords, paOf_pram_add, readParam_pram s .host b (w + k) (by omega) he hc]
    simp only [if_true]
    rw [ih (k + 1) _ (by omega) htail, wordBytes, List.append_assoc]
    congr 2
    simp only [pramBytes, List.range_succ_eq_map, List.flatMap_cons, List.flatMap_map, Nat.add_zero, Nat.succ_eq_add_one,
      Nat.add_assoc, Nat.add_comm 1]

/-- R293: the state after a block write has committed `n` words of parameter RAM from the bytes of its buffer. -/
abbrev pramCommitted (s : State) (b : Fin 32) (w n : Nat) (bs : List Byte) : State :=
  (List.range n).foldl (fun y k => addLate y 4 .host
    (.write 0 (.pram b (w + k) .direct) (word (leNat ((bs.drop (4 * k)).take 3))))) s

theorem writeWords_pram (s : State) (b : Fin 32) (w n k : Nat) (bs : List Byte) (hw : w + k + n ≤ 0x2000)
    (h : ∀ j, j < n → bs[4 * j + 3]? = some 0) :
    writeWords s (paOf (.pram b w .direct)) k (bs.take (4 * n)) = (pramCommitted s b (w + k) n bs, none) := by
  induction n generalizing s k bs with
  | zero => rfl
  | succ n ih =>
    match bs, h 0 (by omega) with
    | b0 :: b1 :: b2 :: b3 :: t, h3 =>
      obtain rfl : b3 = 0 := by simpa using h3
      have htail : ∀ j, j < n → t[4 * j + 3]? = some 0 := fun j hj => h (j + 1) (by omega)
      rw [show (b0 :: b1 :: b2 :: 0 :: t).take (4 * (n + 1)) = b0 :: b1 :: b2 :: 0 :: t.take (4 * n) from rfl, writeWords,
        paOf_pram_add, writeParam_pram s b (w + k) _ (by omega)]
      simp only [ne_eq, not_true_eq_false, if_false, if_true]
      rw [ih _ (k + 1) t (by omega) htail]
      simp only [pramCommitted, List.range_succ_eq_map, List.foldl_cons, List.foldl_map, Nat.add_assoc, Nat.add_comm 1]
      rfl

/-- R349: the words that a bulk command on parameter RAM moves in its first tick. -/
theorem firstPiece_pram (e : Entry) (b : Fin 32) (w : Nat) (ha : e.a0.toNat = paOf (.pram b w .direct)) (hw : w < 0x2000) :
    min (bulkRate (e.a0.toNat + 0)) (e.a1.toNat - 0) = min 4 e.a1.toNat := by
  rw [Nat.add_zero, Nat.sub_zero, ha, bulkRate_pram b w hw]

/-- R293, R349: a block read of words that move in one tick ends with its first piece. -/
theorem bulkPiece_reads_all (s : State) (e : Entry) (b : Fin 32) (w : Nat) (ha : e.a0.toNat = paOf (.pram b w .direct))
    (h1 : 1 ≤ e.a1.toNat) (h4 : e.a1.toNat ≤ 4) (hw : w + e.a1.toNat ≤ 0x2000) (hr : PramReadable s b w e.a1.toNat) :
    bulkPiece s ⟨false, e, 0, [], []⟩ = (writeBuffer s e 2 (pramBytes s b w e.a1.toNat), .inr (.ok, word e.a1.toNat)) := by
  have hk := (firstPiece_pram e b w ha (by omega)).trans (Nat.min_eq_right h4)
  simp only [bulkPiece, hk, Bool.false_eq_true, if_false]
  rw [ha, readWords_pram s b w _ 0 [] hw hr]
  simp

/-- R293, R349: a block read of more words keeps those that move in its first tick. -/
theorem bulkPiece_reads_first (s : State) (e : Entry) (b : Fin 32) (w : Nat) (ha : e.a0.toNat = paOf (.pram b w .direct))
    (h4 : 4 < e.a1.toNat) (hw : w + 4 ≤ 0x2000) (hr : PramReadable s b w 4) :
    bulkPiece s ⟨false, e, 0, [], []⟩ = (s, .inl ⟨false, e, 4, [], pramBytes s b w 4⟩) := by
  have hk := (firstPiece_pram e b w ha (by omega)).trans (Nat.min_eq_left (Nat.le_of_lt h4))
  simp only [bulkPiece, hk, Bool.false_eq_true, if_false]
  rw [ha, readWords_pram s b w 4 0 [] hw hr]
  simp only [if_neg (show ¬ e.a1.toNat ≤ 0 + 4 by omega), List.nil_append, Nat.zero_add, Nat.add_zero]

/-- R293, R349: a block write of words that move in one tick ends with its first piece. -/
theorem bulkPiece_writes_all (s : State) (e : Entry) (b : Fin 32) (w : Nat) (bs : List Byte)
    (ha : e.a0.toNat = paOf (.pram b w .direct)) (h1 : 1 ≤ e.a1.toNat) (h4 : e.a1.toNat ≤ 4) (hw : w + e.a1.toNat ≤ 0x2000)
    (hz : ∀ k, k < e.a1.toNat → bs[4 * k + 3]? = some 0) :
    bulkPiece s ⟨true, e, 0, bs, []⟩ = (pramCommitted s b w e.a1.toNat bs, .inr (.ok, word e.a1.toNat)) := by
  have hk := (firstPiece_pram e b w ha (by omega)).trans (Nat.min_eq_right h4)
  simp only [bulkPiece, hk, if_true]
  rw [ha, writeWords_pram s b w _ 0 bs hw hz]
  simp

/-- R282: a buffer that arrives gives its bytes and the state after its read. -/
theorem readBuffer_arrives (s : State) (e : Entry) (i n : Nat) (buf : Buf) (h : BufArrives e buf) :
    readBuffer s e i n buf = (some (bufBytes s e i n buf), bufAfter s e i n buf) := by
  have hs : (readBuffer s e i n buf).1.isSome = true := by
    unfold readBuffer
    rcases h with h | ⟨bs, rfl⟩
    · rw [if_pos h]
      rfl
    · split <;> rfl
  obtain ⟨bs, hbs⟩ := Option.isSome_iff_exists.mp hs
  rw [bufBytes, bufAfter, hbs, Option.getD_some, ← hbs]

/-! ### Host registers over the transports (R274 to R279) -/

theorem clockOn_of_hostUp {s : State} (h : hostUp s = true) : clockOn s = true := (Bool.and_eq_true_iff.mp h).1

/-- R277: a write of a register that belongs to no ring. -/
theorem writeHostReg_chip (s : State) (a : Nat) (v : Word32) (hu : hostUp s = true) (hm : s.sys.mode ≠ .boot)
    (hr : ringRegOf a = none) (hc : chipReg s a = true) : writeHostReg s a v = writeChipReg s a v := by
  rw [writeHostReg, if_neg (by simp [hu]), if_neg hm, hr]
  exact if_pos hc

theorem doHostRegisterWrite_word (s : State) (a : BitVec 16) (v : Word32) (hu : hostUp s = true) :
    doHostRegisterWrite a 4 v s = writeHostReg s a.toNat v := by
  rw [doHostRegisterWrite, if_neg (by simp [hu]), if_pos rfl]

/-- R276: an access of another size is refused as unmapped. -/
theorem doHostRegisterWrite_otherSize (s : State) (a : BitVec 16) (n : Nat) (v : Word32) (hu : hostUp s = true)
    (hm : s.sys.mode ≠ .boot) (hn : n ≠ 4) : doHostRegisterWrite a n v s = refuseAccess s 0 a.toNat 1 false := by
  rw [doHostRegisterWrite, if_neg (by simp [hu]), if_neg hn, if_neg hm]

/-- R277: a read of a register that belongs to no ring puts its value on the bus. -/
theorem doHostRead_chip (s : State) (a : Nat) (hu : hostUp s = true) (hm : s.sys.mode ≠ .boot) (hr : ringRegOf a = none)
    (hc : chipReg s a = true) :
    doHostRead a s = busOut (readChipReg s a).2 (.readData (leBytes (readChipReg s a).1.toNat 4)) := by
  have h : readHostReg s a = readChipReg s a := by
    rw [readHostReg, if_neg hm, hr]
    exact if_pos hc
  rw [doHostRead, if_neg (by simp [hu]), h]

theorem readChipReg_cmdLatMax (s : State) (h : hostKept s 0x07C = []) : readChipReg s 0x07C =
    (s.host.cmdLatMax.setWidth 32, { s with host := { s.host with cmdLatMax := 0 } }) := by
  simp [readChipReg, h, updHost]

/-- R15: a maximum that the present tick raised is read as it was before, and keeps what the tick brought. -/
theorem readChipReg_cmdLatMax_kept (s : State) (x : Fresh) (l : List Fresh) (h : hostKept s 0x07C = x :: l) :
    readChipReg s 0x07C = (x.old.setWidth 32, { s with host := { s.host with cmdLatMax := x.add } }) := by
  simp [readChipReg, h, updHost]

theorem bit_or_bit31 (v : Word32) : bit (v ||| 0x80000000) 31 = true := by simp [bit]

theorem bit_or_bit8 (v : Word32) : bit (v ||| 0x100) 8 = true := by simp [bit]

theorem writeVlogStat_clears (s : State) (v : Word32) (h : bit v 31 = true) :
    writeVlogStat s v = { s with host := { s.host with vlog := [], vlogLost := 0 } } := if_pos h

/-- R336, R339: IMAGE_READY in BOOT. -/
theorem writeHostReg_imageReady (s : State) (v : Word32) (hu : hostUp s = true) (hm : s.sys.mode = .boot) (h : bit v 8 = true) :
    writeHostReg s 0x024 v = imageReadySet { s with host := { s.host with hostCtrl := s.host.hostCtrl ||| 0x100 } } := by
  rw [writeHostReg, if_neg (by simp [hu]), if_pos hm, if_pos rfl, writeHostCtrl, if_pos hm, if_pos h]
  rfl

theorem writeHostCtrl_running (s : State) (v : Word32) (hm : s.sys.mode ≠ .boot) :
    writeHostCtrl s v = { s with host := { s.host with hostCtrl := v &&& 0x11F } } := if_neg hm

/-! ### Ring memory as the host writes it (R273, R276, R352) -/

/-- R352: bytes stored where no word of ring memory has bad check bits. -/
theorem hostRingStore_good (s : State) (a : Nat) (bs : List Byte) (h : s.mem.ecc = []) :
    hostRingStore s a bs = setRingBytes s a bs := by
  have he : (setRingBytes s a bs).mem.ecc = [] := by rw [setRingBytes_frame, h]
  have hr : ringStore s a bs = setRingBytes s a bs := by
    unfold ringStore
    simp only [he, List.filter_nil]
    rw [← he]
  simp only [hostRingStore, hr, he, List.filter_nil, List.foldl_nil]

theorem writeRingMem_stores (s : State) (a : Nat) (bs : List Byte) (hu : hostUp s = true) (hb : bs ≠ []) (ha : 0x10000 ≤ a) :
    writeRingMem s a bs = hostRingStore s a (bs.take (0x200000 - a)) := by
  simp only [writeRingMem, hu, List.isEmpty_eq_false_iff.mpr hb, Bool.not_true, Bool.or_self, Bool.false_eq_true, if_false,
    if_neg (Nat.not_lt.mpr ha)]

/-- R276: a write that touches the device area is refused. -/
theorem writeRingMem_guarded (s : State) (a : Nat) (bs : List Byte) (hu : hostUp s = true) (hb : bs ≠ []) (ha : a < 0x10000) :
    writeRingMem s a bs = refuseAccess s 1 a 1 true := by
  simp only [writeRingMem, hu, List.isEmpty_eq_false_iff.mpr hb, Bool.not_true, Bool.or_self, Bool.false_eq_true, if_false,
    if_pos ha]

theorem doHostRingMemWrite_pcie (s : State) (off : BitVec 21) (bs : List Byte) (h : overSpi s = false) :
    doHostRingMemWrite off bs s = writeRingMem s off.toNat bs := by simp [doHostRingMemWrite, h]

/-! ### SPI frames (R274, R275) -/

theorem doSpiWrite_registers (s : State) (a : Word) (bs : List Byte) (hu : hostUp s = true) (hp : overSpi s = true)
    (ha : a.toNat < 0x1000) (h4 : a.toNat % 4 = 0) : doSpiWrite a bs s = spiRegWrites s a.toNat bs := by
  simp only [doSpiWrite, hu, hp, Bool.not_true, Bool.or_self, Bool.false_eq_true, if_false, if_pos ha, if_pos h4]

theorem doSpiWrite_ringMem (s : State) (a : Word) (bs : List Byte) (hu : hostUp s = true) (hp : overSpi s = true)
    (ha : 0x200000 ≤ a.toNat) (hl : a.toNat + bs.length ≤ 0x400000) (hb : bs ≠ []) :
    doSpiWrite a bs s = writeRingMem s (a.toNat - 0x200000) bs := by
  have hlen := List.length_pos_iff.mpr hb
  simp only [doSpiWrite, hu, hp, Bool.not_true, Bool.or_self, Bool.false_eq_true, if_false]
  rw [if_neg (by omega), if_pos (by omega), if_neg (by omega)]

theorem doSpiRead_ringMem (s : State) (a : Word) (n : Nat) (hu : hostUp s = true) (hp : overSpi s = true)
    (ha : 0x200000 ≤ a.toNat) (hl : a.toNat + n ≤ 0x400000) (hn : 1 ≤ n) : doSpiRead a n s =
      busOut (readRingMem (busOut s (.status (spiStatus s))) (a.toNat - 0x200000) n).2
        (.readData (((readRingMem (busOut s (.status (spiStatus s))) (a.toNat - 0x200000) n).1 ++
          List.replicate n 0).take n)) := by
  simp only [doSpiRead, hu, hp, Bool.not_true, Bool.or_self, Bool.false_eq_true, if_false]
  rw [if_neg (by omega), if_pos (by omega), Nat.min_eq_left (by omega), if_neg (by omega)]

theorem doReadStatus_spi (s : State) (hu : hostUp s = true) (hp : overSpi s = true) : doReadStatus s =
    { busOut s (.status (spiStatus s)) with host := { (busOut s (.status (spiStatus s))).host with spiSticky := 0 } } := by
  rw [doReadStatus, if_neg (by simp [clockOn_of_hostUp hu, hp])]
  rfl

/-! ### Rows of the host interface (R272, R277, R287, R289, R293, R297, R298, R319) -/

theorem supervisor_powered {s : State} (ha : alive s = true) (hm : s.sys.mode ≠ .powerFail) :
    (alive s && decide (s.sys.mode ≠ .powerFail)) = true := by simp [ha, hm]

theorem doRecordPost_takes (s : State) (p : Placed) (l : List Placed) (hp : postingOn s = true) (ha : s.host.arb = p :: l) :
    doRecordPost s = arrive { s with host := { s.host with arb := l } } p.ring p.body := by
  rw [doRecordPost, if_neg (by simp [hp]), ha]
  rfl

theorem doIrqHoldoff_fires (s : State) (r : Fin 16) (t : Nat) (ho : s.host.evts[r].oldest = some t) (hp : postingOn s = true)
    (he : eqOn s r = true) (hi : bit (eqCfg s r) 24 = true) (hf : fld (eqCfg s r) 11 0 ≠ 0)
    (ht : s.host.evts[r].tail ≠ s.host.evts[r].irqTail) (hd : t + 800 * fld (eqCfg s r) 11 0 ≤ s.time.tick) :
    doIrqHoldoff r s = fireIrq s r := by
  simp only [doIrqHoldoff, ho]
  exact if_pos (by simpa [hp, he, hi, hf, hd] using ht)

theorem doHostTimeout_due (s : State) (ha : alive s = true) (hp : s.sys.mode ≠ .powerFail) (hh : s.sys.mode ≠ .halt)
    (ho : s.host.sessionOpen = true) (hw : s.host.watchdogMs.toNat ≠ 0)
    (hd : s.host.watchdogFrom + s.host.watchdogMs.toNat * msTicks s ≤ s.time.tick) : doHostTimeout s =
      report { s with host := { s.host with sessionOpen := false, watchdogMs := 0, hostLost := true } } 0x2E .chip
        s.host.watchdogMs.toNat false := by
  rw [doHostTimeout]
  exact if_pos (by simp [ha, hp, hh, ho, hw, hd])

theorem doDivergence_inService (s : State) (ram : Bool) (ha : alive s = true) (hm : s.sys.mode ≠ .powerFail)
    (hh : s.sup.halted = false) (ho : s.sup.out = none) :
    doDivergence ram s = supervisorOut s (if ram then .ramError else .divergence) := by
  rw [doDivergence, supervisor_powered ha hm, hh, if_neg (by decide), ho, if_pos (by rfl)]

/-- R297, R319: the restarted supervisor, where no record of its restarts is asked for. -/
theorem doRestartDone_unrecorded (s : State) (t : Nat) (c : SupCause) (ho : s.sup.out = some (t, c)) (ha : alive s = true)
    (hm : s.sys.mode ≠ .powerFail) (hr : bit s.host.hostCtrl 4 = false) : doRestartDone s =
      report (dutyAdd (raiseIrq (updHost ((List.finRange 16).foldl refetch { s with sup := { s.sup with out := none } })
        (fun h => { h with supRestarts := BitVec.ofNat 16 (satAdd 16 s.host.supRestarts.toNat 1) })) 5) 5 1) 0x08 .chip
        (if c = .divergence then 0 else 1) false := by
  simp only [doRestartDone, ho, supervisor_powered ha hm, hr, Bool.not_true, Bool.false_eq_true, if_false]

theorem doSupLockstep_overdue (s : State) (ha : alive s = true) (hm : s.sys.mode ≠ .powerFail) (ho : s.sup.out.isSome = true)
    (hd : s.sup.restart + 32000 < s.time.tick) :
    doSupLockstep s = report { s with sup := { s.sup with restart := s.time.tick } } 0x29 .chip 1 false :=
  if_pos (by simp [ha, hm, ho, hd])

theorem doHotReset_pcie (s : State) (hu : hostUp s = true) (hp : overSpi s = false) : doHotReset s =
    setHreg (updHost (closeSession ((List.finRange 16).foldl
      (fun y r => writeEqCfg (writeSqCfg y r (sqCfg y r &&& 0x7FFFFFFF)) r (eqCfg y r &&& 0x7FFFFFFF)) s)) (fun h =>
        { h with hostCtrl := 0, busMaster := false, msixFnMask := false, msixMask := 0xFFFFFFFF, msixPend := 0,
                 hregs := h.hregs.filter (fun p => decide (p.1 < 0x2000)) })) 0x044 0 := if_neg (by simp [hu, hp])

theorem doBusMaster_pcie (s : State) (hu : hostUp s = true) (hp : overSpi s = false) : doBusMaster s =
    (List.finRange 16).foldl drainAll (sendPending (updHost s (fun h => { h with busMaster := true }))) :=
  if_neg (by simp [hu, hp])

theorem doUnmask_vector (s : State) (v : Fin 32) (hu : hostUp s = true) (hp : overSpi s = false) : doUnmask (some v) s =
    sendPending (updHost s (fun h => { h with msixMask := h.msixMask &&& ~~~(BitVec.ofNat 32 (2 ^ v.val)) })) :=
  if_neg (by simp [hu, hp])

theorem doUnmask_function (s : State) (hu : hostUp s = true) (hp : overSpi s = false) : doUnmask none s =
    sendPending (updHost s (fun h => { h with msixFnMask := false })) := if_neg (by simp [hu, hp])

end Sys2Proof.Machine
end

section
/-!
PROOFS. The obligations of 10_mailbox_interface.md.
-/
namespace Sys2Proof.Machine

/-- Settles O41: the write is a store of its bytes, and what follows a command leaves memories, parameters and units. -/
theorem hostBytesStored : Obligations.HostBytesStored := by
  unfold Obligations.HostBytesStored
  intro off bs s hu hp ha hb hlen hr he hw
  obtain ⟨hwf, hframe, hbytes⟩ := setRingBytes_ring bs s off.toNat hw
  have hr' : (setRingBytes s off.toNat bs).flt.reports = [] := by rw [hframe]; exact hr
  have hstore : doHostRingMemWrite off bs s = setRingBytes s off.toNat bs := by
    rw [doHostRingMemWrite_pcie s off bs hp, writeRingMem_stores s _ bs hu hb ha, List.take_of_length_le (by omega),
      hostRingStore_good s _ bs he]
  refine ⟨_, run_of_eq hstore, fun a h => ?_, ?_, ?_, ?_, ?_⟩
  · rw [← hbytes a h, ringByte, settle_mem _ hr', ringByte]
  · rwa [settle_mem _ hr']
  · rw [settle_mem _ hr', hframe]
  · refine SameUnits.trans ?_ (settle_same _ hr')
    rw [hframe]
    exact SameUnits.refl s
  · rw [settle_par_frame _ hr', hframe]

/-- Settles O43: a completion moves its counts, its record and its status slot, and nothing else. -/
theorem completionFrame : Obligations.CompletionFrame := by
  unfold Obligations.CompletionFrame
  intro s op e t b h
  obtain ⟨_, _, _, _, _, _, _, _, _, _, hc⟩ := complete_frame s op e t b
  rw [logCommand_unlogged s op e t b h] at hc
  refine ⟨complete_done s op e t b, complete_cmdCount s op e t b h, fun hq => ?_, ?_⟩
  · refine ⟨_, (complete_arb s op e t b h hq).symm ▸ placeRec_mem _ _, ?_⟩
    exact ⟨rfl, rfl, rfl, rfl, rfl, rfl⟩
  · rw [hc]
    exact ⟨SameUnits.refl s, rfl, rfl, rfl, rfl⟩

/-- Settles O54: each access is the read or the writes of its words, which nothing in their conditions refuses. -/
theorem parameterAccessCompletes : Obligations.ParameterAccessCompletes := by
  unfold Obligations.ParameterAccessCompletes
  refine ⟨?_, ?_, ?_, ?_, ?_, ?_, ?_, ?_⟩
  · intro e l i s z h ha hi hb hc h0
    exact cmdRun_ends _ 0x10 e (cmdReadParam e) s z _ _ _ h
      (cmdReadParam_ok e z _ _ (readParam_at z .host _ l i ha hi hb hc h0))
  · intro e l i v s z h ha hi hb hc
    exact cmdRun_ends _ 0x10 e (cmdReadParam e) s z _ _ _ h
      (cmdReadParam_ok e z _ _ (readParam_captured_at z .host _ l i v ha hi hb hc))
  · intro e r k s z h ha hc hf
    exact cmdRun_ends _ 0x10 e (cmdReadParam e) s z _ _ _ h
      (cmdReadParam_ok e z _ _ (ha ▸ readParam_bankBusy z .host r k hc hf))
  · intro e b w s z h hw ha he hc
    have hm (v : Word) : modified e v = (v &&& ~~~e.a1) ||| (e.a2 &&& e.a1) := by
      rw [modified, ha, actBits_pram b w hw, show (0 : Word) &&& ~~~e.a1 = 0 from BitVec.zero_and]
      exact BitVec.and_allOnes
    refine cmdRun_ends _ 0x12 e (cmdModifyParam e) s z _ _ _ h (cmdModifyParam_writes e _ z z _ ?_ ?_)
    · rw [ha, readParam_pram z .host b w hw he hc]
    · rw [hm, ha, writeParam_pram z b w _ hw]
  · intro e ps s z h hn hps hw
    exact cmdRun_ends _ 0x13 e (cmdWriteParams e) s z _ _ _ h
      (cmdWriteParams_all e z _ hn (by rw [writePairs, hps, checkPairs_pram z z 0 ps hw]))
  · intro e b w s z h h1 h4 hw ha hr
    exact cmdRun_ends _ 0x14 e (cmdReadBlock e) s z _ _ _ h ((cmdReadBlock_begins e z h1 (by omega)).trans
      (bulkBegin_ends z _ _ _ _ (bulkPiece_reads_all z e b w ha h1 h4 hw hr)))
  · intro e b w s z h h4 hn hw ha hr
    exact cmdRun_stays _ 0x14 e (cmdReadBlock e) s z _ h ((cmdReadBlock_begins e z (by omega) hn).trans
      (bulkBegin_stays z _ _ _ (bulkPiece_reads_first z e b w ha h4 hw hr)))
  · intro e buf b w s z h h1 h4 hw ha hb hz
    exact cmdRun_ends _ 0x15 e (cmdWriteBlock e buf) s z _ _ _ h
      ((cmdWriteBlock_begins e buf _ z _ h1 (by omega) (readBuffer_arrives z e 2 _ buf hb)).trans
        (bulkBegin_ends _ _ _ _ _ (bulkPiece_writes_all _ e b w _ ha h1 h4 hw hz)))

/-- Settles O6: each command is its own check and what it does to the session or to its ring. -/
theorem sessionCommandsComplete : Obligations.SessionCommandsComplete := by
  unfold Obligations.SessionCommandsComplete
  refine ⟨?_, ?_, ?_, ?_, ?_, ?_, ?_⟩
  · exact fun e s z h hv ho => cmdRun_ends _ 0x01 e (cmdOpenSession e) s z _ _ _ h (cmdOpenSession_opens e z hv ho)
  · exact fun e s z h hv => cmdRun_ends _ 0x01 e (cmdOpenSession e) s z _ _ _ h (if_pos hv)
  · exact fun e s z h hv ho hk => cmdRun_ends _ 0x01 e (cmdOpenSession e) s z _ _ _ h (cmdOpenSession_busy e z hv ho hk)
  · exact fun e s z h => cmdRun_ends _ 0x02 e cmdCloseSession s z _ _ _ h rfl
  · exact fun e s z h => cmdRun_ends _ 0x03 e (cmdEchoWord e) s z _ _ _ h rfl
  · exact fun e s z h hd => cmdRun_ends _ 0x04 e (cmdWaitUntil e) s z _ _ _ h (cmdWaitUntil_come e z hd)
  · exact fun e s z h hd => cmdRun_stays _ 0x04 e (cmdWaitUntil e) s z _ h (cmdWaitUntil_holds e z hd)

/-- Settles O7: each command is its reads and writes of parameters, or the first piece of its block. -/
theorem parameterCommandsComplete : Obligations.ParameterCommandsComplete := by
  unfold Obligations.ParameterCommandsComplete
  refine ⟨?_, ?_, ?_, ?_, ?_, ?_, ?_, ?_, ?_, ?_, ?_, ?_, ?_, ?_, ?_⟩
  · intro e w y t s z h hr
    exact cmdRun_ends _ 0x10 e (cmdReadParam e) s z _ _ _ h (by simp only [cmdReadParam, hr, endsWith])
  · intro e y t s z h hw
    exact cmdRun_ends _ 0x11 e (cmdWriteParam e) s z _ _ _ h (by rw [cmdWriteParam, hw]; rfl)
  · intro e r w s z h hw ha
    refine cmdRun_ends _ 0x11 e (cmdWriteParam e) s z _ _ _ h ?_
    rw [cmdWriteParam, ha]
    exact congrArg endsAs (writeParam_rram z r w e.a1 hw)
  · exact fun e v x y s z h hr hw =>
      cmdRun_ends _ 0x12 e (cmdModifyParam e) s z _ _ _ h (cmdModifyParam_writes e v z x y hr hw)
  · exact fun e x y v t s z h hr hw ht =>
      cmdRun_ends _ 0x12 e (cmdModifyParam e) s z _ _ _ h (cmdModifyParam_refused e v z x y t hr hw ht)
  · exact fun e s z h hn => cmdRun_ends _ 0x13 e (cmdWriteParams e) s z _ _ _ h (if_pos hn)
  · exact fun e y s z h hn hc => cmdRun_ends _ 0x13 e (cmdWriteParams e) s z _ _ _ h (cmdWriteParams_all e z y hn hc)
  · exact fun e k t y s z h hn hc =>
      cmdRun_ends _ 0x13 e (cmdWriteParams e) s z _ _ _ h (cmdWriteParams_refused e z y k t hn hc)
  · exact fun e s z h hn => cmdRun_ends _ 0x14 e (cmdReadBlock e) s z _ _ _ h (cmdReadBlock_countBad e z hn)
  · exact fun e y m s z h h1 h2 hp => cmdRun_stays _ 0x14 e (cmdReadBlock e) s z _ h
      ((cmdReadBlock_begins e z h1 h2).trans (bulkBegin_stays z y _ m hp))
  · exact fun e y t b s z h h1 h2 hp => cmdRun_ends _ 0x14 e (cmdReadBlock e) s z _ _ _ h
      ((cmdReadBlock_begins e z h1 h2).trans (bulkBegin_ends z y _ t b hp))
  · exact fun e buf s z h hn => cmdRun_ends _ 0x15 e (cmdWriteBlock e buf) s z _ _ _ h (cmdWriteBlock_countBad e buf z hn)
  · exact fun e buf bs x y m s z h h1 h2 hb hp => cmdRun_stays _ 0x15 e (cmdWriteBlock e buf) s z _ h
      ((cmdWriteBlock_begins e buf bs z x h1 h2 hb).trans (bulkBegin_stays x y _ m hp))
  · exact fun e buf bs x y t b s z h h1 h2 hb hp => cmdRun_ends _ 0x15 e (cmdWriteBlock e buf) s z _ _ _ h
      ((cmdWriteBlock_begins e buf bs z x h1 h2 hb).trans (bulkBegin_ends x y _ t b hp))
  · exact fun e buf x s z h h1 h2 hb => cmdRun_ends _ 0x15 e (cmdWriteBlock e buf) s z _ _ _ h
      (cmdWriteBlock_unread e buf z x h1 h2 hb)

/-- Settles O17: each row is a host-register access that nothing refuses, or one of a size that is refused. -/
theorem hostRegisterRowsComplete : Obligations.HostRegisterRowsComplete := by
  unfold Obligations.HostRegisterRowsComplete
  refine ⟨?_, ?_, ?_, ?_, ?_, ?_, ?_, ?_, ?_⟩
  · exact fun v s hu hm =>
      run_of_eq ((doHostRegisterWrite_word s 0x02C v hu).trans (writeHostReg_chip s 0x02C v hu hm rfl rfl))
  · exact fun v s hu hm =>
      run_of_eq ((doHostRegisterWrite_word s 0x040 v hu).trans (writeHostReg_chip s 0x040 v hu hm rfl rfl))
  · exact fun a n v s hu hm hn => run_of_eq (doHostRegisterWrite_otherSize s a n v hu hm hn)
  · exact fun v s hu hm => run_of_eq ((writeHostReg_chip s 0x060 _ hu hm rfl rfl).trans
      (writeVlogStat_clears s _ (bit_or_bit31 v)))
  · exact fun s hu hm => run_of_eq (doHostRead_chip s 0x030 hu hm rfl rfl)
  · intro s hu hm hk
    refine run_of_eq ((doHostRead_chip s 0x07C hu hm rfl rfl).trans ?_)
    rw [readChipReg_cmdLatMax s hk]
  · intro x l s hu hm hk
    refine run_of_eq ((doHostRead_chip s 0x07C hu hm rfl rfl).trans ?_)
    rw [readChipReg_cmdLatMax_kept s x l hk]
  · exact fun v s hu hm => run_of_eq (writeHostReg_imageReady s _ hu hm (bit_or_bit8 v))
  · exact fun v s hu hm => run_of_eq ((writeHostReg_chip s 0x024 _ hu hm rfl rfl).trans (writeHostCtrl_running s _ hm))

/-- Settles O18: each row is an access over its transport, of registers or of ring memory. -/
theorem busRowsComplete : Obligations.BusRowsComplete := by
  unfold Obligations.BusRowsComplete
  refine ⟨?_, ?_, ?_, ?_, ?_, ?_⟩
  · exact fun a bs s hu hp ha h4 => run_of_eq (doSpiWrite_registers s a bs hu hp ha h4)
  · exact fun a bs s hu hp ha hl hb => run_of_eq (doSpiWrite_ringMem s a bs hu hp ha hl hb)
  · exact fun a n s hu hp ha hl hn => run_of_eq (doSpiRead_ringMem s a n hu hp ha hl hn)
  · exact fun s hu hp => run_of_eq (doReadStatus_spi s hu hp)
  · exact fun off bs s hu hp ha hb =>
      run_of_eq ((doHostRingMemWrite_pcie s off bs hp).trans (writeRingMem_stores s _ bs hu hb ha))
  · exact fun off bs s hu hp ha hb =>
      run_of_eq ((doHostRingMemWrite_pcie s off bs hp).trans (writeRingMem_guarded s _ bs hu hb ha))

/-- Settles O19: each row is what it does once its conditions hold. -/
theorem hostEventRowsComplete : Obligations.HostEventRowsComplete := by
  unfold Obligations.HostEventRowsComplete
  refine ⟨?_, ?_, ?_, ?_, ?_, ?_, ?_, ?_, ?_, ?_, ?_⟩
  · rintro _ s hu hp rfl
    exact run_of_eq (doHotReset_pcie s hu hp)
  · exact fun p l s hp ha => run_of_eq (doRecordPost_takes s p l hp ha)
  · exact fun r t s ho hp he hi hf ht hd => run_of_eq (doIrqHoldoff_fires s r t ho hp he hi hf ht hd)
  · exact fun s hs => run_of_eq (if_pos hs)
  · exact fun s ha hp hh ho hw hd => run_of_eq (doHostTimeout_due s ha hp hh ho hw hd)
  · exact fun ram s ha hm hh ho => run_of_eq (doDivergence_inService s ram ha hm hh ho)
  · exact fun t c s ho ha hm hr => run_of_eq (doRestartDone_unrecorded s t c ho ha hm hr)
  · exact fun s ha hm ho hd => run_of_eq (doSupLockstep_overdue s ha hm ho hd)
  · exact fun s hu hp => run_of_eq (doBusMaster_pcie s hu hp)
  · exact fun v s hu hp => run_of_eq (doUnmask_vector s v hu hp)
  · exact fun s hu hp => run_of_eq (doUnmask_function s hu hp)

/-- Settles O36: the fields are little-endian bytes side by side, Type the last. -/
theorem recordLayout : Obligations.RecordLayout := by
  unfold Obligations.RecordLayout
  exact fun r q => ⟨recBytes_length r q, recBytes_last r q, leNat_recBytes r q⟩

end Sys2Proof.Machine
end

section
/-!
SUPPORT. What 11_faults_and_recovery.md comes to in the model: a freed slot and the record of lost faults, the acknowledgement of
one slot and of all, the checks of the fault commands, and the rows of the fault collector.
-/
namespace Sys2Proof.Machine

/-! ### Freed slots and lost faults (R301) -/

@[simp] theorem updFlt_flt (s : State) (f : Collector → Collector) : (updFlt s f).flt = f s.flt := rfl

@[simp] theorem histUpdate_flt (s : State) (r : Rec) (f : HistEntry → HistEntry) : (histUpdate s r f).flt = s.flt := rfl

@[simp] theorem histUpdate_sys (s : State) (r : Rec) (f : HistEntry → HistEntry) : (histUpdate s r f).sys = s.sys := rfl

@[simp] theorem emitFault_flt (s : State) (r : Rec) : (emitFault s r).flt = { s.flt with seq := s.flt.seq + 1 } := by
  simp [emitFault]

@[simp] theorem emitFault_sys (s : State) (r : Rec) : (emitFault s r).sys = s.sys := by simp [emitFault]

/-- R300, R301: a COLLECTOR_OVF report always gives one record, of the state with perhaps its class counted. -/
theorem takeReport_collectorOvf (s : State) (r : Report) (hr : r.cls = 0x0A) :
    ∃ z b, takeReport s r = emitFault z b ∧ z.flt = s.flt ∧ z.sys = s.sys := by
  have hc : r.cls.toNat = 0x0A := by rw [hr]; rfl
  unfold takeReport
  cases causeOf s r with
  | some w => exact ⟨s, _, by simp [hc]; rfl, rfl, rfl⟩
  | none => exact ⟨bump s (.faults (0x80 + r.cls.toNat)) 23 0 1, _, by simp [hc]; rfl, rfl, rfl⟩

/-- R301: with no fault lost, a freed slot is all that changes. -/
theorem freeSlotOf_noneLost (s : State) (k : Fin 64) (h : s.flt.lostSince = 0) :
    freeSlotOf s k = updFlt s (fun c => { c with slots := c.slots.set k none }) := if_pos h

/-- R301: the record of lost faults touches neither slots nor scopes nor the mode. -/
theorem freeSlotOf_leaves (s : State) (k : Fin 64) :
    (freeSlotOf s k).flt.slots = s.flt.slots.set k none ∧ (freeSlotOf s k).flt.scopes = s.flt.scopes ∧
      (freeSlotOf s k).sys = s.sys := by
  by_cases h : s.flt.lostSince = 0
  · rw [freeSlotOf_noneLost s k h]
    exact ⟨rfl, rfl, rfl⟩
  · obtain ⟨z, b, hz, hf, hs⟩ := takeReport_collectorOvf
      (updFlt (updFlt s (fun c => { c with slots := c.slots.set k none })) (fun c => { c with lostSince := 0 }))
      ⟨0x0A, .chip, word (min 0xFFFFFF s.flt.lostSince), false, s.time.tick, now s⟩ rfl
    have hfree : freeSlotOf s k = emitFault z b := (if_neg h).trans hz
    simp [hfree, hf, hs]

/-! ### Acknowledging a slot (R303) -/

theorem ackSlot_free (s : State) (k : Fin 64) (h : s.flt.slots[k] = none) : ackSlot s k = (s, 0) := by
  simp only [ackSlot, h]

theorem ackSlot_acked (s : State) (k : Fin 64) (f : OpenFault) (h : s.flt.slots[k] = some f) (ha : f.acked.isSome = true) :
    ackSlot s k = (s, 0) := by
  simp only [ackSlot, h, ha, if_true]

theorem ackSlot_open (s : State) (k : Fin 64) (f : OpenFault) (h : s.flt.slots[k] = some f) (ha : f.acked = none)
    (hc : f.closed = none) : ackSlot s k = (updFlt (histUpdate s f.body (fun h => { h with acked := some (now s) }))
      (fun c => { c with slots := c.slots.set k (some { f with acked := some (now s) }) }), 1) := by
  simp only [ackSlot, h, ha, hc, Option.isSome_none, Bool.false_eq_true, if_false]

theorem ackSlot_closed (s : State) (k : Fin 64) (f : OpenFault) (h : s.flt.slots[k] = some f) (ha : f.acked = none)
    (hc : f.closed.isSome = true) :
    ackSlot s k = (freeSlotOf (histUpdate s f.body (fun h => { h with acked := some (now s) })) k, 1) := by
  simp only [ackSlot, h, ha, hc, Option.isSome_none, Bool.false_eq_true, if_false, if_true]

/-- R303: a slot holds an unacknowledged fault, open or closed. -/
def unackedAt (s : State) (k : Fin 64) : Bool :=
  match s.flt.slots[k] with
  | some f => !f.acked.isSome
  | none => false

/-- What an acknowledgement keeps: fault states and latches of the scopes, the mode, and, with no fault lost, all but the fault
history and the collector. -/
structure AckKeeps (s t : State) : Prop where
  scopes : t.flt.scopes = s.flt.scopes
  sys : t.sys = s.sys
  noneLost : s.flt.lostSince = 0 → t.flt.lostSince = 0 ∧ t = { s with life := t.life, flt := t.flt }

theorem AckKeeps.refl (s : State) : AckKeeps s s := ⟨rfl, rfl, fun h => ⟨h, rfl⟩⟩

theorem AckKeeps.trans {s t u : State} (h : AckKeeps s t) (g : AckKeeps t u) : AckKeeps s u where
  scopes := g.scopes.trans h.scopes
  sys := g.sys.trans h.sys
  noneLost hs := by
    obtain ⟨ht, het⟩ := h.noneLost hs
    obtain ⟨hu, heu⟩ := g.noneLost ht
    exact ⟨hu, by rw [heu, het]⟩

/-- With no fault lost an acknowledgement leaves units, registers, memories and records as they were. -/
theorem AckKeeps.frame {s t : State} (h : AckKeeps s t) : t.flt.scopes = s.flt.scopes ∧ t.sys = s.sys ∧
    (s.flt.lostSince = 0 → SameUnits { s with life := t.life } t ∧ t.par = s.par ∧ t.mem = s.mem ∧ t.host = s.host) := by
  refine ⟨h.scopes, h.sys, fun hs => ?_⟩
  rw [(h.noneLost hs).2]
  simp [SameUnits]

theorem histUpdate_keeps (s : State) (r : Rec) (f : HistEntry → HistEntry) : AckKeeps s (histUpdate s r f) :=
  ⟨rfl, rfl, fun h => ⟨h, rfl⟩⟩

theorem setSlot_keeps (s : State) (k : Fin 64) (v : Option OpenFault) :
    AckKeeps s (updFlt s (fun c => { c with slots := c.slots.set k v })) := ⟨rfl, rfl, fun h => ⟨h, rfl⟩⟩

theorem freeSlotOf_keeps (s : State) (k : Fin 64) : AckKeeps s (freeSlotOf s k) where
  scopes := (freeSlotOf_leaves s k).2.1
  sys := (freeSlotOf_leaves s k).2.2
  noneLost h := by
    rw [freeSlotOf_noneLost s k h]
    exact (setSlot_keeps s k none).noneLost h

/-- R301, R303: what acknowledging one slot does: it counts an unacknowledged fault, touches no other slot, and ends no fault
state. -/
theorem ackSlot_effect (s : State) (k : Fin 64) :
    (ackSlot s k).2 = (unackedAt s k).toNat ∧ (∀ j, j ≠ k → (ackSlot s k).1.flt.slots[j] = s.flt.slots[j]) ∧
      AckKeeps s (ackSlot s k).1 := by
  have hset : ∀ (v : Option OpenFault) (j : Fin 64), j ≠ k → (s.flt.slots.set k v)[j] = s.flt.slots[j] :=
    fun v j hj => Vector.getElem_set_ne _ _ (fun hv => hj (Fin.ext hv.symm))
  cases hk : s.flt.slots[k] with
  | none =>
    rw [ackSlot_free s k hk]
    exact ⟨by simp only [unackedAt, hk]; rfl, fun _ _ => rfl, .refl s⟩
  | some f =>
    cases ha : f.acked with
    | some t =>
      rw [ackSlot_acked s k f hk (by rw [ha]; rfl)]
      exact ⟨by simp only [unackedAt, hk, ha]; rfl, fun _ _ => rfl, .refl s⟩
    | none =>
      have hu : unackedAt s k = true := by simp only [unackedAt, hk, ha]; rfl
      rw [hu]
      cases hc : f.closed with
      | none =>
        rw [ackSlot_open s k f hk ha hc]
        exact ⟨rfl, hset _, (histUpdate_keeps s _ _).trans (setSlot_keeps _ k _)⟩
      | some t =>
        rw [ackSlot_closed s k f hk ha (by rw [hc]; rfl)]
        refine ⟨rfl, fun j hj => ?_, (histUpdate_keeps s _ _).trans (freeSlotOf_keeps _ k)⟩
        dsimp only
        rw [(freeSlotOf_leaves _ k).1]
        exact hset _ j hj

/-! ### Acknowledging all slots (R303) -/

/-- R303: one slot of ALL = 1: its acknowledgement, added to the count. -/
def ackNext (z : State × Nat) (k : Fin 64) : State × Nat := ((ackSlot z.1 k).1, z.2 + (ackSlot z.1 k).2)

/-- R303: distinct slots count as they were at first, since no acknowledgement touches another slot. -/
theorem foldl_ackNext_count (l : List (Fin 64)) (hl : l.Nodup) (s : State) (n : Nat) :
    (l.foldl ackNext (s, n)).2 = n + l.countP (unackedAt s) := by
  induction l generalizing s n with
  | nil => rfl
  | cons k t ih =>
    obtain ⟨hk, ht⟩ := List.nodup_cons.mp hl
    obtain ⟨hcount, hother, -⟩ := ackSlot_effect s k
    have hsame : t.countP (unackedAt (ackSlot s k).1) = t.countP (unackedAt s) :=
      List.countP_congr fun j hj => by
        simp only [unackedAt, hother j (fun hjk => hk (hjk ▸ hj))]
    rw [List.foldl_cons, ackNext, ih ht, hsame, hcount, List.countP_cons]
    cases unackedAt s k <;> simp
    omega

theorem foldl_ackNext_keeps (l : List (Fin 64)) (s : State) (n : Nat) : AckKeeps s (l.foldl ackNext (s, n)).1 := by
  induction l generalizing s n with
  | nil => exact .refl s
  | cons k t ih => exact (ackSlot_effect s k).2.2.trans (ih ..)

/-- ACKNOWLEDGE_FAULT with ALL = 1. -/
theorem cmdAcknowledgeFault_all (e : Entry) (z : State) (h : bit e.a0 23 = true) : ∃ y, AckKeeps z y ∧
    cmdAcknowledgeFault e z = (y, some (.ok, word ((List.finRange 64).countP (unackedAt z)))) := by
  have hcount := foldl_ackNext_count (List.finRange 64) (List.nodup_finRange 64) z 0
  rw [Nat.zero_add] at hcount
  exact ⟨_, foldl_ackNext_keeps (List.finRange 64) z 0, (if_pos h).trans (by rw [← hcount]; rfl)⟩

/-- ACKNOWLEDGE_FAULT of a free slot. -/
theorem cmdAcknowledgeFault_free (e : Entry) (z : State) (h : bit e.a0 23 = false)
    (hk : z.flt.slots[(Fin.ofNat 64 (fld e.a0 5 0) : Fin 64)] = none) :
    cmdAcknowledgeFault e z = (z, some (.notFound, 0)) := by
  unfold cmdAcknowledgeFault
  rw [if_neg (by simp [h])]
  exact if_pos hk

/-- ACKNOWLEDGE_FAULT of a slot that is held: its acknowledgement. -/
theorem cmdAcknowledgeFault_held (e : Entry) (k : Fin 64) (f : OpenFault) (z : State) (hk : k = Fin.ofNat 64 (fld e.a0 5 0))
    (h : bit e.a0 23 = false) (hf : z.flt.slots[k] = some f) :
    cmdAcknowledgeFault e z = ((ackSlot z k).1, some (.ok, word (ackSlot z k).2)) := by
  subst hk
  unfold cmdAcknowledgeFault
  rw [if_neg (by simp [h])]
  exact if_neg (by rw [hf]; simp)

/-! ### READ_FAULT, RELEASE_SCOPE and RELEASE_FAULT_PIN (R303, R313, R316) -/

theorem cmdReadFault_absent (e : Entry) (z : State) (h : faultFound z e = none) :
    cmdReadFault e z = (z, some (.notFound, 0)) := by
  simp only [cmdReadFault, h, ends]

theorem cmdReadFault_found (e : Entry) (bs : List Byte) (z : State) (h : faultFound z e = some bs) :
    cmdReadFault e z = (writeBuffer z e 1 bs, some (.ok, 0)) := by
  simp only [cmdReadFault, h, ends]

theorem cmdReleaseScope_unnamed (e : Entry) (z : State) (h : scopeArg e = none) :
    cmdReleaseScope e z = (z, some (.addrInvalid, 0)) := by
  simp only [cmdReleaseScope, h, ends]

/-- RELEASE_SCOPE of a scope that exists: the checks in their order, then the exit. -/
theorem cmdReleaseScope_named (e : Entry) (x : Scope) (z : State) (h : scopeArg e = some x) :
    cmdReleaseScope e z = if !isLatched z x then (z, some (.notLatched, 0))
      else if openWithin z x || faultNow z x || activeCond z x then (z, some (.faultActive, 0))
      else (exitScope z x true, some (.ok, 0)) := by
  simp only [cmdReleaseScope, h, ends]

/-! ### Rows of the collector (R301, R311, R316, R317) -/

/-- R301: a defined class without an effect of its own is reported at its home scope, with its content marked. -/
theorem doFaultDetected_reports (k : Byte) (i : Fin 512) (d : Word) (s : State) (hk : classDefined k.toNat = true)
    (hc : collectorOn s = true) (hn : k.toNat ∉ [0x01, 0x02, 0x03, 0x1C, 0x1D, 0x21, 0x2A]) :
    doFaultDetected k i d s = report (markLost s k.toNat i d) k (homeOf k.toNat i) d.toNat false := by
  simp only [List.mem_cons, List.not_mem_nil, or_false, not_or] at hn
  obtain ⟨h01, h02, h03, h1C, h1D, h21, h2A⟩ := hn
  simp only [doFaultDetected, hk, hc, h01, h02, h03, h1C, h1D, h21, h2A, Bool.and_self, Bool.not_true, Bool.false_eq_true,
    if_false]

/-- R34, R42: INVAR_ECC. -/
theorem doFaultDetected_invarEcc (i : Fin 512) (d : Word) (s : State) (hc : collectorOn s = true) :
    doFaultDetected 0x03 i d s = invarEvent s d := by
  simp [doFaultDetected, hc, classDefined]

/-- R49: XBAR_PARITY. -/
theorem doFaultDetected_xbarParity (i : Fin 512) (d : Word) (s : State) (hc : collectorOn s = true) :
    doFaultDetected 0x21 i d s = xbarParity s (Fin.ofNat 4 i.val) d := by
  simp [doFaultDetected, hc, classDefined]

/-- R48, R299: ECC_CORRECTED of a word of region RAM. -/
theorem doFaultDetected_regionRamCorrected (i : Fin 512) (d : Word) (s : State) (hc : collectorOn s = true)
    (hd : fld d 23 20 = 2) :
    doFaultDetected 0x01 i d s = eccCorrected s .regionRam (i.val % 4) (fld d 19 0) := by
  simp [doFaultDetected, hc, classDefined, hd, correctedMem]

/-- R48: a corrected word of region RAM counts in its region and is reported there. -/
theorem eccCorrected_regionRam (s : State) (i a : Nat) (ha : a < 2 ^ 20) :
    eccCorrected s .regionRam (i % 4) a = report (bump s (.region (Fin.ofNat 4 i) 0x01) 23 12 1) 0x01
      (.region (Fin.ofNat 4 i)) (2 * 2 ^ 20 + a) false := by
  have hi : Fin.ofNat 4 (i % 4) = Fin.ofNat 4 i := Fin.ext (Nat.mod_mod i 4)
  simp only [eccCorrected, memHome, memCode, hi, Nat.mod_eq_of_lt ha]

/-- R311, R313: the quiet period of a scope is over: it exits, or latches at its recovery limit. -/
theorem doQuietPeriodEnd_over (x : Scope) (y : ScopeState) (s : State)
    (hy : s.flt.scopes.find? (fun y => decide (y.scope = x)) = some y) (hc : collectorOn s = true) (hl : y.latched = false)
    (ha : activeCond s x = false) (hq : y.quietFrom + quietOf s x ≤ s.time.tick) :
    doQuietPeriodEnd x s = if recoveryLimit s x ≤ exitCount s x then latchScope s x else exitScope s x false := by
  simp only [doQuietPeriodEnd, hy, hc, hl, ha, decide_eq_false (Nat.not_lt.mpr hq), Bool.not_true, Bool.or_self,
    Bool.false_eq_true, if_false]

/-- R316: FAULT_N deasserts at the end of its least width, where its release was accepted. -/
theorem doPinWidthExpiry_released (s : State) (hp : s.flt.pin = true) (hr : s.flt.pinReleased = true)
    (hu : s.flt.pinUntil ≤ s.time.tick) :
    doPinWidthExpiry s = { s with flt := { s.flt with pin := false, pinReleased := false } } := by
  simp only [doPinWidthExpiry, hp, hr, hu, decide_true, Bool.and_self, if_true, updFlt]

end Sys2Proof.Machine
end

section
/-!
PROOFS. The obligations of 11_faults_and_recovery.md.
-/
namespace Sys2Proof.Machine

/-- Settles O48: each answer is that of the slot's acknowledgement, and an acknowledgement ends no fault state. -/
theorem acknowledgeFault : Obligations.AcknowledgeFault := by
  unfold Obligations.AcknowledgeFault
  intro e s z h
  have hrun := fun y t b => cmdRun_ends (.acknowledgeFault e) 0x61 e (cmdAcknowledgeFault e) s z y t b h
  cases hb : bit e.a0 23 with
  | true =>
    obtain ⟨y, hkeeps, hcmd⟩ := cmdAcknowledgeFault_all e z hb
    exact ⟨y, .ok, _, hrun _ _ _ hcmd, nofun, fun _ h1 => (nomatch h1), fun _ h1 => (nomatch h1), fun _ => ⟨rfl, rfl⟩,
      hkeeps.frame⟩
  | false =>
    cases hf : z.flt.slots[(Fin.ofNat 64 (fld e.a0 5 0) : Fin 64)] with
    | none =>
      exact ⟨z, .notFound, 0, hrun _ _ _ (cmdAcknowledgeFault_free e z hb hf), fun _ _ => ⟨rfl, rfl⟩,
        fun _ _ hg => (nomatch hg), fun _ _ hg => (nomatch hg), nofun, (AckKeeps.refl z).frame⟩
    | some f =>
      refine ⟨_, .ok, _, hrun _ _ _ (cmdAcknowledgeFault_held e _ f z rfl hb hf), nofun, ?_, ?_, nofun,
        (ackSlot_effect z _).2.2.frame⟩
      · rintro g - ⟨⟩ ha hc
        rw [ackSlot_open z _ f hf ha hc]
        exact ⟨rfl, rfl, Vector.getElem_set_self _⟩
      · rintro g - ⟨⟩ ha
        rw [ackSlot_acked z _ f hf ha]
        exact ⟨rfl, rfl, rfl⟩

/-- Settles O12: each command is its check and what it does to the collector. -/
theorem faultCommandsComplete : Obligations.FaultCommandsComplete := by
  unfold Obligations.FaultCommandsComplete
  refine ⟨?_, ?_, ?_, ?_, ?_, ?_, ?_, ?_, ?_, ?_, ?_⟩
  · exact fun e s z h hf => cmdRun_ends _ 0x60 e (cmdReadFault e) s z _ _ _ h (cmdReadFault_absent e z hf)
  · exact fun e bs s z h hf => cmdRun_ends _ 0x60 e (cmdReadFault e) s z _ _ _ h (cmdReadFault_found e bs z hf)
  · exact fun e s z h hb hf =>
      cmdRun_ends _ 0x61 e (cmdAcknowledgeFault e) s z _ _ _ h (cmdAcknowledgeFault_free e z hb hf)
  · intro e k f s z h hk hb hf ha hc
    refine cmdRun_ends _ 0x61 e (cmdAcknowledgeFault e) s z _ _ _ h ?_
    rw [cmdAcknowledgeFault_held e k f z hk hb hf, ackSlot_open z k f hf ha hc]
    rfl
  · intro e k f s z h hk hb hf ha
    refine cmdRun_ends _ 0x61 e (cmdAcknowledgeFault e) s z _ _ _ h ?_
    rw [cmdAcknowledgeFault_held e k f z hk hb hf, ackSlot_acked z k f hf ha]
    rfl
  · exact fun e s z h hx => cmdRun_ends _ 0x62 e (cmdReleaseScope e) s z _ _ _ h (cmdReleaseScope_unnamed e z hx)
  · intro e x s z h hx hl
    exact cmdRun_ends _ 0x62 e (cmdReleaseScope e) s z _ _ _ h
      ((cmdReleaseScope_named e x z hx).trans (if_pos (by rw [hl]; rfl)))
  · intro e x s z h hx hl ha
    exact cmdRun_ends _ 0x62 e (cmdReleaseScope e) s z _ _ _ h
      ((cmdReleaseScope_named e x z hx).trans (by rw [hl, ha]; rfl))
  · intro e x s z h hx hl ha
    exact cmdRun_ends _ 0x62 e (cmdReleaseScope e) s z _ _ _ h
      ((cmdReleaseScope_named e x z hx).trans (by rw [hl, ha]; rfl))
  · exact fun e s z h hp => cmdRun_ends _ 0x63 e cmdReleaseFaultPin s z _ _ _ h (if_pos hp)
  · exact fun e s z h hp =>
      cmdRun_ends _ 0x63 e cmdReleaseFaultPin s z _ _ _ h (if_neg (by simp [hp]))

/-- Settles O30: each row is what the collector does under the conditions that let it happen. -/
theorem faultRowsComplete : Obligations.FaultRowsComplete := by
  unfold Obligations.FaultRowsComplete
  refine ⟨?_, ?_, ?_, ?_, ?_, ?_, ?_, ?_, ?_⟩
  · exact fun k i d s hk hc hn => run_of_eq (doFaultDetected_reports k i d s hk hc hn)
  · exact fun i d s hc => run_of_eq (doFaultDetected_invarEcc i d s hc)
  · rintro i d _ s hc rfl
    exact run_of_eq (doFaultDetected_xbarParity i d s hc)
  · rintro i d _ s hc hd rfl
    exact run_of_eq ((doFaultDetected_regionRamCorrected i d s hc hd).trans
      (eccCorrected_regionRam s i.val _ (fld_lt d 19 0)))
  · exact fun x y s hy hc hl ha hq hr =>
      run_of_eq ((doQuietPeriodEnd_over x y s hy hc hl ha hq).trans (if_neg (Nat.not_le.mpr hr)))
  · exact fun x y s hy hc hl ha hq hr => run_of_eq ((doQuietPeriodEnd_over x y s hy hc hl ha hq).trans (if_pos hr))
  · exact fun s hp hr hu => run_of_eq (doPinWidthExpiry_released s hp hr hu)
  · exact fun s hl => run_of_eq (if_neg (by rw [hl]; simp))
  · exact fun s => run_of_eq rfl

end Sys2Proof.Machine
end

section
/-!
SUPPORT. What 12_modes_and_startup.md comes to in the model: what a step without the core clock leaves, the mode requests, a
transition and its record, FAULT_N, and the rows of power, boot and debug modes.
-/
namespace Sys2Proof.Machine

/-! ### Causes at reset and without the core clock (R27, R397) -/

/-- R27: without its core clock the device does nothing in a tick. -/
theorem step_clockless (s : State) (hp : s.pending = []) (hc : clockOn s = false) :
    step s = .next { s with time := { s.time with tick := s.time.tick + 1 } } := by
  simp [step, tick, hp, hc]

/-- R397: without its core clock the device wants no excitation output on. -/
theorem excWanted_of_coreLost (s : State) (n : Fin 8) (h : s.time.clk.coreLost = true) : excWanted s n = false := by
  simp [excWanted, h]

/-- R397: EXC_CTRL is 0 at reset, so every output is to be off. -/
theorem excWanted_reset (n : Fin 8) : excWanted State.reset n = false := by
  have hr : regBit State.reset (.chip 0x98) n.val = false := BitVec.getLsbD_zero
  simp [excWanted, hr]

/-- A state that no run from reset comes to: the core clock is lost and excitation output 0 is on all the same. -/
def outputLeftOn : State :=
  { State.reset with
    time := { State.reset.time with clk := { State.reset.time.clk with coreLost := true } }
    excs := State.reset.excs.set 0 ⟨true, 0, [], 0⟩ }

/-! ### A transition and its record (R325, R330) -/

/-- R325, R330: the mode, MODE_SEQ and MODE_CHANGE of a transition, before its record. -/
def modeChanged (s : State) (m : Mode) : State := raiseIrq { s with sys := { s.sys with mode := m, seq := s.sys.seq + 1 } } 4

/-- R325: a transition with SYS_REC_EN. -/
theorem setMode_recorded (s : State) (m : Mode) (cause : Nat) (h : bit s.host.hostCtrl 4 = true) :
    setMode s m cause = emitAt (modeChanged s m) (fld s.host.hostCtrl 3 0) s.time.tick 22
      ⟨0x04, 0, now s, word (modeCode m * 2 ^ 20 + modeCode s.sys.mode * 2 ^ 16 + cause * 256 + (modeChanged s m).sys.seq.toNat),
        word (bitAt (isLatched s .chip) 3 + bitAt (dgLane s) 2 + bitAt (dgElectrum s) 1 + bitAt (dgPll s) 0)⟩ := if_pos h

/-- R325: a transition without SYS_REC_EN. -/
theorem setMode_unrecorded (s : State) (m : Mode) (cause : Nat) (h : bit s.host.hostCtrl 4 = false) :
    setMode s m cause = modeChanged s m := if_neg (by simp [h])

@[simp] theorem modeChanged_sys (s : State) (m : Mode) :
    (modeChanged s m).sys = { s.sys with mode := m, seq := s.sys.seq + 1 } := raiseIrq_sys ..

theorem modeChanged_irq (s : State) (m : Mode) : bit (modeChanged s m).host.irqStat 4 = true := by
  rw [modeChanged, raiseIrq_frame]
  simp [bit]

theorem modeChanged_arb (s : State) (m : Mode) : (modeChanged s m).host.arb = s.host.arb := by rw [modeChanged, raiseIrq_frame]

/-- What neither the change of mode nor its record touches, a transition leaves. -/
theorem setMode_of_changed {α : Type} (g : State → α) (hg : ∀ z ring tick tier r, g (emitAt z ring tick tier r) = g z)
    (s : State) (m : Mode) (cause : Nat) : g (setMode s m cause) = g (modeChanged s m) := by
  cases h : bit s.host.hostCtrl 4 with
  | true => rw [setMode_recorded s m cause h, hg]
  | false => rw [setMode_unrecorded s m cause h]

@[simp] theorem setMode_sys (s : State) (m : Mode) (cause : Nat) :
    (setMode s m cause).sys = { s.sys with mode := m, seq := s.sys.seq + 1 } :=
  (setMode_of_changed (·.sys) (fun _ _ _ _ _ => rfl) s m cause).trans (modeChanged_sys s m)

theorem setMode_irq (s : State) (m : Mode) (cause : Nat) : bit (setMode s m cause).host.irqStat 4 = true :=
  (setMode_of_changed (fun z => bit z.host.irqStat 4) (fun _ _ _ _ _ => rfl) s m cause).trans (modeChanged_irq s m)

/-- R325: the record of a transition waits with its tick, at the supervisor's place, for SYS_RING. -/
theorem setMode_record (s : State) (m : Mode) (cause : Nat) (h : bit s.host.hostCtrl 4 = true) :
    ∃ p ∈ (setMode s m cause).host.arb, p.ring = Fin.ofNat 16 (fld s.host.hostCtrl 3 0) ∧ p.tick = s.time.tick ∧ p.tier = 22 ∧
      p.body.typ = 0x04 ∧ p.body.src = 0 ∧ p.body.ts = now s := by
  rw [setMode_recorded s m cause h]
  exact ⟨_, placeRec_mem _ _, rfl, rfl, rfl, rfl, rfl, rfl⟩

/-! ### The mode requests (R326, R327, R340, R341, R344) -/

/-- R326: a mode request whose target its row names. -/
theorem modeRow_ends (i : Instr) (n : Nat) (e : Entry) (body : State → State × Status × Word) (s z y : State) (t : Status)
    (b : Word) (h : Takes s 0x80 e z) (hn : fld e.a0 3 0 = n) (hb : body z = (y, t, b)) :
    run (modeRow i n e (fun x => modeResult (body x))) s = .next (Completes y 0x80 e t b) := by
  have hr : modeRow i n e (fun x => modeResult (body x)) s = cmdRun i 0x80 e (fun x => modeResult (body x)) s := if_pos hn
  rw [run, hr]
  exact cmdRun_ends i 0x80 e _ s z y t b h (by rw [hb]; rfl)

theorem requestRun_checked (s : State) (hm : s.sys.mode = .configure) (hc : runCheck s = none) : requestRun s =
    (awaitPeriods (startRun (setMode (leaveConfigure s) (runMode (leaveConfigure s)) 0x02)), .ok, 0) := by
  simp only [requestRun, hm, hc]

theorem requestConfigure_there (s : State) (hm : s.sys.mode = .configure) : requestConfigure s = (s, .ok, 0) := by
  simp only [requestConfigure, hm]

theorem requestConfigure_enters (s : State) (hm : s.sys.mode = .run ∨ s.sys.mode = .degraded ∨ s.sys.mode = .safeHold) :
    requestConfigure s = (enterConfigure s, .ok, 0) := by
  rcases hm with hm | hm | hm <;> simp only [requestConfigure, hm]

theorem requestService_there (s : State) (hm : s.sys.mode = .service) : requestService s = (s, .ok, 0) := by
  simp only [requestService, hm]

theorem requestService_enters (s : State) (hm : s.sys.mode = .configure) :
    requestService s = (setMode (leaveConfigure s) .service 0x02, .ok, 0) := by
  simp only [requestService, hm]

theorem requestService_refused (s : State) (hm : s.sys.mode = .run ∨ s.sys.mode = .degraded ∨ s.sys.mode = .safeHold) :
    requestService s = (s, .modeRefused, 0) := by
  rcases hm with hm | hm | hm <;> simp only [requestService, hm]

/-! ### FAULT_N (R316, R331) -/

theorem faultPin_iff (s : State) : faultPin s = true ↔
    (s.flt.pin = true ∨ s.time.clk.coreLost = true ∨ s.sys.mode = .boot ∨ s.sys.mode = .powerFail) := by
  simp [faultPin, or_assoc]

/-- R316: an event at or above PIN_LEVEL. -/
theorem assertPin_qualifies (s : State) (lvl : Nat) (h : regFld s (.faults 0x00) 18 16 ≤ lvl) : assertPin s lvl =
    updFlt s (fun c => { c with pin := true, pinReleased := false,
                                pinUntil := s.time.tick + regFld s (.faults 0x00) 9 0 * 16000 }) := if_pos h

@[simp] theorem doPinWidthExpiry_sys (s : State) : (doPinWidthExpiry s).sys = s.sys := by
  unfold doPinWidthExpiry
  split <;> rfl

@[simp] theorem cmdReleaseFaultPin_sys (s : State) : (cmdReleaseFaultPin s).1.sys = s.sys := by
  unfold cmdReleaseFaultPin
  split
  · rfl
  · exact doPinWidthExpiry_sys _

/-! ### Power and boot (R325, R330, R334, R335, R338, R346) -/

theorem doPwrOkRise_boots (f : BootFind) (s : State) (hm : s.sys.mode = .retention) : doPwrOkRise f s = enterBoot { s with
    pins := { s.pins with pwrOk := true, pfwN := true }
    host := { s.host with transport := if f.spi then .spi else .pcie, busMaster := false, msixFnMask := false }
    boot := { s.boot with find := f } } := if_neg (not_not.mpr hm)

/-- R334, R335: the last two steps of a boot whose flow has an image ready. -/
theorem doBootDone_ready (i : ImageInfo) (s : State) (hf : s.boot.flow = .ready i) (hm : s.sys.mode = .boot)
    (hc : s.time.clk.coreLost = false) : doBootDone s = monEntry (raiseFloor (updBoot (bootLife (setMode
      { (loadTraps (if s.boot.lineOn then s else startLine s)) with
        host := { (loadTraps (if s.boot.lineOn then s else startLine s)).host with hostCtrl := 0 } } .configure 0x01))
      (fun b => { b with flow := .stopped, phase := 9,
                         bootMs := BitVec.ofNat 16 (min 0xFFFF ((s.time.tick - s.boot.rise) / 800000)), clkLost := none }))
      i.rollback) := by
  simp only [doBootDone, hf, hm, hc, ne_eq, not_true_eq_false, decide_false, Bool.or_self, Bool.false_eq_true, if_false]

/-- R338: a boot stops for a cause that the boot ROM finds, or that the flow has met. -/
theorem doBootStop_stops (k : Byte) (s : State) (hm : s.sys.mode = .boot) (hc : s.time.clk.coreLost = false)
    (hk : k = 1 ∨ k = 2 ∨ (s.boot.flow = .failed ∧ k = s.boot.result)) (hf : s.boot.flow ≠ .stopped) : doBootStop k s =
      updBoot s (fun b => { b with flow := .stopped, result := k, bistFail := decide (k = 2), steps := [] }) := by
  have hfound : ((decide (k = 1 ∨ k = 2) || (decide (s.boot.flow = .failed) && decide (k = s.boot.result))) &&
      decide (s.boot.flow ≠ .stopped)) = true := by
    simpa [hf, or_assoc] using hk
  simp only [doBootStop, hm, hc, hfound, ne_eq, not_true_eq_false, decide_false, Bool.or_self, Bool.false_eq_true, if_false, if_true]

theorem doPwrOkFall_retains (s : State) (hm : s.sys.mode ≠ .retention) (z : State) (hz : z = (match s.life.writing with
      | some w => updLife s (fun l => { putSlot l w.n none with writing := none })
      | none => s)) : doPwrOkFall s =
    { z with pins := { z.pins with pwrOk := false, lines := [] }, agenda := agendaReset,
             pes := Vector.replicate 32 pewterReset, sys := { z.sys with mode := .retention },
             time := { z.time with clk := { z.time.clk with coreLost := false } },
             sec := { z.sec with debugOk := false, job := none } } := by
  subst hz
  exact if_neg hm

/-- R346: the blocks stop and the engines that a HALT held step on, as POWER-FAIL is entered. -/
def powerStopped (s : State) (c : PowerCause) : State :=
  let z := raiseIrq { s with sys := { s.sys with mode := .powerFail }, pins := { s.pins with pfwN := decide (c ≠ .pfwN) } } 4
  { z with blks := z.blks.map (fun b => { b with run := none, queues := Vector.replicate 20 [], timerNext := none }),
           pes := z.pes.map (shiftPewter (if s.sys.mode = .halt then s.time.tick - s.sys.haltTick else 0)) }

theorem doPowerFail_stops (c : PowerCause) (s : State) (hr : s.sys.mode ≠ .retention) (hp : s.sys.mode ≠ .powerFail)
    (hc : s.time.clk.coreLost = false) :
    doPowerFail c s = if s.sys.mode = .boot then powerStopped s c else powerCommit (dutyAdd (powerStopped s c) 4 1) :=
  if_neg (by simp [hr, hp, hc])

theorem powerStopped_sys (s : State) (c : PowerCause) : (powerStopped s c).sys = { s.sys with mode := .powerFail } :=
  raiseIrq_sys ..

theorem doPowerFailRecovery_boots (s : State) (hm : s.sys.mode = .powerFail) (hw : s.life.writing = none)
    (hp : s.pins.pwrOk = true) (hb : (List.finRange 24).any (monBeyond s) = false) :
    doPowerFailRecovery s = enterBoot { s with pins := { s.pins with pfwN := true } } :=
  if_pos (by simp only [hm, hw, hp, hb, decide_true, Option.isNone_none, Bool.not_false, Bool.and_self])

/-! ### HALT (R345) -/

theorem doDebugHalt_halts (s : State) (hr : s.sys.mode ≠ .retention) (hc : s.time.clk.coreLost = false)
    (hd : debugAllowed s = true) (hh : haltable s.sys.mode = true) : doDebugHalt s =
    setMode { s with
      sys := { s.sys with left := s.sys.mode, haltTick := s.time.tick }
      sup := { s.sup with halted := true }
      bcar := s.bcar.map (fun c => if c.running then { c with frozen := some (carCountAt c s.time.tick) } else c)
      gcar := s.gcar.map (fun c => if c.running then { c with frozen := some (carCountAt c s.time.tick) } else c) }
      .halt 0x08 := by
  simp only [doDebugHalt, hr, hc, hd, hh, decide_false, Bool.or_self, Bool.and_self, Bool.not_true, Bool.false_eq_true, if_false]

theorem doDebugResume_returns (n : Nat) (s : State) (hm : s.sys.mode = .halt) (hd : debugAllowed s = true)
    (hn : n = s.time.tick - s.sys.haltTick) : doDebugResume s =
    setMode { s with
      sup := { s.sup with halted := false }
      host := { s.host with watchdogFrom := s.host.watchdogFrom + n }
      bcar := s.bcar.map (shiftCarrier s.time.tick n)
      gcar := s.gcar.map (shiftCarrier s.time.tick n)
      pes := s.pes.map (shiftPewter n)
      blks := s.blks.map (shiftBlock n)
      cells := s.cells.map (fun c => { c with pwmEdges := c.pwmEdges.map (fun e => (e.1 + 16 * n, e.2)) }) }
      (if decide (s.sys.left = .run ∨ s.sys.left = .degraded) && inFault s .chip then .safeHold else s.sys.left) 0x09 := by
  subst hn
  exact if_neg (by simp [hm, hd])

/-! ### The secure bank's check in a boot (R334, R364) -/

section
variable {w : Nat} (dflt : Nat → BitVec w)

/-- A store of another value than the address's own reads back, whatever form the list has. -/
theorem memGet_put_of_ne (m : Mem w) (a : Nat) (v : BitVec w) (hv : v ≠ dflt a) : memGet dflt (memPut dflt m a v) a = v := by
  induction m with
  | nil => simp [memPut, memGet, hv]
  | cons p t ih =>
    unfold memPut
    split
    · simp [memGet]
    · next hlt =>
      split
      · simp [memGet]
      · next hne => simpa [memGet, hlt, hne] using ih

/-- A value that is not the address's own stands before every later address, so a store there leaves it. -/
theorem memGet_put_later (m : Mem w) (a b : Nat) (u : BitVec w) (hv : memGet dflt m a ≠ dflt a) (hb : a < b) :
    memGet dflt (memPut dflt m b u) a = memGet dflt m a := by
  induction m with
  | nil => exact absurd rfl hv
  | cons p t ih =>
    have hp : p.1 ≤ a := by
      by_contra hlt
      exact hv (by rw [memGet, if_neg (by omega), if_pos (by omega)])
    rw [memPut, if_neg (by omega), if_neg (by omega), memGet, memGet]
    split
    · rfl
    · next hne =>
      rw [if_neg (by omega), if_neg (by omega)]
      refine ih ?_
      rwa [memGet, if_neg hne, if_neg (by omega)] at hv

end

theorem reg_setReg_of_ne (s : State) (l : PLoc) (v : Word) (hv : v ≠ regReset (paOf l)) : reg (setReg s l v) l = v :=
  memGet_put_of_ne regReset s.par.reg (paOf l) v hv

theorem reg_setReg_later (s : State) (l m : PLoc) (v u : Word) (h : reg s l = v) (hv : v ≠ regReset (paOf l))
    (hb : paOf l < paOf m) : reg (setReg s m u) l = v :=
  (memGet_put_later regReset s.par.reg (paOf l) (paOf m) u (fun he => hv (h.symm.trans he)) hb).trans h

/-- R369: TAMPER_STAT after a wipe. -/
def wipeStat (st : Word) (cause : Nat) : Word :=
  setFld (setFld st 23 16 (satAdd 8 (fld st 23 16) 1)) 11 8 cause |||
    word (if cause ≤ 4 then 2 ^ (cause - 1) else if cause = 5 then 0x10 else 0)

theorem wipeSeen_lt (cause : Nat) : (word (if cause ≤ 4 then 2 ^ (cause - 1) else if cause = 5 then 0x10 else 0)).toNat < 2 ^ 5 := by
  split
  · next h => interval_cases cause <;> decide
  · split <;> decide

/-- R364: a wipe records its cause. -/
theorem fld_wipeStat_cause (st : Word) (cause : Nat) (h : cause < 16) : fld (wipeStat st cause) 11 8 = cause := by
  rw [wipeStat, fld_or_low _ _ _ _ ((wipeSeen_lt cause).trans (by decide)), fld_setFld _ _ _ _ (by decide) (by decide) h]

/-- R364, R369: a wipe counts itself, and the count stays at 255. -/
theorem fld_wipeStat_count (st : Word) (cause : Nat) : fld (wipeStat st cause) 23 16 = min 255 (fld st 23 16 + 1) := by
  rw [wipeStat, fld_or_low _ _ _ _ ((wipeSeen_lt cause).trans (by decide)),
    fld_setFld_other _ _ _ _ _ _ (.inr (by decide)) (by decide) (by decide) (by decide),
    fld_setFld _ _ _ _ (by decide) (by decide) (by unfold satAdd; omega)]
  rfl

/-- R364, R369: the registers of a wipe: TAMPER_STAT, and the calendar time in TAMPER_T. -/
theorem wipeBank_reg (s : State) (cause : Nat) : (wipeBank s cause).par.reg =
    (setReg (setReg (setReg s (.chip 0x44) (wipeStat (reg s (.chip 0x44)) cause)) (.chip 0x45) (loWord s.life.cal))
      (.chip 0x46) (hiWord s.life.cal)).par.reg := by
  unfold wipeBank
  dsimp only
  split <;> rfl

/-- R364: after a wipe TAMPER_STAT holds a cause other than 0, whatever form the store has. -/
theorem wipeBank_cause (s : State) (cause : Nat) (h0 : cause ≠ 0) (h : cause < 16) :
    fld (reg (wipeBank s cause) (.chip 0x44)) 11 8 = cause := by
  have hne : wipeStat (reg s (.chip 0x44)) cause ≠ regReset (paOf (.chip 0x44)) := by
    intro he
    have hc := fld_wipeStat_cause (reg s (.chip 0x44)) cause h
    rw [he] at hc
    exact h0 (hc.symm.trans rfl)
  have hstat := reg_setReg_of_ne s (.chip 0x44) _ hne
  have hcal := reg_setReg_later _ _ (.chip 0x45) _ (loWord s.life.cal) hstat hne (by decide)
  have hreg : reg (wipeBank s cause) (.chip 0x44) = wipeStat (reg s (.chip 0x44)) cause := by
    rw [reg, regAt, wipeBank_reg]
    exact reg_setReg_later _ _ (.chip 0x46) _ (hiWord s.life.cal) hcal hne (by decide)
  rw [hreg, fld_wipeStat_cause _ _ h]

theorem wipeBank_bank (s : State) (cause : Nat) : (wipeBank s cause).sec.bankValid = false := by
  unfold wipeBank
  dsimp only
  split <;> rfl

/-- R334, R364: the third step of a boot wipes a bank that failed its check, once; a decommissioned device fails there. -/
theorem bootStep_wipes (s : State) (n : Nat) (l : List (Nat × Byte)) (hs : s.boot.steps = (n, 4) :: l)
    (hm : s.sys.mode = .boot) (hn : n ≤ s.time.tick) (hb : s.boot.find.bankIntact = false) :
    ∃ z f, bootStep s = updBoot (wipeBank z 8) f ∧ ∀ b, (f b).find.bankIntact = true := by
  have hd : (!(decide (s.sys.mode = .boot) && decide (n ≤ s.time.tick))) = false := by simp [hm, hn]
  have h2 : ¬(4 : Byte) = 2 := by decide
  have hc (g : Boot → Boot) (hg : ∀ b, (g b).find = b.find) : checkBank (updBoot s g) =
      updBoot (wipeBank (updBoot s g) 8) (fun b => { b with find := { b.find with bankIntact := true } }) :=
    if_neg (by simp [updBoot, hg, hb])
  refine ⟨updBoot s (fun b => { b with steps := l, phase := 4 }), ?_⟩
  by_cases hl : s.sec.lc = .decommissioned
  · refine ⟨fun b => { b with find := { b.find with bankIntact := true }, steps := [], phase := 3, flow := .failed, result := 7 },
      ?_, fun _ => rfl⟩
    simp only [bootStep, hs, hd, hl, h2, Bool.false_eq_true, if_false, if_true]
    rw [hc _ ?_]
    · rfl
    · exact fun _ => rfl
  · refine ⟨fun b => { b with find := { b.find with bankIntact := true } }, ?_, fun _ => rfl⟩
    simp only [bootStep, hs, hd, hl, h2, Bool.false_eq_true, if_false, if_true]
    exact hc _ fun _ => rfl

end Sys2Proof.Machine
end

section
/-!
PROOFS. The obligations of 12_modes_and_startup.md, and what a step is.
-/
namespace Sys2Proof.Machine

/-- Settles O1: `step` matches on the queue. -/
theorem stepRunsFront : Obligations.StepRunsFront := by
  unfold Obligations.StepRunsFront
  refine ⟨?_, ?_⟩
  · intro s c rest hp
    simp only [step, hp]
  · intro s hp
    simp only [step, hp]

/-- Refutes O3: without its core clock a tick only counts (R27), so a state whose output is on then keeps it on. -/
theorem not_stepSettled : ¬Obligations.StepSettled := by
  unfold Obligations.StepSettled
  intro h
  obtain ⟨-, hout, -⟩ := h outputLeftOn _ (step_clockless outputLeftOn rfl rfl)
  have hon : true = false := (hout 0).trans (excWanted_of_coreLost _ 0 rfl)
  exact Bool.noConfusion hon

/-- Settles O4: at reset the mode is CONFIGURE, no output is wanted on, no scope is in fault state and no memory lists a word. -/
theorem resetSettled : Obligations.ResetSettled := by
  unfold Obligations.ResetSettled
  refine ⟨⟨⟨?_, ?_⟩, ?_, ?_⟩, ⟨rfl, rfl, rfl, rfl, rfl, rfl, rfl, rfl, rfl, rfl, rfl⟩, rfl⟩
  · exact fun hm => Mode.noConfusion hm
  · exact fun hm => Mode.noConfusion hm
  · intro n
    rw [excWanted_reset]
    simp [State.reset]
  · exact fun y hy => absurd hy List.not_mem_nil

/-- Settles O14: each row's request is the one of its target, by the mode it finds. -/
theorem modeCommandsComplete : Obligations.ModeCommandsComplete := by
  unfold Obligations.ModeCommandsComplete
  refine ⟨?_, ?_, ?_, ?_, ?_, ?_, ?_⟩
  · exact fun e y t b s z h hn hr => modeRow_ends _ 3 e requestRun s z y t b h hn hr
  · exact fun e s z h hn hm hc => modeRow_ends _ 3 e requestRun s z _ _ _ h hn (requestRun_checked z hm hc)
  · exact fun e s z h hn hm => modeRow_ends _ 2 e requestConfigure s z _ _ _ h hn (requestConfigure_there z hm)
  · exact fun e s z h hn hm => modeRow_ends _ 2 e requestConfigure s z _ _ _ h hn (requestConfigure_enters z hm)
  · exact fun e s z h hn hm => modeRow_ends _ 7 e requestService s z _ _ _ h hn (requestService_there z hm)
  · exact fun e s z h hn hm => modeRow_ends _ 7 e requestService s z _ _ _ h hn (requestService_enters z hm)
  · exact fun e s z h hn hm => modeRow_ends _ 7 e requestService s z _ _ _ h hn (requestService_refused z hm)

/-- Settles O31: each row is what it does once its conditions hold; the third boot step wipes a bank that failed its check. -/
theorem modeRowsComplete : Obligations.ModeRowsComplete := by
  unfold Obligations.ModeRowsComplete
  refine ⟨?_, ?_, ?_, ?_, ?_, ?_, ?_, ?_, ?_⟩
  · exact fun f s hm => run_of_eq (doPwrOkRise_boots f s hm)
  · intro n l s hs hm hn hb
    obtain ⟨z, f, hstep, hf⟩ := bootStep_wipes s n l hs hm hn hb
    rw [hstep]
    exact ⟨wipeBank_cause z 8 (by decide) (by decide), wipeBank_bank z 8, hf _⟩
  · exact fun i s hf hm hc => run_of_eq (doBootDone_ready i s hf hm hc)
  · exact fun k s hm hc hk hf => run_of_eq (doBootStop_stops k s hm hc hk hf)
  · exact fun z s hm hz => run_of_eq (doPwrOkFall_retains s hm z hz)
  · rintro c _ s hr hp hc hb rfl
    exact run_of_eq ((doPowerFail_stops c s hr hp hc).trans (if_neg hb))
  · exact fun s hm hw hp hb => run_of_eq (doPowerFailRecovery_boots s hm hw hp hb)
  · exact fun s hr hc hd hh => run_of_eq (doDebugHalt_halts s hr hc hd hh)
  · exact fun n s hm hd hn => run_of_eq (doDebugResume_returns n s hm hd hn)

/-- Settles O50: what asserts the pin, and a release changes no mode. -/
theorem faultPinAsserted : Obligations.FaultPinAsserted := by
  unfold Obligations.FaultPinAsserted
  refine ⟨faultPin_iff, ?_, ?_, ?_⟩
  · intro s lvl h
    rw [assertPin_qualifies s lvl h]
    exact ⟨(faultPin_iff _).mpr (.inl rfl), rfl, rfl⟩
  · exact fun s lvl h => if_neg (Nat.not_le.mpr h)
  · intro s hm
    rw [faultPin_iff, cmdReleaseFaultPin_sys]
    exact .inr (.inr hm)

/-- Settles O51: a transition is the change of mode and, with SYS_REC_EN, its record; POWER-FAIL is entered without one. -/
theorem modeTransition : Obligations.ModeTransition := by
  unfold Obligations.ModeTransition
  refine ⟨fun s m cause => ⟨?_, ?_, ?_, ?_, ?_⟩, ?_⟩
  · rw [setMode_sys]
  · rw [setMode_sys]
  · exact setMode_irq s m cause
  · exact setMode_record s m cause
  · intro h
    rw [setMode_unrecorded s m cause h, modeChanged_arb]
  · intro s c hr hp hc
    have hsys : (doPowerFail c s).sys = { s.sys with mode := .powerFail } := by
      rw [doPowerFail_stops c s hr hp hc]
      split <;> exact powerStopped_sys s c
    rw [hsys]
    exact ⟨rfl, rfl⟩

end Sys2Proof.Machine
end

section
/-!
SUPPORT. What 13_memory_and_security.md comes to in the model: the checks and effects of the commands on windows, routines,
life cycle and firmware, a wipe of the secure bank, and the rows of the debug port, boundary scan and the scrubber.
-/
namespace Sys2Proof.Machine

/-! ### Windows and routines (R113, R143, R293, R362) -/

theorem cmdLoadWindow_refused (e : Entry) (buf : Buf) (s : State) (t : Status) (h : (windowCheck e buf s).1 = .error t) :
    cmdLoadWindow e buf s = ends (windowCheck e buf s).2 t := by
  simp only [cmdLoadWindow, h]

theorem cmdLoadWindow_passed (e : Entry) (buf : Buf) (s : State) (bs : List Byte) (h : (windowCheck e buf s).1 = .ok bs) :
    cmdLoadWindow e buf s = ends ((windowBlocks e).foldl (writeWindow bs) (windowCheck e buf s).2) .ok := by
  simp only [cmdLoadWindow, h]

theorem cmdVerifyWindow_refused (e : Entry) (buf : Buf) (s : State) (t : Status) (h : (windowCheck e buf s).1 = .error t) :
    cmdVerifyWindow e buf s = ends (windowCheck e buf s).2 t := by
  simp only [cmdVerifyWindow, h]

/-- R362: no block differs. -/
theorem cmdVerifyWindow_holds (e : Entry) (buf : Buf) (s : State) (bs : List Byte) (h : (windowCheck e buf s).1 = .ok bs)
    (ha : (windowBlocks e).all (windowHolds (windowCheck e buf s).2 bs) = true) :
    cmdVerifyWindow e buf s = ends (windowCheck e buf s).2 .ok := by
  have hn : (windowBlocks e).find? (fun b => !windowHolds (windowCheck e buf s).2 bs b) = none := by
    simpa using ha
  simp only [cmdVerifyWindow, h, hn]

/-- R362: Value B is the first block that differs. -/
theorem cmdVerifyWindow_differs (e : Entry) (buf : Buf) (s : State) (bs : List Byte) (h : (windowCheck e buf s).1 = .ok bs)
    (ha : ¬(windowBlocks e).all (windowHolds (windowCheck e buf s).2 bs) = true) :
    cmdVerifyWindow e buf s = endsWith (windowCheck e buf s).2 .verifyFail
      (word (((windowBlocks e).find? (fun b => !windowHolds (windowCheck e buf s).2 bs b)).getD 0).val) := by
  cases hf : (windowBlocks e).find? (fun b => !windowHolds (windowCheck e buf s).2 bs b) with
  | none => exact absurd (by simpa using hf) ha
  | some b => simp only [cmdVerifyWindow, h, hf, Option.getD_some]

theorem cmdInvokeRoutine_held (e : Entry) (s : State) (h : blockHeld s (Fin.ofNat 32 (fld e.a0 4 0)) = true) :
    cmdInvokeRoutine e s = ends s .scopeFault := if_pos h

theorem cmdInvokeRoutine_requests (e : Entry) (s : State) (h : blockHeld s (Fin.ofNat 32 (fld e.a0 4 0)) = false) :
    cmdInvokeRoutine e s = (pushRequest s (Fin.ofNat 32 (fld e.a0 4 0)) 17 ⟨e.a1, BitVec.ofNat 6 (fld e.a0 13 8), 0, none, some e,
      s.time.tick, custOff s (Fin.ofNat 32 (fld e.a0 4 0))⟩, none) := if_neg (Bool.eq_false_iff.mp h)

/-! ### Life cycle and firmware (R292, R344, R357, R359) -/

section
variable {e : Entry} {buf : Buf} {bs : List Byte} {s x : State}

theorem cmdAdvanceLifecycle_refused (t : Status) (hm : s.sys.mode = .service) (hl : e.a4.toNat = 260)
    (hb : readBuffer s e 1 260 buf = (some bs, x)) (hc : certCheck x e bs = .error t) :
    cmdAdvanceLifecycle e buf s = ends x t := by
  simp only [cmdAdvanceLifecycle, hm, hl, hb, hc, ne_eq, not_true_eq_false, if_false]

theorem cmdAdvanceLifecycle_accepted (lc : LifeCycle) (hm : s.sys.mode = .service) (hl : e.a4.toNat = 260)
    (hb : readBuffer s e 1 260 buf = (some bs, x)) (hc : certCheck x e bs = .ok lc) :
    cmdAdvanceLifecycle e buf s = ends (startJob x (.lifecycle lc
      (if lc = .development then some (BitVec.ofNat 384 (certField bs 20 48)) else none))) .ok := by
  simp only [cmdAdvanceLifecycle, hm, hl, hb, hc, ne_eq, not_true_eq_false, if_false]

end

theorem cmdStageFirmware_stores (e : Entry) (buf : Buf) (bs : List Byte) (s x : State) (hm : s.sys.mode = .service)
    (h1 : 1 ≤ e.a1.toNat) (h2 : e.a1.toNat ≤ 65536) (hb : readBuffer s e 2 e.a1.toNat buf = (some bs, x)) :
    cmdStageFirmware e buf s = ends (updSec (storeFlash x e.a0.toNat bs) (fun y => { y with stage := .written })) .ok := by
  have hn : ¬(e.a1.toNat = 0 ∨ 65536 < e.a1.toNat) := by omega
  simp only [cmdStageFirmware, hm, hn, hb, ne_eq, not_true_eq_false, if_false]

theorem cmdVerifyFirmware_nothing (s : State) (hm : s.sys.mode = .service) (hs : s.sec.stage = .none) :
    cmdVerifyFirmware s = ends s .signatureFail := by
  simp only [cmdVerifyFirmware, hm, hs, ne_eq, not_true_eq_false, decide_true, Bool.true_or, if_false, if_true]

/-- R359: the first check that the staged image fails, or none. -/
theorem cmdVerifyFirmware_staged (s : State) (hm : s.sys.mode = .service) (hs : s.sec.stage ≠ .none) : cmdVerifyFirmware s =
    if (imageResult s (imageInfo (stagedBytes s))).isSome then ends s .signatureFail
    else endsWith (updSec s (fun x => { x with stage := .verified })) .ok ((imageInfo (stagedBytes s)).version.setWidth 24) := by
  simp only [cmdVerifyFirmware, hm, hs, ne_eq, not_true_eq_false, decide_false, Bool.false_or, if_false]

theorem cmdActivateFirmware_unverified (s : State) (hm : s.sys.mode = .service) (hs : s.sec.stage ≠ .verified) :
    cmdActivateFirmware s = endsWith s .checkFail 0x06 := by
  simp only [cmdActivateFirmware, hm, hs, ne_eq, not_true_eq_false, not_false_eq_true, if_false, if_true]

theorem cmdActivateFirmware_verified (s : State) (hm : s.sys.mode = .service) (hs : s.sec.stage = .verified) :
    cmdActivateFirmware s = ends (startJob s .firmware) .ok := by
  simp only [cmdActivateFirmware, hm, hs, ne_eq, not_true_eq_false, if_false]

/-! ### A wipe (R364) -/

/-- R364: with the store in canonical form TAMPER_STAT reads as the wipe left it. -/
theorem reg_wipeBank_stat (s : State) (cause : Nat) (hw : Memory.wf regReset s.par.reg = true) :
    reg (wipeBank s cause) (.chip 0x44) = wipeStat (reg s (.chip 0x44)) cause := by
  have h1 := setReg_wf s (.chip 0x44) (wipeStat (reg s (.chip 0x44)) cause) hw
  have h2 := setReg_wf _ (.chip 0x45) (loWord s.life.cal) h1
  rw [reg, regAt, wipeBank_reg]
  exact ((reg_setReg_other _ _ _ _ (by decide) h2).trans (reg_setReg_other _ _ _ _ (by decide) h1)).trans (reg_setReg _ _ _ hw)

/-- R364: what a wipe changes: registers, the secure bank, and a duty counter. -/
theorem wipeBank_frame (s : State) (cause : Nat) : wipeBank s cause = { s with
    par := (wipeBank s cause).par, sec := (wipeBank s cause).sec, life := (wipeBank s cause).life } := by
  unfold wipeBank
  dsimp only
  split <;> rfl

/-! ### Boundary scan and the debug port (R365 to R367) -/

theorem doDebugCertificate_reads (bs : List Byte) (s : State) (hr : s.sys.mode ≠ .retention) (hc : s.time.clk.coreLost = false) :
    doDebugCertificate bs s =
      if certDebugOk s bs then updSec s (fun x => { x with debugOk := true }) else debugViolation s 0x15 :=
  if_neg (by simp [hr, hc])

theorem jtagTakes_pins (s : State) (j : Jtag) (hm : s.sys.mode = .boot ∨ s.sys.mode = .configure) :
    jtagTakes s j = updSec s (fun x => { x with jtag := j }) := by
  have hr : s.sys.mode ≠ .retention := by
    rcases hm with hm | hm <;> rw [hm] <;> exact Mode.noConfusion
  exact (if_neg hr).trans (if_pos hm)

/-! ### The scrubber (R353, R354) -/

/-- R354: a word whose bank no requester waits for: what the scrubber finds of it, and its next place. -/
theorem doScrubWord_finds (m : MemId) (n : Fin 32) (f : ScrubFinding) (s : State) (ha : alive s = true)
    (hp : s.sys.mode ≠ .powerFail) (hb : bankWaits s m (n.val % (memShape m).1) (scrubAt s m (n.val % (memShape m).1)) = false) :
    doScrubWord m n f s =
      scrubNext (match (if eccBad s m (if m = .ringMem then 0 else n.val % (memShape m).1) (scrubAt s m (n.val % (memShape m).1))
          then ScrubFinding.uncorrectable else f) with
        | .clean => s
        | .corrected => eccCorrected s m (n.val % (memShape m).1) (scrubAt s m (n.val % (memShape m).1))
        | .uncorrectable => scrubBad s m (n.val % (memShape m).1) (scrubAt s m (n.val % (memShape m).1)))
        m (n.val % (memShape m).1) (scrubAt s m (n.val % (memShape m).1)) :=
  if_neg (by simp [ha, hp, hb])

end Sys2Proof.Machine
end

section
/-!
PROOFS. The obligations of 13_memory_and_security.md.
-/
namespace Sys2Proof.Machine

/-- Settles O10: each command is its window's check, or its block's scope. -/
theorem windowCommandsComplete : Obligations.WindowCommandsComplete := by
  unfold Obligations.WindowCommandsComplete
  refine ⟨?_, ?_, ?_, ?_⟩
  · rintro e buf _ s z h rfl
    cases hw : (windowCheck e buf z).1 with
    | error t => exact cmdRun_ends _ 0x40 e (cmdLoadWindow e buf) s z _ _ _ h (cmdLoadWindow_refused e buf z t hw)
    | ok bs => exact cmdRun_ends _ 0x40 e (cmdLoadWindow e buf) s z _ _ _ h (cmdLoadWindow_passed e buf z bs hw)
  · rintro e buf _ s z h rfl
    cases hw : (windowCheck e buf z).1 with
    | error t => exact cmdRun_ends _ 0x41 e (cmdVerifyWindow e buf) s z _ _ _ h (cmdVerifyWindow_refused e buf z t hw)
    | ok bs =>
      dsimp only
      split
      · next ha => exact cmdRun_ends _ 0x41 e (cmdVerifyWindow e buf) s z _ _ _ h (cmdVerifyWindow_holds e buf z bs hw ha)
      · next ha => exact cmdRun_ends _ 0x41 e (cmdVerifyWindow e buf) s z _ _ _ h (cmdVerifyWindow_differs e buf z bs hw ha)
  · rintro e _ s z h rfl hb
    exact cmdRun_ends _ 0x42 e (cmdInvokeRoutine e) s z _ _ _ h (cmdInvokeRoutine_held e z hb)
  · rintro e _ s z h rfl hb
    exact cmdRun_stays _ 0x42 e (cmdInvokeRoutine e) s z _ h (cmdInvokeRoutine_requests e z hb)

/-- Settles O15: outside SERVICE each is refused; in SERVICE it is its check and its effect. -/
theorem firmwareCommandsComplete : Obligations.FirmwareCommandsComplete := by
  unfold Obligations.FirmwareCommandsComplete
  refine ⟨?_, ?_, ?_, ?_, ?_, ?_, ?_, ?_, ?_, ?_, ?_, ?_⟩
  · exact fun e buf s z h hm => cmdRun_ends _ 0x81 e (cmdAdvanceLifecycle e buf) s z _ _ _ h (if_pos hm)
  · intro e buf bs x s z h hm hl hb
    cases hc : certCheck x e bs with
    | error t =>
      exact cmdRun_ends _ 0x81 e (cmdAdvanceLifecycle e buf) s z _ _ _ h (cmdAdvanceLifecycle_refused t hm hl hb hc)
    | ok lc =>
      exact cmdRun_ends _ 0x81 e (cmdAdvanceLifecycle e buf) s z _ _ _ h (cmdAdvanceLifecycle_accepted lc hm hl hb hc)
  · exact fun e buf s z h hm => cmdRun_ends _ 0x90 e (cmdStageFirmware e buf) s z _ _ _ h (if_pos hm)
  · exact fun e buf bs x s z h hm h1 h2 hb =>
      cmdRun_ends _ 0x90 e (cmdStageFirmware e buf) s z _ _ _ h (cmdStageFirmware_stores e buf bs z x hm h1 h2 hb)
  · intro e s z h hm hs
    have hbody := cmdVerifyFirmware_staged z hm hs
    split
    · next hi => exact cmdRun_ends _ 0x91 e cmdVerifyFirmware s z _ _ _ h (hbody.trans (if_neg (by simp [hi])))
    · next hi =>
      exact cmdRun_ends _ 0x91 e cmdVerifyFirmware s z _ _ _ h (hbody.trans (if_pos (Option.isSome_iff_ne_none.mpr hi)))
  · exact fun e s z h hm hs => cmdRun_ends _ 0x91 e cmdVerifyFirmware s z _ _ _ h (cmdVerifyFirmware_nothing z hm hs)
  · exact fun e s z h hm => cmdRun_ends _ 0x91 e cmdVerifyFirmware s z _ _ _ h (if_pos hm)
  · exact fun e s z h hm => cmdRun_ends _ 0x92 e cmdActivateFirmware s z _ _ _ h (if_pos hm)
  · exact fun e s z h hm hs => cmdRun_ends _ 0x92 e cmdActivateFirmware s z _ _ _ h (cmdActivateFirmware_unverified z hm hs)
  · exact fun e s z h hm hs => cmdRun_ends _ 0x92 e cmdActivateFirmware s z _ _ _ h (cmdActivateFirmware_verified z hm hs)
  · exact fun e s z h hm => cmdRun_ends _ 0x93 e cmdAbortStaging s z _ _ _ h (if_pos hm)
  · exact fun e s z h hm => cmdRun_ends _ 0x93 e cmdAbortStaging s z _ _ _ h (if_neg (not_not.mpr hm))

/-- Settles O32: each row is what it does once its conditions hold. -/
theorem securityRowsComplete : Obligations.SecurityRowsComplete := by
  unfold Obligations.SecurityRowsComplete
  refine ⟨?_, ?_, ?_, ?_, ?_, ?_, ?_, ?_, ?_, ?_, ?_, ?_, ?_, ?_, ?_, ?_⟩
  · exact fun bs s hr hc => run_of_eq (doDebugCertificate_reads bs s hr hc)
  · exact fun s hm => run_of_eq (jtagTakes_pins s .extest hm)
  · exact fun s hm => run_of_eq (jtagTakes_pins s .intest hm)
  · exact fun s hr => run_of_eq (if_neg hr)
  · exact fun s hr => run_of_eq (if_neg hr)
  · exact fun s hr => run_of_eq (if_neg hr)
  · rintro m n _ s ha hp rfl hb he
    exact run_of_eq ((doScrubWord_finds m n .clean s ha hp hb).trans (by rw [he]; rfl))
  · rintro m n _ s ha hp rfl hb he
    exact run_of_eq ((doScrubWord_finds m n .corrected s ha hp hb).trans (by rw [he]; rfl))
  · rintro m n _ s ha hp rfl hb
    exact run_of_eq ((doScrubWord_finds m n .uncorrectable s ha hp hb).trans (by rw [ite_self]))
  · exact fun n s h => run_of_eq (if_pos h)
  · exact fun s h => run_of_eq (if_pos h)
  · exact fun s ha hr => run_of_eq (if_pos (by rw [ha, hr]; rfl))
  · exact fun pa s ha hd => run_of_eq (if_neg (by simp [ha, hd]))
  · exact fun pa v s ha hd => run_of_eq (if_neg (by simp [ha, hd]))
  · exact fun b a s ha hd he => run_of_eq ((if_neg (by simp [ha, hd])).trans (if_neg (by simp [he])))
  · exact fun b a v s ha hd => run_of_eq (if_neg (by simp [ha, hd]))

/-- Settles O49: a wipe counts itself and its cause in TAMPER_STAT, and moves nothing but registers, the bank and a duty
counter. -/
theorem wipeChangesNoOutput : Obligations.WipeChangesNoOutput := by
  unfold Obligations.WipeChangesNoOutput
  intro s cause hc hw
  refine ⟨?_, ?_, wipeBank_bank s cause, ?_⟩
  · rw [reg_wipeBank_stat s cause hw, fld_wipeStat_count]
  · rw [reg_wipeBank_stat s cause hw, fld_wipeStat_cause _ _ hc]
  · rw [wipeBank_frame s cause]
    exact ⟨rfl, rfl, rfl, by simp [SameUnits], rfl⟩

end Sys2Proof.Machine
end

section
/-!
SUPPORT. What 14_lifetime_and_monitors.md and the lifetime rows of 15_pins_power_electrical.md come to in the model: the lifetime
commands, the end of an export's tick, the calendar, the store's rows, monitors, and the excitation ledger.
-/
namespace Sys2Proof.Machine

/-! ### Lifetime commands (R370, R373, R376, R380) -/

section
variable {e : Entry} {s : State}

theorem cmdBindWearCounter_reserved (h : 6 ≤ fld e.a1 11 9) : cmdBindWearCounter e s = ends s .addrInvalid := if_pos h

theorem cmdBindWearCounter_bound (k : Fin 256) (hk : k = Fin.ofNat 256 (fld e.a0 7 0)) (h6 : fld e.a1 11 9 < 6)
    (h0 : fld e.a1 11 9 ≠ 0) (hb : fld (lateView s).life.binds[k] 11 9 ≠ 0) : cmdBindWearCounter e s = ends s .conflict := by
  subst hk
  exact (if_neg (Nat.not_le.mpr h6)).trans (if_pos ⟨h0, hb⟩)

theorem cmdBindWearCounter_binds (k : Fin 256) (hk : k = Fin.ofNat 256 (fld e.a0 7 0)) (h6 : fld e.a1 11 9 < 6)
    (hb : fld e.a1 11 9 = 0 ∨ fld (lateView s).life.binds[k] 11 9 = 0) : cmdBindWearCounter e s =
    ends (requestCommit (addLate s 4 .host (.bind k (e.a1.setWidth 12)))) .ok := by
  subst hk
  exact (if_neg (Nat.not_le.mpr h6)).trans (if_neg (by tauto))

theorem cmdExportLifetime_short (hm : s.sys.mode = .service) (hl : e.a3.toNat < 51968) :
    cmdExportLifetime e s = ends s .queueFull := (if_neg (not_not.mpr hm)).trans (if_pos hl)

theorem cmdExportLifetime_exports (hm : s.sys.mode = .service) (hl : 51968 ≤ e.a3.toNat) : cmdExportLifetime e s =
    endsWith (addJob (requestCommit s) s.time.tick (.exportTo e)) .ok (word exportLen) :=
  (if_neg (not_not.mpr hm)).trans (if_neg (Nat.not_lt.mpr hl))

end

/-! ### The end of an export's tick (R376, R380) -/

@[simp] theorem refreshSnapshot_agenda (s : State) : (refreshSnapshot s).agenda = s.agenda := by
  unfold refreshSnapshot
  split
  · rfl
  · split <;> rfl

@[simp] theorem refreshSnapshot_time (s : State) : (refreshSnapshot s).time = s.time := by
  unfold refreshSnapshot
  split
  · rfl
  · split <;> rfl

@[simp] theorem writeExport_agenda (s : State) (e : Entry) : (writeExport s e).agenda = s.agenda := by
  rw [writeExport, writeBuffer, writeOut_frame]

@[simp] theorem writeExport_time (s : State) (e : Entry) : (writeExport s e).time = s.time := by
  rw [writeExport, writeBuffer, writeOut_frame]

theorem exportDue_now (s : State) (e : Entry) (n : Nat) (h : n ≤ s.time.tick) : exportDue s (n, .exportTo e) = some e := if_pos h

/-- R380: a tick whose one job is an export ends with its image written. -/
theorem endSnapshot_single (s : State) (e : Entry) (h : s.agenda.jobs = [(s.time.tick, .exportTo e)]) :
    endSnapshot s = { writeExport (refreshSnapshot s) e with agenda := { s.agenda with jobs := [] } } := by
  have hd (z : State) (hz : z.time = s.time) : exportDue z (s.time.tick, .exportTo e) = some e :=
    exportDue_now z e _ (by rw [hz])
  simp [endSnapshot, h, hd]

/-! ### The calendar (R370, R371, R375) -/

theorem nextSecond_alive (s : State) (ha : alive s = true) :
    nextSecond s = if s.life.setTick = some s.time.tick then s.life.cal else s.life.cal + 1 := by
  simp [nextSecond, ha]

/-- R370, R371: CALENDAR_SECOND with main power. -/
theorem doCalendarSecond_alive (s z y : State) (ha : alive s = true) (hz : z = { s with life := { s.life with
      cal := (if s.life.setTick = some s.time.tick then s.life.cal else s.life.cal + 1), secTick := s.time.tick } })
    (hy : y = (if (z.life.cal).toNat % 32 = 0 then
      updLife z (fun l => { l with trim := (shadowAt z (.life 0x07) s.time.tick).setWidth 9 }) else z)) :
    doCalendarSecond s = periodicCommit (dutySeconds y) := by
  subst hz hy
  rw [← nextSecond_alive s ha]
  exact if_pos ha

/-! ### The store's rows, monitors and the ledger (R373, R376, R379, R382, R398) -/

/-- R376: the end of a commit that no accepted change waits for. -/
theorem doLifetimeCommitEnd_ends (ok : Bool) (s : State) (hr : s.sys.mode ≠ .retention) (hc : s.time.clk.coreLost = false)
    (hw : s.life.writing.isSome = true) (ht : s.life.writeTick < s.time.tick) (hj : (endCommit ok s).sec.job = none) :
    doLifetimeCommitEnd ok s = endCommit ok s := by
  have hw' : s.life.writing.isNone = false := by simpa [Option.isNone_iff_eq_none, Option.isSome_iff_ne_none] using hw
  have hg : (decide (s.sys.mode = .retention) || s.time.clk.coreLost || s.life.writing.isNone ||
      decide (s.time.tick ≤ s.life.writeTick)) = false := by simp [hr, hc, hw', ht]
  simp only [doLifetimeCommitEnd, hg, hj, Option.isSome_none, Bool.false_and, Bool.false_eq_true, if_false]

theorem doHistoryWriteRow_writes (s : State) (h : HistEntry) (l : List HistEntry) (ha : alive s = true)
    (hq : s.life.histQueue = h :: l) : doHistoryWriteRow s =
      { s with life := { s.life with histQueue := l, hist := (h :: s.life.hist).take 1024 } } := by
  simp only [doHistoryWriteRow, ha, if_true, doHistoryWrite, hq, updLife]

/-- R384: a calibration pass that is not held counts. -/
theorem doCalibrationPass_counts (r : Fin 4) (v : Int) (s z : State) (hm : monsOn s = true)
    (hz : z = monSample (Fin.ofNat 24 (20 + r.val)) v s) (hh : calHeld z r = false) : doCalibrationPass r v s =
      setReg z (.monitor 0x03) (setFld (reg z (.monitor 0x03)) 23 8 (regFld z (.monitor 0x03) 23 8 + 1)) := by
  subst hz
  exact (if_neg (by simp [hm])).trans (if_neg (Bool.eq_false_iff.mp hh))

theorem doVbatLoss_clears (s : State) (hm : s.sys.mode = .retention) : doVbatLoss s =
    updSec (updLife (setWork (setReg ([0x43, 0x44, 0x45, 0x46].foldl (fun y o => setReg y (.chip o) 0) s) (.life 0x07) 0)
      (.life 0x07) 0) (fun l => { l with cal := 0, secTick := s.time.tick, calValid := false, trim := 0 }))
      (fun x => { x with bankValid := false, bankGen := 0, floor := 0 }) := if_neg (not_not.mpr hm)

/-- R397, R398: EXC_CTRL as it acts. -/
theorem acts_excCtrl (z : State) (req : Requester) (low v : Word) : Acts z req low (.chip 0x98) v =
    (List.finRange 8).foldl (fun y n => if bit v n.val && ledgerOver y n then ledgerTrip y n else y)
      (setReg z (.chip 0x98) (v &&& 0xFF)) := by
  refine acts_of_writePlace z _ req low (.chip 0x98) _ v .ok rfl rfl ?_ ?_
  · rw [foldl_keep (·.par.lows)]
    · rfl
    · intro y n
      split <;> rfl
  · rw [foldl_keep (·.par.sels)]
    · rfl
    · intro y n
      split <;> rfl

end Sys2Proof.Machine
end

section
/-!
PROOFS. The obligations of 14_lifetime_and_monitors.md.
-/
namespace Sys2Proof.Machine

/-- Settles O13: each command is its check and its effect; an export's image is the snapshot of the end of its tick. -/
theorem lifetimeCommandsComplete : Obligations.LifetimeCommandsComplete := by
  unfold Obligations.LifetimeCommandsComplete
  refine ⟨?_, ?_, ?_, ?_, ?_, ?_, ?_, ?_, ?_, ?_, ?_⟩
  · exact fun e s z h hm => cmdRun_ends _ 0x70 e (cmdSetCalendar e) s z _ _ _ h (if_pos hm)
  · exact fun e s z h hm => cmdRun_ends _ 0x70 e (cmdSetCalendar e) s z _ _ _ h (if_neg hm)
  · exact fun e s z h h6 => cmdRun_ends _ 0x71 e (cmdBindWearCounter e) s z _ _ _ h (cmdBindWearCounter_reserved h6)
  · exact fun e k s z h hk h6 h0 hb =>
      cmdRun_ends _ 0x71 e (cmdBindWearCounter e) s z _ _ _ h (cmdBindWearCounter_bound k hk h6 h0 hb)
  · exact fun e k s z h hk h6 hb =>
      cmdRun_ends _ 0x71 e (cmdBindWearCounter e) s z _ _ _ h (cmdBindWearCounter_binds k hk h6 hb)
  · exact fun e s z h => cmdRun_ends _ 0x72 e cmdCommitLifetime s z _ _ _ h rfl
  · exact fun e s z h hm => cmdRun_ends _ 0x73 e (cmdExportLifetime e) s z _ _ _ h (if_pos hm)
  · exact fun e s z h hm hl => cmdRun_ends _ 0x73 e (cmdExportLifetime e) s z _ _ _ h (cmdExportLifetime_short hm hl)
  · exact fun e s z h hm hl => cmdRun_ends _ 0x73 e (cmdExportLifetime e) s z _ _ _ h (cmdExportLifetime_exports hm hl)
  · exact fun e s h => endSnapshot_single s e h
  · exact fun k v r n s => rfl

/-- Settles O33: each row is what it does once its conditions hold; EXC_CTRL waits, and acts by its bits. -/
theorem lifeRowsComplete : Obligations.LifeRowsComplete := by
  unfold Obligations.LifeRowsComplete
  refine ⟨?_, ?_, ?_, ?_, ?_, ?_, ?_, ?_, ?_, ?_, ?_, ?_⟩
  · exact fun z y s hz hy ha => run_of_eq (doCalendarSecond_alive s z y ha hz hy)
  · exact fun ok s hr hc hw ht _ hj => run_of_eq (doLifetimeCommitEnd_ends ok s hr hc hw ht hj)
  · exact fun h l s ha hq => run_of_eq (doHistoryWriteRow_writes s h l ha hq)
  · exact fun req v s ha => run_rowWrite_now req (.life 0x0C) _ v s _ (show 0x0C < 0xC0 by decide) ha rfl rfl rfl
  · exact fun m r s hm ht => run_of_eq (if_pos (by simp [hm, ht]))
  · exact fun m r s hm hv => run_of_eq (if_pos (by simp [hm, hv]))
  · exact fun r v z s hm hz hh => run_of_eq (doCalibrationPass_counts r v s z hm hz hh)
  · rintro n vz i lim _ _ s ha rfl rfl
    exact run_of_eq (if_neg (by simp [ha]))
  · exact fun req v s ha => run_rowWrite_waits req (.chip 0x98) _ v s (show 0x98 < 0x100 by decide) ha rfl rfl rfl
  · exact fun req low v z => acts_excCtrl z req low v
  · exact fun req k v s ha hp => run_zioCfg req k v s ha hp
  · rintro _ s hm rfl
    exact run_of_eq (doVbatLoss_clears s hm)

end Sys2Proof.Machine
end

section
/-!
SUPPORT. What 06_position_channels.md comes to in the model: counts and items on their way, the input modes' rows, index events,
standstill, emulation, the checks and effects of a write of CH_CTRL, and the writes and reads of positions.
-/
namespace Sys2Proof.Machine

/-! ### A channel after an update -/

theorem updChan_at (s : State) (c : Fin 64) (f : Channel → Channel) : (updChan s c f).chans[c] = f s.chans[c] := by
  simp [updChan]

theorem updChan_congr (s : State) (c : Fin 64) (f g : Channel → Channel) (h : f s.chans[c] = g s.chans[c]) :
    updChan s c f = updChan s c g := by
  simp only [updChan, h]

theorem mem_insertCount (l : List CountEvt) (e : CountEvt) : e ∈ insertCount l e := by
  induction l with
  | nil => exact List.mem_singleton_self e
  | cons f t ih =>
    unfold insertCount
    split
    · exact List.mem_cons_self
    · exact List.mem_cons_of_mem f ih

/-! ### Counts on their way (R169, R177, R185) -/

theorem sendCount_flight (s : State) (c : Fin 64) (n : Int) (t : T16) (u : Time) (index : Bool) (item : Option (Option Nat))
    (track : Bool) : ∃ m, ⟨m, t, u, index, item, track⟩ ∈ (sendCount s c n t u index item track).chans[c].flight := by
  rw [sendCount, updChan_at]
  exact ⟨_, mem_insertCount _ _⟩

theorem sendCount_lastPulse (s : State) (c : Fin 64) (n : Int) (t : T16) (u : Time) (index : Bool)
    (item : Option (Option Nat)) (track : Bool) :
    (sendCount s c n t u index item track).chans[c].lastPulse = s.chans[c].lastPulse := by
  rw [sendCount, updChan_at]

/-- R169: a count with DIR_INV 0, and no standstill that it could take back. -/
theorem makeCount_plain (s : State) (c : Fin 64) (n : Int) (t : T16) (u : Time) (hd : regBit s (.chan c 0x01) 3 = false)
    (hs : s.chans[c].stand = none) : makeCount s c n t u false =
      updChan s c (fun x => { x with flight := insertCount x.flight ⟨n, t, u, false, none, false⟩ }) := by
  unfold makeCount sendCount
  refine updChan_congr s c _ _ ?_
  simp only [hd, hs, Option.filter_none, Bool.false_eq_true, if_false]

/-! ### The input modes (R171 to R174, R176) -/

/-- R171: the A/B state that a channel has seen up to an edge, and its change. -/
def quadSeen (s : State) (c : Fin 64) (new : BitVec 2) (t : T16) : State :=
  updChan s c (fun x =>
    { x with ab := new, abLog := (t, s.chans[c].ab) :: x.abLog.filter (fun r => decide ((t - r.1).toNat < 16 * 128)) })

/-- R177: the update tick of an A/B change. -/
def quadUpd (s : State) (c : Fin 64) (new : BitVec 2) (t : T16) : Time :=
  plus (tickPart t) (chanLead s c (chanIn s c (if bit new 1 ≠ bit s.chans[c].ab 1 then 0 else 1)))

/-- R171: a change of the A/B state of a channel that counts. -/
theorem doQuadEdge_counts (c : Fin 64) (ab new : BitVec 2) (t : T16) (s : State) (hm : chanMakes s c 0 = true)
    (hd : due s (tickPart t) = true) (hn : new = ab &&& BitVec.ofNat 2 (bitAt (chanHas s c 0) 1 + bitAt (chanHas s c 1) 0))
    (hc : chanCounts s c (tickPart t) = true) (h0 : (quadPlace new + 4 - quadPlace s.chans[c].ab) % 4 ≠ 0) :
    doQuadEdge c ab t s =
      if (quadPlace new + 4 - quadPlace s.chans[c].ab) % 4 = 2 then
        sendCount (quadSeen s c new t) c 0 t (quadUpd s c new t) false (some (some 1)) false
      else sendCount (quadSeen s c new t) c (if (quadPlace new + 4 - quadPlace s.chans[c].ab) % 4 = 1 then 1 else -1) t
        (quadUpd s c new t) false (some none) false := by
  subst hn
  have hg : (!(chanMakes s c 0 && due s (tickPart t))) = false := by rw [hm, hd]; rfl
  refine (if_neg (Bool.eq_false_iff.mp hg)).trans (if_neg ?_)
  rintro (h | h)
  · exact h0 h
  · exact Bool.noConfusion (hc.symm.trans h)

theorem doPulseRefEdge_plain (c : Fin 64) (t : T16) (s : State) (hm : chanMakes s c 2 = true) (ha : chanHas s c 0 = true)
    (hd : due s (tickPart t) = true) (hc : chanCounts s c (tickPart t) = true) (hs : s.chans[c].stand = none)
    (hr : fld (reg s (.chan c 0x06)) 13 12 = 0) : doPulseRefEdge c t s =
      makeCount (updChan s c (fun y => { y with lastPulse := some t, prevIval := (match s.chans[c].lastPulse with
        | some p => some (t - p).toNat
        | none => none) })) c 1 t (plus (tickPart t) (chanLead s c (chanIn s c 0))) false := by
  have hg : (!(chanMakes s c 2 && chanHas s c 0 && due s (tickPart t) && chanCounts s c (tickPart t))) = false := by
    rw [hm, ha, hd, hc]; rfl
  have hx : sinceStand s.chans[c] t = s.chans[c] := by simp only [sinceStand, hs]
  refine (if_neg (Bool.eq_false_iff.mp hg)).trans ?_
  dsimp only
  rw [hx, hr]
  exact (if_neg (by decide)).trans (if_neg (by decide))

theorem sincosInstant_of (s : State) (c : Fin 64) (t : Time) (h : t.toNat % 80 = 0) (hc : chanCounts s c t = true)
    (hl : ∀ p, s.chans[c].lastPulse = some p → after t (tickPart p) = true) : sincosInstant s c t = true := by
  unfold sincosInstant
  rw [hc, decide_eq_true h]
  cases hp : s.chans[c].lastPulse with
  | none => rfl
  | some p => exact hl p hp

/-- R175: an item that fails the amplitude check, or else the phase step, counts nothing; a good one counts and is kept. -/
theorem sendCount_item (x : State) (c : Fin 64) (d phi : Int) (t : T16) (u : Time) (weak far : Prop) [Decidable weak]
    [Decidable far] :
    sendCount (if (if weak then some 2 else if decide far then some 3 else none) = (none : Option Nat) then
        updChan x c (fun v => { v with phiPrev := some phi }) else x) c
      (if (if weak then some 2 else if decide far then some 3 else none) = (none : Option Nat) then d else 0) t u false
      (some (if weak then some 2 else if decide far then some 3 else none)) (decide far) =
    if weak then sendCount x c 0 t u false (some (some 2)) (decide far)
    else if far then sendCount x c 0 t u false (some (some 3)) true
    else sendCount (updChan x c (fun v => { v with phiPrev := some phi })) c d t u false (some none) false := by
  by_cases hw : weak
  · simp [hw]
  · by_cases hf : far <;> simp [hw, hf]

/-- R174, R175: what a SINCOS channel of the state `s` sends of a sample, from the state `y` that has its results and offsets: an
item that fails the amplitude check or the phase step, or its count. -/
def sincosSent (s y : State) (c : Fin 64) (a b : BitVec 14) (t : Time) : State :=
  let sn : Int := (a.toNat : Int) - 8192 - ((work y (.chan c 0x08)).extractLsb' 12 12).toInt
  let cs : Int := (b.toNat : Int) - 8192 - ((work y (.chan c 0x08)).extractLsb' 0 12).toInt
  let sq := (sn * sn + cs * cs).toNat
  let interp := regFld s (.chan c 0x07) 3 0
  let phi := sincosCount sn cs interp
  let d : Int := match s.chans[c].phiPrev with
    | some p => wrapBits (phi - p) interp
    | none => 0
  let x := updChan y c (fun x => { x with raw := word (Nat.sqrt sq % 2 ^ 14), lastPulse := some (mk16 t 0) })
  if sq < 2 * regFld s (.chan c 0x09) 11 0 * (2 * regFld s (.chan c 0x09) 11 0) ∨
      2 * regFld s (.chan c 0x09) 23 12 * (2 * regFld s (.chan c 0x09) 23 12) < sq then
    sendCount x c 0 (mk16 t 0) (plus t 96) false (some (some 2)) (decide (2 ^ (interp - 2) < d.natAbs))
  else if 2 ^ (interp - 2) < d.natAbs then sendCount x c 0 (mk16 t 0) (plus t 96) false (some (some 3)) true
  else sendCount (updChan x c (fun v => { v with phiPrev := some phi })) c d (mk16 t 0) (plus t 96) false (some none) false

theorem sincosSent_lastPulse (s y : State) (c : Fin 64) (a b : BitVec 14) (t : Time) :
    (sincosSent s y c a b t).chans[c].lastPulse = some (mk16 t 0) := by
  unfold sincosSent
  dsimp only
  split_ifs <;> simp only [sendCount_lastPulse, updChan_at]

theorem sincosSent_flight (s y : State) (c : Fin 64) (a b : BitVec 14) (t : Time) :
    ∃ e ∈ (sincosSent s y c a b t).chans[c].flight, e.t = mk16 t 0 ∧ e.upd = plus t 96 ∧ e.item.isSome = true := by
  unfold sincosSent
  dsimp only
  split_ifs
  all_goals
    obtain ⟨m, hm⟩ := sendCount_flight _ c _ (mk16 t 0) (plus t 96) false (some _) _
    exact ⟨_, hm, rfl, rfl, rfl⟩

/-- R174: the state in which a SINCOS channel judges a sample: its converters have the results, and its offsets are taken. -/
def sincosTaken (s : State) (c : Fin 64) (a b : BitVec 14) (t : Time) : State :=
  let ad := fun (k : Nat) => (Fin.ofNat 32 (8 * (regionOfChan c).val + 2 * regFld s (.chan c 0x07) 9 8 + k) : Fin 32)
  let inp := fun (k : Fin 32) => (regionOfAdc k).val * 24 + regFld s (.adc k 0x0) 4 0
  let z := deliverResult (deliverResult s (ad 0) t (resultWord false false (inp (ad 0)) a.toNat)) (ad 1) t
    (resultWord false false (inp (ad 1)) b.toNat)
  reload (if lateAt z (.chan c 0x08) s.time.tick then chanFlag z c 6 else z) (.chan c 0x08) s.time.tick

/-- R174, R223: a sample at one of the pair's instants. -/
theorem doSincosSample_due (c : Fin 64) (a b : BitVec 14) (t : Time) (s : State) (hm : chanMakes s c 3 = true)
    (ha : adcOn s = true) (hd : due s (plus t 72) = true) (hi : sincosInstant s c t = true) :
    doSincosSample c a b t s = sincosSent s (sincosTaken s c a b t) c a b t := by
  have hg : (!(chanMakes s c 3 && adcOn s && due s (plus t 72) && sincosInstant s c t)) = false := by rw [hm, ha, hd, hi]; rfl
  exact (if_neg (Bool.eq_false_iff.mp hg)).trans (sendCount_item ..)

theorem updPe_congr (s : State) (p : Fin 32) (f g : Pewter → Pewter) (h : f s.pes[p] = g s.pes[p]) :
    updPe s p f = updPe s p g := by
  simp only [updPe, h]

/-- R176: two words that lie in the engine's FIFO are a reading. -/
theorem doSerialReading_two (c : Fin 64) (p : Fin 32) (t0 t1 : Nat) (w0 w1 : Word) (l : List (Nat × Word)) (s : State)
    (ho : chanOn s c = true) (hm : chanMode s c = 4) (hw : s.chans[c].serWord0 = none)
    (hp : p = Fin.ofNat 32 (8 * (regionOfChan c).val + regFld s (.chan c 0x0B) 2 0))
    (hr : s.pes[p].rx = (t0, w0) :: (t1, w1) :: l) (h0 : t0 < s.time.tick) (h1 : t1 < s.time.tick) :
    doSerialReading c s = serialTake (updPe s p (fun e => { e with rx := l })) c w0 w1 := by
  subst hp
  simp only [doSerialReading, ho, hm, hw, hr, List.takeWhile_cons, h0, h1, decide_true, Bool.and_self, Bool.not_true,
    Bool.false_eq_true, if_false, if_true]
  exact congrArg (serialTake · c w0 w1) (updPe_congr s _ _ _ (by simp only [hr, List.drop_succ_cons, List.drop_zero]))

/-- R176: a word that lies there alone is kept as the first of a reading. -/
theorem doSerialReading_one (c : Fin 64) (p : Fin 32) (t0 : Nat) (w0 : Word) (s : State) (ho : chanOn s c = true)
    (hm : chanMode s c = 4) (hw : s.chans[c].serWord0 = none)
    (hp : p = Fin.ofNat 32 (8 * (regionOfChan c).val + regFld s (.chan c 0x0B) 2 0)) (hr : s.pes[p].rx = [(t0, w0)])
    (h0 : t0 < s.time.tick) :
    doSerialReading c s = updChan (updPe s p (fun e => { e with rx := [] })) c (fun x => { x with serWord0 := some w0 }) := by
  subst hp
  simp only [doSerialReading, ho, hm, hw, hr, List.takeWhile_cons, List.takeWhile_nil, h0, decide_true, Bool.and_self, Bool.not_true,
    Bool.false_eq_true, if_false, if_true]
  exact congrArg (updChan · c _) (updPe_congr s _ _ _ (by simp only [hr, List.drop_succ_cons, List.drop_zero]))

/-! ### Count events, index events and standstill (R177, R179, R183) -/

theorem doCountEvent_due (c : Fin 64) (e : CountEvt) (l : List CountEvt) (s : State) (hf : s.chans[c].flight = e :: l)
    (ho : chanOn s c = true) (hd : due s e.upd = true) :
    doCountEvent c s = applyCount (updChan s c (fun x => { x with flight := l })) c e := by
  simp only [doCountEvent, hf, ho, hd, Bool.and_self, if_true]

/-- R179: an edge of the other direction at a pin time is what INPUT_EDGE rows said of Z. -/
theorem otherZ_iff (s : State) (c : Fin 64) (t : T16) :
    otherZ s c t = true ↔ (t, regBit s (.chan c 0x03) 3) ∈ s.chans[c].zLog := by
  simp only [otherZ, List.any_eq_true, Bool.and_eq_true, decide_eq_true_eq, beq_iff_eq]
  constructor
  · rintro ⟨⟨_, _⟩, hr, rfl, rfl⟩
    exact hr
  · exact fun h => ⟨_, h, rfl, rfl⟩

theorem doIndexEvent_other (c : Fin 64) (t : T16) (s : State) (h : (t, regBit s (.chan c 0x03) 3) ∈ s.chans[c].zLog) :
    doIndexEvent c t s = s := by
  simp only [doIndexEvent, (otherZ_iff s c t).mpr h, Bool.not_true, Bool.and_false, Bool.false_and, Bool.false_eq_true, if_false]

theorem doIndexEvent_applies (c : Fin 64) (t : T16) (s : State) (ho : chanOn s c = true)
    (hm : chanMode s c = 1 ∨ chanMode s c = 3 ∨ (chanMode s c = 0 ∧ regFld s (.chan c 0x03) 2 0 < 4))
    (hh : chanHas s c 2 = true) (hz : (t, regBit s (.chan c 0x03) 3) ∉ s.chans[c].zLog)
    (hd : due s (plus (tickPart t) (indexLead s c)) = true) (hc : chanCounts s c (tickPart t) = true) :
    doIndexEvent c t s =
      indexApply (flushCounts s c (fun e => !after16 e.t t)) c t (plus (tickPart t) (indexLead s c)) := by
  have hz' : otherZ s c t = false := Bool.eq_false_iff.mpr (fun h => hz ((otherZ_iff s c t).mp h))
  have hmode : decide (chanMode s c = 0 ∨ chanMode s c = 1 ∨ chanMode s c = 3) = true := by
    rw [decide_eq_true_eq]
    omega
  have hq : decide (chanMode s c ≠ 0 ∨ regFld s (.chan c 0x03) 2 0 < 4) = true := by
    rw [decide_eq_true_eq]
    omega
  simp only [doIndexEvent, ho, hh, hz', hd, hc, hmode, hq, Bool.true_or, Bool.not_false, Bool.and_self, if_true]

theorem doChannelStandstill_due (c : Fin 64) (d : Time) (s : State) (hd : chanDeadline s c = some d) (ho : chanOn s c = true)
    (hn : due s d = true) (hm : movesBy s c d = false) (hp : s.chans[c].spd.standstill = false) (hs : s.chans[c].stand = none) :
    doChannelStandstill c s = updChan s c (fun x => { x with stand := some d }) := by
  simp only [doChannelStandstill, hd, ho, hn, hm, hp, hs, Option.isSome_none, Bool.not_true, Bool.or_self, Bool.false_eq_true,
    if_false]

/-- R183: a standstill that nothing takes back any more, of a channel without CH_MOTION records. -/
theorem standEnds_closed (c : Fin 64) (d : Time) (s : State) (hs : s.chans[c].stand = some d) (ho : standOpen s c d = false)
    (hr : regBit s (.chan c 0x01) 19 = false) : standEnds c s =
      updChan (nowSpd s c ⟨0, false, true, s.chans[c].spd.reversed⟩) c (fun x =>
        { x with speedRef := none, stand := none,
                 lastPulse := x.lastPulse.filter (fun p => decide (chanMode s c ≠ 2) || after (tickPart p) d),
                 prevIval := none }) := by
  simp only [standEnds, hs, ho, hr, Bool.false_eq_true, if_false]

/-! ### Emulation (R191) -/

theorem doEmuOutput_places (c : Fin 64) (t : T16) (u : Time) (up : Bool) (l : List (T16 × Time × Bool)) (b : Bool)
    (k : Fin 512) (s : State) (hq : s.chans[c].emuQueue = (t, u, up) :: l)
    (hb : b = (if up then decide (s.chans[c].emuA ≠ s.chans[c].emuB) else decide (s.chans[c].emuA = s.chans[c].emuB)))
    (hk : k = emuCell s c b) (ho : chanOn s c = true) (he : regBit s (.chan c 0x00) 2 = true) (hu : unfired s k = false)
    (hd : due s u = true) (ht : takesChannel s k = true) (hl : s.chans[c].emuLast = none)
    (hf : after16 (mk16 (laterOf (plus u 6) (plus (now s) 3)) 0) t = false) : doEmuOutput c s =
      updChan (chanWrite s k .a t) c (fun y => { y with
        emuQueue := l, emuLast := some t, emuA := (if b then y.emuA else !y.emuA), emuB := (if b then !y.emuB else y.emuB) }) := by
  subst hk
  simp only [doEmuOutput, hq, ← hb, ho, he, hu, hd, ht, hl, hf, Bool.and_self, Bool.not_true, Bool.or_self, Bool.false_eq_true,
    if_false, if_true]

/-! ### CH_CTRL (R186, R190, R192) -/

/-- R192: what gives no record of sharing. -/
theorem chanCheck_bare (s : State) (c : Fin 64) (h : chanMode s c < 3) : chanCheck s c false false = .ok := by
  have h3 : ¬chanMode s c = 3 := by omega
  have h4 : ¬chanMode s c = 4 := by omega
  simp [chanCheck, namedCells, h3, h4]

/-- R192: where no other channel is enabled, the cells need only be ready and apart. -/
theorem chanCheck_alone (s : State) (c : Fin 64) (cmp emu : Bool) (ho : ∀ k, k ≠ c → chanEn s k = false)
    (hc : cmp = true → cellReadyFor s (cmpCell s c) 1 2 = true)
    (he : emu = true → cellReadyFor s (emuCell s c false) 3 0 = true ∧ cellReadyFor s (emuCell s c true) 3 0 = true)
    (hd : cmp = true → emu = true → cmpCell s c ≠ emuCell s c false ∧ cmpCell s c ≠ emuCell s c true) :
    chanCheck s c cmp emu = .ok := by
  have hothers : (List.finRange 64).filter (fun k => decide (k ≠ c) && chanEn s k) = [] := by
    refine List.filter_eq_nil_iff.mpr fun k _ => ?_
    rw [Bool.and_eq_true, decide_eq_true_eq]
    rintro ⟨hk, hen⟩
    exact Bool.noConfusion ((ho k hk).symm.trans hen)
  have hready : (cmp && !cellReadyFor s (cmpCell s c) 1 2 ||
      emu && !(cellReadyFor s (emuCell s c false) 3 0 && cellReadyFor s (emuCell s c true) 3 0)) = false := by
    cases cmp <;> cases emu <;> simp_all
  have hapart : (cmp && emu && (namedCells s c false true).contains (cmpCell s c)) = false := by
    cases cmp <;> cases emu <;> simp_all [namedCells]
  simp only [chanCheck, hothers, hready, hapart, List.any_nil, List.flatMap_nil]
  simp

/-- R192: the checks of a write of CH_CTRL pass: those of an enable, or those of what it turns on in an enabled channel. -/
structure CtrlChecks (s : State) (c : Fin 64) (v : Word) : Prop where
  start : bit v 0 = true → bit (reg s (.chan c 0x00)) 0 = false → chanCheck s c (bit v 1) (bit v 2) = .ok
  cmp : bit v 0 = true → bit (reg s (.chan c 0x00)) 0 = true → bit v 1 = true →
    chanCheck s c true (bit (reg s (.chan c 0x00)) 2 && bit v 2) = .ok
  emu : bit v 0 = true → bit (reg s (.chan c 0x00)) 0 = true → bit v 2 = true → chanCheck s c (bit v 1) true = .ok

/-- R186, R191, R192: a write of CH_CTRL whose checks pass. -/
def chCtrlDone (s : State) (c : Fin 64) (v : Word) : State :=
  let old := reg s (.chan c 0x00)
  let s1 := setReg s (.chan c 0x00) (word (bitAt (bit v 0) 0 + bitAt (bit v 1) 1 + bitAt (bit v 2) 2 + bitAt (bit v 3) 3))
  let s2 := if bit v 0 && !bit old 0 then chanEnable s1 c else if bit old 0 && !bit v 0 then chanDisable s1 c else s1
  let s3 := if bit v 2 && !bit old 2 then emuStart s2 c else s2
  if bit v 4 then clearFault s3 c else s3

theorem CtrlChecks.write {s : State} {c : Fin 64} {v : Word} (h : CtrlChecks s c v) :
    writeChCtrl s c v = (chCtrlDone s c v, .ok) := by
  have hs : (if bit v 0 && !bit (reg s (.chan c 0x00)) 0 then chanCheck s c (bit v 1) (bit v 2) else .ok) = .ok := by
    split
    · next hb =>
      rw [Bool.and_eq_true, Bool.not_eq_true'] at hb
      exact h.start hb.1 hb.2
    · rfl
  have hc : (if bit v 0 && bit (reg s (.chan c 0x00)) 0 && bit v 1 && !bit (reg s (.chan c 0x00)) 1 then
      chanCheck s c true (bit (reg s (.chan c 0x00)) 2 && bit v 2) else .ok) = .ok := by
    split
    · next hb =>
      simp only [Bool.and_eq_true] at hb
      exact h.cmp hb.1.1.1 hb.1.1.2 hb.1.2
    · rfl
  have he : (if bit v 0 && bit (reg s (.chan c 0x00)) 0 && bit v 2 && !bit (reg s (.chan c 0x00)) 2 then
      chanCheck s c (bit v 1) true else .ok) = .ok := by
    split
    · next hb =>
      simp only [Bool.and_eq_true] at hb
      exact h.emu hb.1.1.1 hb.1.1.2 hb.1.2
    · rfl
  simp only [writeChCtrl, hs, hc, decide_true, Bool.and_true, he, ne_eq, not_true_eq_false, if_false]
  rfl

namespace CtrlChecks
variable {s : State} {c : Fin 64} {v : Word}

theorem of_off (h : bit v 0 = false) : CtrlChecks s c v :=
  ⟨fun h0 => Bool.noConfusion (h.symm.trans h0), fun h0 => Bool.noConfusion (h.symm.trans h0),
    fun h0 => Bool.noConfusion (h.symm.trans h0)⟩

theorem of_start (ho : bit (reg s (.chan c 0x00)) 0 = false) (hk : chanCheck s c (bit v 1) (bit v 2) = .ok) : CtrlChecks s c v :=
  ⟨fun _ _ => hk, fun _ h1 => Bool.noConfusion (ho.symm.trans h1), fun _ h1 => Bool.noConfusion (ho.symm.trans h1)⟩

theorem of_compare (ho : bit (reg s (.chan c 0x00)) 0 = true) (h2 : bit v 2 = false) (hk : chanCheck s c true false = .ok) :
    CtrlChecks s c v :=
  ⟨fun _ h0 => Bool.noConfusion (ho.symm.trans h0), fun _ _ _ => by rw [h2, Bool.and_false]; exact hk,
    fun _ _ h => Bool.noConfusion (h2.symm.trans h)⟩

theorem of_emulation (ho : bit (reg s (.chan c 0x00)) 0 = true) (h1 : bit v 1 = false) (hk : chanCheck s c false true = .ok) :
    CtrlChecks s c v :=
  ⟨fun _ h0 => Bool.noConfusion (ho.symm.trans h0), fun _ _ h => Bool.noConfusion (h1.symm.trans h),
    fun _ _ _ => by rw [h1]; exact hk⟩

/-- R192: a write that leaves EN and turns nothing on. -/
theorem of_same (ho : bit v 0 = bit (reg s (.chan c 0x00)) 0) (h1 : bit v 1 = false) (h2 : bit v 2 = false) : CtrlChecks s c v :=
  ⟨fun h h0 => Bool.noConfusion (h.symm.trans (ho.trans h0)), fun _ _ h => Bool.noConfusion (h1.symm.trans h),
    fun _ _ h => Bool.noConfusion (h2.symm.trans h)⟩

end CtrlChecks

theorem run_chCtrl (req : Requester) (c : Fin 64) (v : Word) (s : State) (h : Accepts s req (.chan c 0x00) v)
    (hk : CtrlChecks (lateView s) c v) :
    run (rowWrite req (.chan c 0x00) v) s = .next (settle (Committed s req (.chan c 0x00) v)) :=
  run_rowWrite_waits req (.chan c 0x00) _ v s (show 0 < 0x80 by decide) h rfl rfl (congrArg Prod.snd hk.write)

/-- R9: of the channels a class L write does what its unit does. -/
theorem acts_chans (z y : State) (req : Requester) (low : Word) (l : PLoc) (i : PInfo) (v : Word) (t : Status)
    (hi : paramInfo l = some i) (hw : writePlace z req low l i v = (y, t)) : (Acts z req low l v).chans = y.chans := by
  rw [acts_eq z y req low l i v t hi hw]

/-- A write of SPD_TIMEOUT other than 0 sets the floor of the deadline. -/
theorem writeSpdTimeout_floor (s : State) (c : Fin 64) (v : Word) (hv : v ≠ 0) : writeSpdTimeout s c v =
    (updChan (setReg s (.chan c 0x0D) v) c (fun x => { x with spdFloor := some (plus (now s) 1) }), .ok) := if_neg hv

theorem acts_chCtrl_chans (z : State) (req : Requester) (low : Word) (c : Fin 64) (v : Word) (h : CtrlChecks z c v) :
    (Acts z req low (.chan c 0x00) v).chans = (chCtrlDone z c v).chans :=
  acts_chans z _ req low (.chan c 0x00) _ v .ok rfl h.write

theorem acts_chCtrl_reg (z : State) (req : Requester) (low : Word) (c : Fin 64) (v : Word) (h : CtrlChecks z c v) :
    (Acts z req low (.chan c 0x00) v).par.reg = (chCtrlDone z c v).par.reg := by
  rw [acts_eq z (chCtrlDone z c v) req low (.chan c 0x00) _ v .ok rfl h.write]

section
variable (z : State) (c : Fin 64) (v : Word)

/-- R192: a write that enables a channel. -/
theorem chCtrlDone_enables (h0 : bit v 0 = true) (ho : bit (reg z (.chan c 0x00)) 0 = false) (h2 : bit v 2 = false)
    (h4 : bit v 4 = false) : chCtrlDone z c v =
      chanEnable (setReg z (.chan c 0x00) (word (1 + bitAt (bit v 1) 1 + bitAt (bit v 3) 3))) c := by
  simp [chCtrlDone, h0, ho, h2, h4, bitAt]

/-- R192: a write that disables a channel. -/
theorem chCtrlDone_disables (h0 : bit v 0 = false) (ho : bit (reg z (.chan c 0x00)) 0 = true) (h2 : bit v 2 = false)
    (h4 : bit v 4 = false) : chCtrlDone z c v =
      chanDisable (setReg z (.chan c 0x00) (word (bitAt (bit v 1) 1 + bitAt (bit v 3) 3))) c := by
  simp [chCtrlDone, h0, ho, h2, h4, bitAt]

/-- R190: a write that turns emulation on in an enabled channel. -/
theorem chCtrlDone_emulates (h0 : bit v 0 = true) (ho : bit (reg z (.chan c 0x00)) 0 = true) (h1 : bit v 1 = false)
    (h2 : bit v 2 = true) (h4 : bit v 4 = false) (hn : bit (reg z (.chan c 0x00)) 2 = false) : chCtrlDone z c v =
      emuStart (setReg z (.chan c 0x00) (word (5 + bitAt (bit v 3) 3))) c := by
  simp [chCtrlDone, h0, ho, h1, h2, h4, hn, bitAt]

/-- R186, R192: a write that leaves EN, and turns no emulation on. -/
theorem chCtrlDone_keeps (ho : bit v 0 = bit (reg z (.chan c 0x00)) 0) (h2 : bit v 2 = false) : chCtrlDone z c v =
    let s1 := setReg z (.chan c 0x00) (word (bitAt (bit v 0) 0 + bitAt (bit v 1) 1 + bitAt (bit v 3) 3))
    if bit v 4 then clearFault s1 c else s1 := by
  simp [chCtrlDone, ← ho, h2, bitAt]

end

end Sys2Proof.Machine
end

section
/-!
PROOFS. The obligation of 06_position_channels.md.
-/
namespace Sys2Proof.Machine

/-- Settles O25: each row is what it does once its conditions hold; a write of CH_CTRL waits, and acts by its bits. -/
theorem channelRowsComplete : Obligations.ChannelRowsComplete := by
  unfold Obligations.ChannelRowsComplete
  refine ⟨?_, ?_, ?_, ?_, ?_, ?_, ?_, ?_, ?_, ?_, ?_, ?_, ?_, ?_, ?_, ?_, ?_, ?_, ?_, ?_, ?_, ?_, ?_, ?_, ?_, ?_, ?_, ?_, ?_, ?_,
    ?_, ?_, ?_, ?_, ?_, ?_, ?_, ?_⟩
  · intro c ab new t s hm hd hn hc hq
    exact run_of_eq ((doQuadEdge_counts c ab new t s hm hd hn hc (by omega)).trans
      ((if_neg (by omega)).trans (by rw [if_pos hq]; rfl)))
  · intro c ab new t s hm hd hn hc hq
    exact run_of_eq ((doQuadEdge_counts c ab new t s hm hd hn hc (by omega)).trans
      ((if_neg (by omega)).trans (by rw [if_neg (by omega)]; rfl)))
  · intro c ab new t s hm hd hn hc hq
    exact run_of_eq ((doQuadEdge_counts c ab new t s hm hd hn hc (by omega)).trans (if_pos hq))
  · exact fun c n t u s hd hs => makeCount_plain s c n t u hd hs
  · exact fun c dir t s hm hh hd hc => run_of_eq (if_pos (by rw [hm, hh, hd, hc]; rfl))
  · exact fun c t s hm hh hd hc hs hr => run_of_eq (doPulseRefEdge_plain c t s hm hh hd hc hs hr)
  · rintro c a b t _ _ s hm ha hd h80 hc hl rfl rfl
    exact run_of_eq (doSincosSample_due c a b t s hm ha hd (sincosInstant_of s c t h80 hc hl))
  · exact fun c a b t s hm ha hd h80 hc hl => ⟨_, run_of_eq (doSincosSample_due c a b t s hm ha hd
      (sincosInstant_of s c t h80 hc hl)), sincosSent_lastPulse .., sincosSent_flight ..⟩
  · exact fun c p t0 t1 w0 w1 l s ho hm hw hp hr h0 h1 => run_of_eq (doSerialReading_two c p t0 t1 w0 w1 l s ho hm hw hp hr h0 h1)
  · exact fun c p t0 w0 s ho hm hw hp hr h0 => run_of_eq (doSerialReading_one c p t0 w0 s ho hm hw hp hr h0)
  · exact fun c e l s hf ho hd => run_of_eq (doCountEvent_due c e l s hf ho hd)
  · exact fun c t s ho hm hh hz hd hc => run_of_eq (doIndexEvent_applies c t s ho hm hh hz hd hc)
  · exact fun c d s hd ho hn hm hp hs => run_of_eq (doChannelStandstill_due c d s hd ho hn hm hp hs)
  · intro c d s hs ho hr
    rw [standEnds_closed c d s hs ho hr]
    simp only [updChan_at, nowSpd]
    exact ⟨trivial, trivial, trivial, trivial⟩
  · exact fun c t u up l b k s hq hb hk ho he hu hd ht hl hf =>
      run_of_eq (doEmuOutput_places c t u up l b k s hq hb hk ho he hu hd ht hl hf)
  · exact fun req c v s h _ ho hk => run_chCtrl req c v s h (.of_start ho hk)
  · exact chanCheck_bare
  · exact chanCheck_alone
  · intro req c low v z h0 ho h2 h4 hk
    rw [acts_chCtrl_chans z req low c v (.of_start ho (by rw [h2]; exact hk)), chCtrlDone_enables z c v h0 ho h2 h4]
  · exact fun req c v s h h0 => run_chCtrl req c v s h (.of_off h0)
  · intro req c low v z h0 ho h2 h4
    rw [acts_chCtrl_chans z req low c v (.of_off h0), chCtrlDone_disables z c v h0 ho h2 h4]
  · intro req c v s h h0 h2 ho hothers hr
    exact run_chCtrl req c _ s h (.of_compare ho (by simpa [bit] using h2) (chanCheck_alone _ c true false hothers (fun _ => hr)
      (fun hf => Bool.noConfusion hf) (fun _ hf => Bool.noConfusion hf)))
  · intro req c low v z h0 h1 h2 h4 ho hn hk
    rw [acts_chCtrl_reg z req low c v (.of_compare ho h2 hk), chCtrlDone_keeps z c v (h0.trans ho.symm) h2]
    simp [h0, h1, h4, bitAt]
  · intro req c v s h h0 h1 ho hothers hr0 hr1
    exact run_chCtrl req c _ s h (.of_emulation ho (by simpa [bit] using h1) (chanCheck_alone _ c false true hothers
      (fun hf => Bool.noConfusion hf) (fun _ => ⟨hr0, hr1⟩) (fun hf => Bool.noConfusion hf)))
  · intro req c low v z h0 h1 h2 h4 ho hn hk
    rw [acts_chCtrl_chans z req low c v (.of_emulation ho h1 hk), chCtrlDone_emulates z c v h0 ho h1 h2 h4 hn]
  · intro req c v s h h0 h1 h2
    exact run_chCtrl req c _ s h (.of_same (by simpa [bit] using h0) (by simpa [bit] using h1) (by simpa [bit] using h2))
  · intro req c low v z h0 h1 h2 h4
    rw [acts_chCtrl_chans z req low c v (.of_same h0 h1 h2), chCtrlDone_keeps z c v h0 h2]
    dsimp only
    rw [if_pos h4]
    rfl
  · intro req c v s h h0 h1 h2
    exact run_chCtrl req c _ s h (.of_same (by simpa [bit] using h0) (by simpa [bit] using h1) (by simpa [bit] using h2))
  · intro req c low v z h0 h1 h2 h3 h4
    rw [acts_chCtrl_reg z req low c v (.of_same h0 h1 h2), chCtrlDone_keeps z c v h0 h2]
    simp [h1, h3, h4, bitAt]
  · exact fun req c v s h => ⟨run_rowWrite_waits req (.chan c 0x18) _ v s (show 0x18 < 0x80 by decide) h rfl rfl rfl, rfl⟩
  · exact fun req c low v z => acts_chans z _ req low (.chan c 0x18) _ v .ok rfl rfl
  · exact fun req c v s h => ⟨run_rowWrite_waits req (.chan c 0x0F) _ v s (show 0x0F < 0x80 by decide) h rfl rfl rfl, rfl⟩
  · exact fun req c low v z => acts_chans z _ req low (.chan c 0x0F) _ v .ok rfl rfl
  · exact fun req c v s h hv => run_rowWrite_waits req (.chan c 0x0D) _ v s (show 0x0D < 0x80 by decide) h rfl rfl
      (congrArg Prod.snd (writeSpdTimeout_floor (lateView s) c v hv))
  · exact fun req c low v z hv => (acts_chans z _ req low (.chan c 0x0D) _ v .ok rfl (writeSpdTimeout_floor z c v hv)).trans rfl
  · exact fun req c s hr hc => run_rowRead req (.chan c 0x17) _ s (show 0x17 < 0x80 by decide) hr hc rfl rfl rfl
  · exact fun req c s hr hc => run_rowRead req (.chan c 0x1D) _ s (show 0x1D < 0x80 by decide) hr hc rfl rfl rfl
  · exact fun c t s h => run_of_eq (doIndexEvent_other c t s h)

end Sys2Proof.Machine
end
